-- ==== Sys2Proof/Word.lean ====
section
/-! DEFINITION. The word types of the module (00 R9, R10): bytes, register words, addresses, sparse tables. -/

namespace Sys2Proof

/-- One byte. -/
abbrev Byte := BitVec 8
/-- A 16-bit code or field. -/
abbrev W16 := BitVec 16
/-- A 32-bit word. -/
abbrev W32 := BitVec 32
/-- A register or general register: 64 bits, little-endian (R10). -/
abbrev W64 := BitVec 64
/-- An A40 accumulator value (R95). -/
abbrev A40 := BitVec 40

/-- A sparse table: keys strictly rising, no entry equal to what an unlisted key reads as. -/
abbrev Tbl (α : Type) := List (Nat × α)

/-- Sparse byte memory (an unlisted byte reads zero): the same form over bytes. -/
abbrev Mem := Tbl Byte

end Sys2Proof
end

