-- ==== Sys2Proof/Types.lean ====
section
/-! DEFINITION. The operand types of the commands: formats, functions and message contents, as the chapters lay them out. -/

namespace Sys2Proof

/-- Element formats by their R79 code. -/
inductive Fmt where
  | e2m1 | e4m3 | e5m2 | int8 | fp16 | bf16 | bs4 | bs8 | fp32
  deriving DecidableEq, Repr

/-- A number that a slot instruction names: a constant plus a general register times a scale, modulo 2^64, as the program of R175 writes its
operands; GR0 makes it the constant alone. The manual gives no encoding of it (log 93). -/
structure Opnd where
  base : Nat
  reg : Fin 32
  scale : Nat
  deriving DecidableEq, Repr

/-- Where an array reads an operand tensor: core store at an offset of the tenant, or a fetch queue (R169, R172). -/
inductive Src where
  | store (off : Opnd)
  | queue (q : Fin 16)
  deriving DecidableEq, Repr

/-- Where a write-back goes: the core-store offset that a general register holds, or a put queue (R169). -/
inductive WbDst where
  | store (r : Fin 32)
  | queue (q : Fin 16)
  deriving DecidableEq, Repr

/-- The units of a core in slot order (R165, R168). -/
inductive UnitId where
  | a0 | a1 | m | v | x | c
  deriving DecidableEq, Repr

/-- A register that a slot writes (R168). -/
inductive RegRef where
  | gr (n : Nat)
  | vr (n : Nat)
  | st (n : Nat)
  deriving DecidableEq, Repr

/-- Vector arithmetic formats (R151). -/
inductive VFmt where
  | fp32 | fp16 | bf16
  deriving DecidableEq, Repr

/-- The formats of an element-wise operation: destination and operands, which may differ in width (R152). -/
structure VFmts where
  d : VFmt
  a : VFmt
  b : VFmt
  e : VFmt
  deriving DecidableEq, Repr

/-- Compare operations of VCMP (R171). -/
inductive CmpOp where
  | lt | le | eq | ne | gt | ge
  deriving DecidableEq, Repr

/-- Special functions of R155, and the division of R156. -/
inductive SFn where
  | recip | rsqrt | sqrt | exp | log | tanh | sigmoid | gelu | silu | div
  deriving DecidableEq, Repr

/-- Lane reductions of R153. -/
inductive RedOp where
  | add | min | max
  deriving DecidableEq, Repr

/-- The store modes of VST: a converting store, or slope codes of GELU or SiLU (R127, R151). -/
inductive VstMode where
  | plain
  | slopeGelu
  | slopeSilu
  deriving DecidableEq, Repr

/-- The load modes of VLD: a widening load of a format, or the values of stored slope codes (R126, R127, R151). -/
inductive VldMode where
  | plain (fmt : Fmt)
  | slope
  deriving DecidableEq, Repr

/-- The two operands of a light-path move (R169, R225). -/
inductive LPlace where
  | store (off : Opnd)
  | gr (n : Fin 32)
  | vr (n : Fin 16) (byte : Fin 1024)
  deriving DecidableEq, Repr

/-- Second operand of an integer instruction (R169). -/
inductive AluSrc where
  | reg (n : Fin 32)
  | imm (v : W64)
  deriving DecidableEq, Repr

/-- A stack, shared-region, stream or remote-queue end of FETCH and PUT (R172). -/
inductive XEnd where
  | mem (addr : Opnd)
  | stash (window : Fin 2) (off : Opnd)
  | stream (idx : Nat)
  | remote (vcore : Fin 256) (q : Fin 16)
  deriving DecidableEq, Repr

/-- Atomic operations of the shared region (R205). -/
inductive AtomOp where
  | add | min | max | cas
  deriving DecidableEq, Repr

/-- Element types of the atomics (R205). -/
inductive AtomTy where
  | fp32 | bf16 | int32 | uint32 | word32 | word64
  deriving DecidableEq, Repr

/-- An instruction of a slot with its operands (R169): what a unit's queue holds from issue to execution (R166). -/
inductive SlotOp where
  | lds (src : Src) (depth : Nat) (fmt : Fmt) (mask base : Opnd) (groups : Nat) (cont : Bool)
  | col (group : Fin 8) (src : Src) (slices first : Nat) (fmt : Fmt) (opn cls : Bool)
  | swap
  | pre (group : Fin 8) (src : Src) (n : Nat) (fmt : Fmt)
  | wb (group : Fin 8) (dst : WbDst) (fmt : Fmt) (st : Fin 16)
  | spl (code : Nat)
  | bow (desc : Opnd) (st : Fin 16)
  | mv (desc : Opnd) (st : Fin 16)
  | vadd (fmt : VFmts) (d a b : Fin 16)
  | vmul (fmt : VFmts) (d a b : Fin 16)
  | vfma (fmt : VFmts) (d a b e : Fin 16)
  | vmin (fmt : VFmts) (d a b : Fin 16)
  | vmax (fmt : VFmts) (d a b : Fin 16)
  | vcmp (fmt : VFmts) (op : CmpOp) (d a b : Fin 16)
  | vsel (fmt : VFmts) (d a b m : Fin 16)
  | vsfn (f : SFn) (d a b : Fin 16)
  | vred (fmt : VFmt) (op : RedOp) (d a : Fin 16) (count : Nat)
  | vld (d : Fin 16) (addr scaleAddr : Opnd) (mode : VldMode) (toFmt : VFmt)
  | vst (a : Fin 16) (addr scaleAddr : Opnd) (fmt : Fmt) (srcFmt : VFmt) (mode : VstMode)
  | vstat (st : Fin 16)
  | fetch (q : Fin 16) (src : XEnd) (len : Opnd)
  | put (q : Fin 16) (srcOff : Opnd) (dst : XEnd) (len : Opnd)
  | pop (q : Fin 16) (k : Nat)
  | lmove (dst src : LPlace) (len : Nat)
  | atom (op : AtomOp) (ty : AtomTy) (addr srcOff : Opnd) (len : Nat) (fq : Option (Fin 16))
  | wait (q : Fin 16) (k : Nat)
  | waitp (q : Fin 16) (k : Nat)
  | qcfg (isPut : Bool) (q : Fin 16) (base size mode : Nat)
  | add (d a : Fin 32) (b : AluSrc)
  | sub (d a : Fin 32) (b : AluSrc)
  | and (d a : Fin 32) (b : AluSrc)
  | or (d a : Fin 32) (b : AluSrc)
  | xor (d a : Fin 32) (b : AluSrc)
  | shl (d a : Fin 32) (b : AluSrc)
  | shr (d a : Fin 32) (b : AluSrc)
  | movi (d : Fin 32) (v : W64)
  | br (target : Nat)
  | brc (r : Fin 32) (target : Nat)
  | loop (lc : Fin 4) (init : Option Nat) (target : Nat)
  | strd (d : Fin 32) (st : Fin 16)
  | timerd (d : Fin 32)
  | nop
  deriving DecidableEq, Repr

/-- One valid slot of a bundle with the instruction that its bits say; `none` when its opcode is not defined, a reserved bit is not zero or an
operand is not accepted (R165, R170). The manual gives no encoding but that of WB, so the command brings the rest decoded (log 94). -/
structure Slot where
  unit : UnitId
  op : Option SlotOp
  deriving DecidableEq, Repr

end Sys2Proof

namespace Sys2Proof

/-- A mesh packet (R220): header fields and payload. -/
structure Packet where
  poison : Bool
  addr : Nat
  tag : Nat
  part : Nat
  len : Nat
  typ : Nat
  srcEp : Nat
  srcRouter : Nat
  dstEp : Nat
  dstRouter : Nat
  data : List Byte
  deriving DecidableEq, Repr

/-- What an ATOM packet says beside its header (R205): operation and element type. -/
structure AtomSpec where
  op : AtomOp
  ty : AtomTy
  deriving DecidableEq, Repr

/-- An error that has come to stand in the stack when a command reads it (R196), as the environment reports it: in sector `sector` of the stack,
one bit of a bond lane (R211), or more than the check bits correct. -/
inductive Ecc where
  | ok
  | corrected (sector : Nat) (lane : Fin 4672)
  | uncorrectable (sector : Nat)
  deriving DecidableEq, Repr

end Sys2Proof

namespace Sys2Proof

/-- A link unit as it stands on the wire (R247): 80-bit header, payload, CRC-32C. -/
structure UnitWire where
  header : BitVec 80
  data : List Byte
  crc : BitVec 32
  deriving DecidableEq, Repr

/-- What the header of a DATA or MCAST unit says (R247), and its payload before encryption. -/
structure LinkUnit where
  vc : Nat
  mcast : Bool
  last : Bool
  lseq : Nat
  dst : Nat
  dstStream : Nat
  eseq : Nat
  data : List Byte
  deriving DecidableEq, Repr

/-- What an IDENT message carries (R249). -/
structure IdentMsg where
  addr : Nat
  role : Nat
  shape : Nat
  extents : Nat
  crypt : Bool
  grade : Nat
  deriving DecidableEq, Repr

/-- A CONTROL unit (R248): acknowledged LSEQ and returned credits by VC, and the NAK (VC, expected LSEQ). -/
structure CtrlUnit where
  ack : List Nat
  credit : List Nat
  nak : Option (Nat × Nat)
  deriving DecidableEq, Repr

/-- An admission message of R260: reservation, source and destination module, stream, slots, hop count so far, reason,
and whether a link of the path so far is encrypted (R261; the manual lays the message out nowhere, log 124). -/
structure AdmMsg where
  res : Nat
  src : Nat
  dst : Nat
  srcStream : Nat
  dstStream : Nat
  slots : Nat
  hops : Nat
  reason : Nat
  crypt : Bool
  deriving DecidableEq, Repr

/-- A READY message (R290). -/
structure ReadyMsg where
  step : Nat
  count : Nat
  fp : Nat
  failed : Bool
  mismatch : Bool
  poison : Bool
  sat : Bool
  failCode : Nat
  failOrigin : Nat
  poisonBlocks : Nat
  satBlocks : Nat
  poisonOrigin : Nat
  poisonBlock : Nat
  deriving DecidableEq, Repr

/-- The answer to a DECISION_QUERY (R296). -/
inductive Decision where
  | sealed | aborted | undecided
  deriving DecidableEq, Repr

/-- A trailer of R277. -/
structure Trailer where
  poison : Bool
  sat : Bool
  peaks : List Nat
  origin : Nat
  nextEntry : Nat
  mag : Nat
  deriving DecidableEq, Repr

/-- One record of a reduction unit (R277): 64 lane values and the trailer; in G1 a lane is +1 or -1. -/
structure GRec where
  lanes : List Int
  trailer : Trailer
  deriving DecidableEq, Repr

/-- A reduction unit on VCg as its header and payload say (R277): phase, group dimension, step bits, first block, records. -/
structure GUnit where
  phase : Nat
  dim : Nat
  step : Nat
  block : Nat
  recs : List GRec
  deriving DecidableEq, Repr

/-- The messages of the step seal and of rejoining (R290, R292, R296, R297). -/
inductive SealMsg where
  | ready (m : ReadyMsg)
  | decideSeal (step : Nat)
  | sealAck (step : Nat)
  | abort (step reason : Nat)
  | decAck (step : Nat)
  | query (step : Option Nat)
  | answer (step : Nat) (d : Decision) (epoch now : Nat)
  | copyReq (prog epoch : Nat)
  deriving DecidableEq, Repr

/-- What the parent adds to a TIME message: its stamps at the arrival and at the answer, and the propagation that it measured (R334). -/
structure TimeBack where
  t2 : Nat
  t3 : Nat
  prop : Nat
  deriving DecidableEq, Repr

/-- How a seal message comes in: the port, the module that it is for and the partition (R289, R290). -/
structure SealHop where
  port : Fin 12
  dst : Nat
  part : Fin 16
  deriving DecidableEq, Repr

/-- What a SEAL_ACK says (R292): who answers, and for which step. -/
structure StepFrom where
  src : Nat
  step : Nat
  deriving DecidableEq, Repr

/-- What an ABORT says (R292): the step, and why. -/
structure AbortMsg where
  step : Nat
  reason : Nat
  deriving DecidableEq, Repr

/-- What a DECISION_ANSWER says of the step that it names (R296, log 128): the decision, the epoch, and the step that the answerer is at. -/
structure DecisionMsg where
  decision : Decision
  epoch : Nat
  now : Nat
  deriving DecidableEq, Repr

/-- How an end-to-end acknowledgement comes in (R257, R258): the port, the VC of the pair, the multicast entry and the module that it is for. -/
structure AckVia where
  port : Fin 12
  up : Bool
  group : Option (Fin 128)
  dst : Nat
  deriving DecidableEq, Repr

/-- Messages between modules: link units, and the messages whose bytes the manual does not lay out. A seal message names its destination,
its source and the partition. -/
inductive Msg where
  | unit (u : LinkUnit)
  | ident (i : IdentMsg)
  | wiring (code : Nat)
  | linkDown (addr dim : Nat) (plus : Bool)
  | linkUp (addr dim : Nat) (plus : Bool)
  | e2eAck (dst stream seq : Nat) (free : Nat)
  | mcastAck (group seq : Nat)
  | reserve (m : AdmMsg)
  | grant (m : AdmMsg)
  | refuse (m : AdmMsg)
  | release (m : AdmMsg)
  | rekey (epoch : Nat)
  | time (t1 : Nat) (back : Option TimeBack)
  | gcredit (slot dim : Nat) (plus : Bool) (n : Nat)
  | sealing (dst src part : Nat) (m : SealMsg)
  deriving DecidableEq, Repr

end Sys2Proof
end

