-- ==== Sys2Proof/Syntax.lean ====
section
/-! DEFINITION. The commands: one constructor per row of spec/opcode_table.json, with the operands that its rules name. -/

namespace Sys2Proof

/-- The commands that the block takes. -/
inductive Instr where
  /-- TUNING_LOAD (R54). -/
  | tuningLoad (fn : Fin 18) (image : List Byte)
  /-- TUNING_CHECK_ONLY (R59). -/
  | tuningCheckOnly (fn : Fin 18) (image : List Byte)
  /-- TUNING_ZEROISE_DONE (R56). -/
  | tuningZeroiseDone
  /-- FEATURE_ENABLE (R50). -/
  | featureEnable (feature res part : Nat)
  /-- FEATURE_DISABLE (R50). -/
  | featureDisable (feature res : Nat)
  /-- LDS (R64). -/
  | lds (c : Fin 256) (a : Fin 2) (src : Src) (depth : Nat) (fmt : Fmt) (mask base : Opnd) (groups : Nat) (cont : Bool := false)
  /-- SHADOW_LOAD_DONE (R64). -/
  | shadowLoadDone (c : Fin 256) (a : Fin 2)
  /-- SWAP (R65). -/
  | swap (c : Fin 256) (a : Fin 2)
  /-- COL (R61). -/
  | col (c : Fin 256) (a : Fin 2) (group : Fin 8) (src : Src) (slices first : Nat) (fmt : Fmt) (opn cls : Bool)
  /-- PRE (R68). -/
  | pre (c : Fin 256) (a : Fin 2) (group : Fin 8) (src : Src) (n : Nat) (fmt : Fmt)
  /-- PRELOAD_DONE (R67). -/
  | preloadDone (c : Fin 256) (a : Fin 2)
  /-- WB (R69). -/
  | wb (c : Fin 256) (a : Fin 2) (group : Fin 8) (dst : WbDst) (fmt : Fmt) (st : Fin 16) (grad : Option Nat)
  /-- WRITEBACK_DONE (R69). -/
  | writebackDone (c : Fin 256) (a : Fin 2)
  /-- SPL (R67). -/
  | spl (c : Fin 256) (a : Fin 2) (code : Nat)
  /-- BOW (R78). -/
  | bow (c : Fin 256) (a : Fin 2) (desc : Opnd) (st : Fin 16)
  /-- NUT_ISSUE (R83). -/
  | nutIssue (n : Fin 128)
  /-- WRAP_BOW_START (R84). -/
  | wrapBowStart (n : Fin 128)
  /-- GROUP_DONE (R67). -/
  | groupDone (arr : Fin 512) (g : Fin 8)
  /-- SUM_BOW_DONE (R88). -/
  | sumBowDone (n : Fin 128) (grad : Option Nat)
  /-- ARRAY_FAULT (R91). -/
  | arrayFault (arr : Fin 512)
  /-- STRING_FAULT_CLEAR (R91). -/
  | stringFaultClear (fn : Fin 18) (n : Fin 128) (v : W64) (ev : W64 := 0)
  /-- READ_CLEAR (R13). -/
  | readClear (fn : Fin 18) (off : Nat) (width : Nat) (ev : W64)
  /-- SLOT_COMPLETE (R147). -/
  | slotComplete (p : Fin 16)
  /-- STASH_DEADLOCK (R141). -/
  | stashDeadlock (p : Fin 16)
  /-- STEP_WATCHDOG_EXPIRED (R149). -/
  | stepWatchdogExpired (p : Fin 16)
  /-- READY_REPORT (R148). -/
  | readyReport (p : Fin 16)
  /-- VADD (R152). -/
  | vadd (c : Fin 256) (fmt : VFmts) (d a b : Fin 16)
  /-- VMUL (R152). -/
  | vmul (c : Fin 256) (fmt : VFmts) (d a b : Fin 16)
  /-- VFMA (R152). -/
  | vfma (c : Fin 256) (fmt : VFmts) (d a b e : Fin 16)
  /-- VMIN (R152). -/
  | vmin (c : Fin 256) (fmt : VFmts) (d a b : Fin 16)
  /-- VMAX (R152). -/
  | vmax (c : Fin 256) (fmt : VFmts) (d a b : Fin 16)
  /-- VCMP (R171). -/
  | vcmp (c : Fin 256) (fmt : VFmts) (op : CmpOp) (d a b : Fin 16)
  /-- VSEL (R152). -/
  | vsel (c : Fin 256) (fmt : VFmts) (d a b m : Fin 16)
  /-- VSFN (R155). -/
  | vsfn (c : Fin 256) (f : SFn) (d a b : Fin 16)
  /-- VRED (R153). -/
  | vred (c : Fin 256) (fmt : VFmt) (op : RedOp) (d a : Fin 16) (count : Nat)
  /-- VLD (R151). -/
  | vld (c : Fin 256) (d : Fin 16) (addr scaleAddr : Opnd) (mode : VldMode) (toFmt : VFmt)
  /-- VST (R151). -/
  | vst (c : Fin 256) (a : Fin 16) (addr scaleAddr : Opnd) (fmt : Fmt) (srcFmt : VFmt) (mode : VstMode) (grad : Option Nat)
  /-- VSTAT (R157). -/
  | vstat (c : Fin 256) (st : Fin 16)
  /-- MV (R158). -/
  | mv (c : Fin 256) (desc : Opnd) (st : Fin 16) (grad : Option Nat := none)
  /-- MATVEC_DONE (R161). -/
  | matvecDone (c : Fin 256)
  /-- BUNDLE_ISSUE (R166). -/
  | bundleIssue (c : Fin 256) (slots : List Slot)
  /-- SLOT_END (R175). -/
  | slotEnd (c : Fin 256)
  /-- FETCH (R172). -/
  | fetch (c : Fin 256) (q : Fin 16) (src : XEnd) (len : Opnd)
  /-- FETCH_ARRIVED (R172). -/
  | fetchArrived (c : Fin 256) (q : Fin 16)
  /-- PUT (R172). -/
  | put (c : Fin 256) (q : Fin 16) (srcOff : Opnd) (dst : XEnd) (len : Opnd)
  /-- PUT_COMPLETE (R172). -/
  | putComplete (c : Fin 256) (q : Fin 16) (i : Nat) (hostData : List Byte)
  /-- POP (R172). -/
  | pop (c : Fin 256) (q : Fin 16) (k : Nat)
  /-- LMOVE (R225). -/
  | lmove (c : Fin 256) (dst src : LPlace) (len : Nat)
  /-- WAIT (R172). -/
  | wait (c : Fin 256) (q : Fin 16) (k : Nat)
  /-- WAITP (R172). -/
  | waitp (c : Fin 256) (q : Fin 16) (k : Nat)
  /-- QCFG (R172). -/
  | qcfg (c : Fin 256) (isPut : Bool) (q : Fin 16) (base size mode : Nat)
  /-- ADD (R169). -/
  | add (c : Fin 256) (d a : Fin 32) (b : AluSrc)
  /-- SUB (R169). -/
  | sub (c : Fin 256) (d a : Fin 32) (b : AluSrc)
  /-- AND (R169). -/
  | and (c : Fin 256) (d a : Fin 32) (b : AluSrc)
  /-- OR (R169). -/
  | or (c : Fin 256) (d a : Fin 32) (b : AluSrc)
  /-- XOR (R169). -/
  | xor (c : Fin 256) (d a : Fin 32) (b : AluSrc)
  /-- SHL (R169). -/
  | shl (c : Fin 256) (d a : Fin 32) (b : AluSrc)
  /-- SHR (R169). -/
  | shr (c : Fin 256) (d a : Fin 32) (b : AluSrc)
  /-- MOVI (R169). -/
  | movi (c : Fin 256) (d : Fin 32) (v : W64)
  /-- BR (R166). -/
  | br (c : Fin 256) (target : Nat)
  /-- BRC (R166). -/
  | brc (c : Fin 256) (r : Fin 32) (target : Nat)
  /-- LOOP (R166). -/
  | loop (c : Fin 256) (lc : Fin 4) (init : Option Nat) (target : Nat)
  /-- STRD (R173). -/
  | strd (c : Fin 256) (d : Fin 32) (st : Fin 16)
  /-- TIMERD (R332). -/
  | timerd (c : Fin 256) (d : Fin 32)
  /-- NOP (R169). -/
  | nop (c : Fin 256)
  /-- ATOM (R205). -/
  | atom (c : Fin 256) (op : AtomOp) (ty : AtomTy) (addr srcOff : Opnd) (len : Nat) (fq : Option (Fin 16))
  /-- FOLD_SWAP (R184). -/
  | foldSwap (p : Fin 16) (unit : Nat)
  /-- FOLD_SWAP_DONE (R183). -/
  | foldSwapDone (p : Fin 16) (unit : Nat)
  /-- PROGRAM_LOAD (R188). -/
  | programLoad (fn : Fin 18) (c : Fin 256) (v : W64)
  /-- PROGRAM_UNLOAD (R188). -/
  | programUnload (fn : Fin 18) (c : Fin 256) (v : W64)
  /-- PROGRAM_UNLOAD_APPLY (R188). -/
  | programUnloadApply (p : Fin 16) (k : Fin 8)
  /-- TIME_SLICE_SWAP (R33). -/
  | timeSliceSwap (p : Fin 16)
  /-- MESH_READ (R194). -/
  | meshRead (pk : Packet) (ecc : Ecc)
  /-- MESH_WRITE (R195). -/
  | meshWrite (pk : Packet) (ecc : Ecc)
  /-- MESH_ATOM (R205). -/
  | meshAtom (pk : Packet) (spec : AtomSpec) (ecc : Ecc)
  /-- MESH_REG_READ (R221). -/
  | meshRegRead (pk : Packet) (ev : W64 := 0)
  /-- MESH_REG_WRITE (R221). -/
  | meshRegWrite (pk : Packet) (ev : W64 := 0)
  /-- MESH_QUEUE_DATA (R172). -/
  | meshQueueData (pk : Packet)
  /-- MESH_INTERRUPT (R221). -/
  | meshInterrupt (pk : Packet)
  /-- MESH_READ_DATA (R222). -/
  | meshReadData (pk : Packet)
  /-- MESH_WRITE_ACK (R222). -/
  | meshWriteAck (pk : Packet)
  /-- MESH_ATOM_DATA (R205). -/
  | meshAtomData (pk : Packet)
  /-- MESH_REG_DATA (R221). -/
  | meshRegData (pk : Packet)
  /-- MESH_REG_ACK (R221). -/
  | meshRegAck (pk : Packet)
  /-- MESH_BAD_PACKET (R221). -/
  | meshBadPacket (pk : Packet)
  /-- SC_FLUSH (R207). -/
  | scFlush (fn : Fin 18) (v : W64)
  /-- SC_FLUSH_DONE (R207). -/
  | scFlushDone
  /-- LANE_TRAINING (R212). -/
  | laneTraining (col : Fin 64)
  /-- LANE_TRAINING_DONE (R212). -/
  | laneTrainingDone (col : Fin 64) (failed : List (Fin 4672))
  /-- COLUMN_FAILED (R214). -/
  | columnFailed (col : Fin 64)
  /-- DOORBELL (R238). -/
  | doorbell (fn : Fin 18) (page slot : Nat) (v : W64) (width : Nat)
  /-- CREATE (R239). -/
  | create (fn : Fin 18) (idx : Nat) (image : List Byte)
  /-- DESTROY (R239). -/
  | destroy (fn : Fin 18) (idx : Nat)
  /-- REARM (R240). -/
  | rearm (fn : Fin 18) (idx : Nat)
  /-- QUERY (R239). -/
  | query (fn : Fin 18) (idx : Nat)
  /-- EVICT (R241). -/
  | evict (fn : Fin 18) (idx : Nat)
  /-- PART_TABLE_WRITE (R228). -/
  | partTableWrite (fn : Fin 18) (off : Nat) (v : W64)
  /-- DESCRIPTOR_PREFETCH (R234). -/
  | descriptorPrefetch (idx : Nat) (hostData : List Byte)
  /-- DESCRIPTOR_ACCEPT (R234). -/
  | descriptorAccept (idx : Nat) (hostData : List Byte) (mapped : Bool := true)
  /-- DESCRIPTOR_FINISH (R234). -/
  | descriptorFinish (idx i status bytes : Nat) (hostData : List Byte) (ecc : Ecc := .ok)
  /-- MSIX_MERGE_EXPIRY (R237). -/
  | msixMergeExpiry (vec : Nat)
  /-- CONTEXT_LOAD (R241). -/
  | contextLoad (idx : Nat) (hostEntry : List Byte)
  /-- CONTEXT_WRITEBACK_DONE (R241). -/
  | contextWritebackDone (idx : Nat)
  /-- LINK_SIGNAL_DETECT (R249). -/
  | linkSignalDetect (port : Fin 12)
  /-- IDENT (R249). -/
  | ident (port : Fin 12) (m : IdentMsg)
  /-- WIRING_NOTICE (R249). -/
  | wiringNotice (port : Fin 12) (code : Nat)
  /-- PORT_UP (R249). -/
  | portUp (port : Fin 12) (lanes propNs : Nat)
  /-- TRAINING_ATTEMPT_FAIL (R249). -/
  | trainingAttemptFail (port : Fin 12)
  /-- PARTNER_LOST (R249). -/
  | partnerLost (port : Fin 12)
  /-- RETRAIN (R249). -/
  | retrain (fn : Fin 18) (port : Fin 12)
  /-- PORT_DISABLE (R267). -/
  | portDisable (fn : Fin 18) (port : Fin 12) (v : W64)
  /-- FAB_MOD_ADDR_WRITE (R250). -/
  | fabModAddrWrite (fn : Fin 18) (v : W64)
  /-- DATA_UNIT (R247). -/
  | dataUnit (port : Fin 12) (w : UnitWire) (fec : Nat × Nat)
  /-- CONTROL_UNIT (R248). -/
  | controlUnit (port : Fin 12) (w : UnitWire) (fec : Nat × Nat)
  /-- IDLE_UNIT (R248). -/
  | idleUnit (port : Fin 12) (fec : Nat × Nat)
  /-- MCAST_UNIT (R258). -/
  | mcastUnit (port : Fin 12) (w : UnitWire) (fec : Nat × Nat)
  /-- CONTROL_UNIT_SEND (R248). -/
  | controlUnitSend (port : Fin 12)
  /-- LINK_DOWN (R255). -/
  | linkDown (port : Fin 12) (addr dim : Nat) (plus : Bool)
  /-- LINK_UP (R255). -/
  | linkUp (port : Fin 12) (addr dim : Nat) (plus : Bool)
  /-- E2E_ACK (R257). -/
  | e2eAck (via : AckVia) (stream seq free : Nat)
  /-- E2E_ACK_SEND (R257). -/
  | e2eAckSend (stream : Nat)
  /-- FAB_E2E_RETRANSMIT (R257). -/
  | fabE2eRetransmit (stream : Nat)
  /-- TIMEOUT_HOLD_END (R315). -/
  | timeoutHoldEnd (kind idx : Nat)
  /-- RESERVE (R260). -/
  | reserve (port : Option (Fin 12)) (m : AdmMsg)
  /-- GRANT (R260). -/
  | grant (port : Option (Fin 12)) (m : AdmMsg)
  /-- REFUSE (R260). -/
  | refuse (port : Option (Fin 12)) (m : AdmMsg)
  /-- RELEASE (R260). -/
  | release (port : Option (Fin 12)) (m : AdmMsg)
  /-- ADMISSION_HOLD_TIMEOUT (R260). -/
  | admissionHoldTimeout (port : Fin 12)
  /-- LINK_REKEY (R265). -/
  | linkRekey (port : Fin 12)
  /-- TIME_MESSAGE (R334). -/
  | timeMessage (port : Fin 12) (t1 : Nat) (t2 : Option Nat) (t3 prop : Nat)
  /-- TIME_MESSAGE_SEND (R334). -/
  | timeMessageSend
  /-- FEED_WRITE (R273). -/
  | feedWrite (g : Fin 16)
  /-- ENC_RECORD (R273). -/
  | encRecord (g : Fin 16)
  /-- G1_UNIT (R276). -/
  | g1Unit (port : Fin 12) (w : UnitWire) (fec : Nat × Nat := (0, 0))
  /-- REDUCE_SCATTER_UNIT (R279). -/
  | reduceScatterUnit (port : Fin 12) (w : UnitWire) (fec : Nat × Nat := (0, 0))
  /-- ALL_GATHER_UNIT (R281). -/
  | allGatherUnit (port : Fin 12) (w : UnitWire) (fec : Nat × Nat := (0, 0))
  /-- FINGERPRINT_UNIT (R283). -/
  | fingerprintUnit (port : Fin 12) (header : BitVec 80) (data : List Byte) (crc : BitVec 32) (fec : Nat × Nat)
  /-- REDUCTION_CREDIT (R280). -/
  | reductionCredit (port : Fin 12) (slot : Fin 16) (dim : Fin 4) (plus : Bool) (n : Nat)
  /-- GRX_PART_BLOCKS_WRITE (R271). -/
  | grxPartBlocksWrite (fn : Fin 18) (p : Fin 16) (v : W64)
  /-- READY (R290). -/
  | ready (hop : SealHop) (child : Nat) (m : ReadyMsg)
  /-- SEND_READY (R290). -/
  | sendReady (p : Fin 16)
  /-- SEAL (R292). -/
  | sealStep (hop : SealHop) (src step : Nat)
  /-- SEAL_ACK (R292). -/
  | sealAck (hop : SealHop) (m : StepFrom)
  /-- ABORT (R292). -/
  | abort (hop : SealHop) (src : Nat) (m : AbortMsg)
  /-- DECISION_ACK (R292). -/
  | decisionAck (hop : SealHop) (child step : Nat)
  /-- DECISION_QUERY (R296). -/
  | decisionQuery (hop : SealHop) (src : Nat) (step : Option Nat)
  /-- DECISION_ANSWER (R296). -/
  | decisionAnswer (hop : SealHop) (src step : Nat) (m : DecisionMsg)
  /-- REJOIN_COPY_DONE (R297). -/
  | rejoinCopyDone (p : Fin 16) (data : List Byte)
  /-- STM_RECOVER (R309). -/
  | stmRecover (fn : Fin 18) (v : W64)
  /-- RECOVERY_SCAN (R309). -/
  | recoveryScan (descs : List (Nat × Nat × List Byte) := [])
  /-- JOURNAL_WRITE_DONE (R307). -/
  | journalWriteDone (idx : Nat)
  /-- ZONE_STRETCH (R323). -/
  | zoneStretch (z : Fin 16) (monitor code : Nat)
  /-- SLOW_LOOP (R324). -/
  | slowLoop (z : Fin 16)
  /-- ZONE_SLEW_STEP (R321). -/
  | zoneSlewStep (z : Fin 16)
  /-- ZONE_LOCK_LOST (R325). -/
  | zoneLockLost (z : Fin 16)
  /-- RELOCK (R325). -/
  | relock (fn : Fin 18) (z : Fin 16)
  /-- REF_LOST (R325). -/
  | refLost
  /-- EPOCH_PULSE (R333). -/
  | epochPulse
  /-- CLK_TIME_SEED_WRITE (R333). -/
  | clkTimeSeedWrite (fn : Fin 18) (v : W64)
  /-- CLK_SYNC_LOST (R334). -/
  | clkSyncLost
  /-- FLUSH_COMPLETE (R336). -/
  | flushComplete (b : Nat)
  /-- SUPPLY_HIGH (R339). -/
  | supplyHigh (mv : Nat)
  /-- SUPPLY_THROTTLE (R341). -/
  | supplyThrottle (mv : Nat)
  /-- SUPPLY_NORMAL (R340). -/
  | supplyNormal (mv : Nat)
  /-- SUPPLY_STOP (R343). -/
  | supplyStop (mv : Nat)
  /-- RETENTION_ENTER (R343). -/
  | retentionEnter
  /-- SUPPLY_RIDE_THROUGH (R344). -/
  | supplyRideThrough (mv : Nat)
  /-- HOLDUP_DEPLETED (R344). -/
  | holdupDepleted
  /-- HOLDUP_CHARGED (R342). -/
  | holdupCharged (mv : Nat)
  /-- INRUSH_FAULT (R342). -/
  | inrushFault
  /-- INRUSH_RETRY (R342). -/
  | inrushRetry
  /-- GATE_EVAL (R346). -/
  | gateEval (ramp : List Nat) (progW droneMax : Nat)
  /-- CAP_EVAL (R351). -/
  | capEval
  /-- TELEMETRY_SAMPLE (R352). -/
  | telemetrySample (mv watts board : Nat) (zones : List (Nat × Nat × Nat))
  /-- TELEMETRY_RECORD (R352). -/
  | telemetryRecord
  /-- POWERED_HOUR (R353). -/
  | poweredHour (slow : List Nat)
  /-- REPLAN (R354). -/
  | replan (write : Option (Fin 18))
  /-- BOOT_ROM (R361). -/
  | bootRom
  /-- GET_CERTS (R378). -/
  | getCerts (fn : Fin 18) (hostReq : List Byte)
  /-- ATTEST (R365). -/
  | attest (fn : Fin 18) (hostReq : List Byte)
  /-- LOG_READ (R364). -/
  | logRead (fn : Fin 18) (hostReq : List Byte)
  /-- LOCK (R366). -/
  | lock (fn : Fin 18) (hostReq : List Byte)
  /-- UNLOCK (R368). -/
  | unlock (fn : Fin 18) (hostReq : List Byte)
  /-- KEY_AGREE (R370). -/
  | keyAgree (fn : Fin 18) (hostReq : List Byte)
  /-- KEY_IMPORT (R370). -/
  | keyImport (fn : Fin 18) (hostReq : List Byte)
  /-- KEY_DESTROY (R371). -/
  | keyDestroy (fn : Fin 18) (hostReq : List Byte)
  /-- SVN_COMMIT (R362). -/
  | svnCommit (fn : Fin 18) (hostReq : List Byte)
  /-- FIRMWARE_UPDATE (R362). -/
  | firmwareUpdate (image : List Byte)
  /-- IDE_KM (R377). -/
  | ideKm (stream : Fin 17)
  /-- HOST_IDE_ERROR (R396). -/
  | hostIdeError (stream : Fin 17) (hit : List Nat)
  /-- HOST_LINK_CHANGE (R382). -/
  | hostLinkChange (width rate half : Nat)
  /-- HOST_LINK_DOWN (R382). -/
  | hostLinkDown
  /-- VF_FLR (R383). -/
  | vfFlr (v : Fin 16)
  /-- PF_FLR (R383). -/
  | pfFlr
  /-- HOT_RESET (R383). -/
  | hotReset
  /-- PERST (R383). -/
  | perst
  /-- BAR2_READ (R387). -/
  | bar2Read (fn : Fin 18) (off len : Nat) (ecc : Ecc)
  /-- BAR2_WRITE (R387). -/
  | bar2Write (fn : Fin 18) (off : Nat) (data : List Byte) (ecc : Ecc := .ok)
  /-- MOD_INT_CAUSE_CLEAR (R391). -/
  | modIntCauseClear (fn : Fin 18) (v : W64) (ev : W64 := 0)
  /-- MOD_INT_MASK_WRITE (R391). -/
  | modIntMaskWrite (fn : Fin 18) (v : W64)
  /-- MSIX_UNMASK (R391). -/
  | msixUnmask (vec : Nat)
  /-- FAULT_MERGE_END (R400). -/
  | faultMergeEnd (i : Nat)
  /-- FAULT_RING_DRAIN (R401). -/
  | faultRingDrain (fn : Fin 18) (v : W64)
  /-- CORE_HW_FAULT (R405). -/
  | coreHwFault (c : Fin 256) (array : Option (Fin 2))
  /-- QUARANTINE_ADD (R405). -/
  | quarantineAdd (fn : Fin 18) (v : W64)
  /-- QUARANTINE_REMOVE (R405). -/
  | quarantineRemove (fn : Fin 18) (v : W64)
  /-- REC_EN (R406). -/
  | recEn (fn : Fin 18)
  /-- REC_ARM (R406). -/
  | recArm (fn : Fin 18)
  /-- GPX0_EDGE (R435). -/
  | gpx0Edge
  /-- REC_STOP (R408). -/
  | recStop (fn : Fin 18)
  /-- REPLAY_EN (R409). -/
  | replayEn (fn : Fin 18)
  /-- REPLAY_ENTRY (R409). -/
  | replayEntry (entry bulk : List Byte)
  /-- REPLAY_DIVERGED (R409). -/
  | replayDiverged
  /-- TRACE_EN (R410). -/
  | traceEn (fn : Fin 18) (v : W64)
  /-- DUMP (R410). -/
  | dump (fn : Fin 18)
  /-- POWER_ON (R417). -/
  | powerOn (mv : Nat)
  /-- WARM_RESET (R418). -/
  | warmReset (fn : Fin 18) (v : W64)
  /-- WARM_RESET_RESTART (R419). -/
  | warmResetRestart
  /-- COLD_RESET (R422). -/
  | coldReset (fn : Fin 18) (v : W64)
  /-- CORE_RESET (R423). -/
  | coreReset (fn : Fin 18) (v : W64)
  /-- PORT_RESET (R424). -/
  | portReset (fn : Fin 18) (v : W64)
  /-- SHUTDOWN (R425). -/
  | shutdown (fn : Fin 18) (v : W64)
  /-- SEAL_PULSE_END (R435). -/
  | sealPulseEnd
  /-- REG_READ (R439). -/
  | regRead (off : Nat) (ev : W64 := 0)
  /-- REG_WRITE (R439). -/
  | regWrite (off : Nat) (v : W64) (ev : W64 := 0)
  /-- BUF_WRITE (R439). -/
  | bufWrite (buf off : Nat) (data : List Byte)
  /-- TUN_LOAD (R439). -/
  | tunLoad (checkOnly : Bool) (len : Nat)
  /-- TUN_REPORT (R439). -/
  | tunReport (i : Nat)
  /-- SEC_GO (R439). -/
  | secGo (len : Nat)
  /-- BUF_READ (R439). -/
  | bufRead (off len : Nat)
  /-- PLDM_DISCOVERY (R437). -/
  | pldmDiscovery (cmd : Nat)
  /-- PLDM_MONITOR (R437). -/
  | pldmMonitor (sensor : Nat)
  /-- PLDM_FRU (R437). -/
  | pldmFru
  /-- EXTEST (R441). -/
  | extest
  /-- REGISTER_WRITE (R12). -/
  | registerWrite (fn : Fin 18) (off width : Nat) (v : W64) (ev : W64 := 0)
  /-- COLUMN_PORT_SLOT (R200). -/
  | columnPortSlot (row col : Fin 8) (write : Bool)
  /-- REF_PRESENT (R325). -/
  | refPresent
  /-- BOOT_REF_TIMEOUT (R417). -/
  | bootRefTimeout
  /-- SYNC_OUT_PULSE (R333). -/
  | syncOutPulse
  /-- SYNC_IN_MISSED (R333). -/
  | syncInMissed
  /-- MAILBOX_DONE (R378). -/
  | mailboxDone (fn : Fin 18)
  /-- PROGRAM_LOAD_DONE (R188). -/
  | programLoadDone (p : Fin 16)
  /-- TIME_SLICE_SWAP_DONE (R33). -/
  | timeSliceSwapDone (p : Fin 16)
  /-- FUNCTION_POWER_STATE (R381). -/
  | functionPowerState (fn : Fin 18) (d3 : Bool)
  /-- BUS_MASTER_ENABLE (R383). -/
  | busMasterEnable (v : Fin 16)
  deriving DecidableEq, Repr

end Sys2Proof
end

