-- ==== Sys2Proof/Decode.lean ====
section
/-! DEFINITION. The command that a word spells. The table of the manual's commands gives no row any bits, so no word spells one. -/

namespace Sys2Proof

/-- No row of spec/opcode_table.json carries bits. -/
def decodeTableWord (_nbits _w : Nat) : Option Instr := none

end Sys2Proof
end

