-- ==== Sys2Proof/Machine/Table.lean ====
section
/-! DEFINITION. Reading and writing the sparse tables and byte memories of State, in one canonical form. -/

namespace Sys2Proof.Machine

/-- The entry of key `k`, or what an unlisted key reads as. -/
def tget {α : Type} (d : Nat → α) : Tbl α → Nat → α
  | [], k => d k
  | (j, v) :: t, k => if j = k then v else tget d t k

/-- Insert or replace `k` without looking at the default. -/
def tput {α : Type} : Tbl α → Nat → α → Tbl α
  | [], k, v => [(k, v)]
  | (j, w) :: t, k, v =>
    if k < j then (k, v) :: (j, w) :: t
    else if k = j then (k, v) :: t
    else (j, w) :: tput t k v

/-- Remove `k`. -/
def tdel {α : Type} (t : Tbl α) (k : Nat) : Tbl α := t.filter (fun p => p.1 != k)

/-- Write `k`: the default value removes the entry, so that equal tables are equal lists. -/
def tset {α : Type} [DecidableEq α] (d : Nat → α) (t : Tbl α) (k : Nat) (v : α) : Tbl α :=
  if v = d k then tdel t k else tput t k v

/-- Change the entry of `k`. -/
def tmod {α : Type} [DecidableEq α] (d : Nat → α) (t : Tbl α) (k : Nat) (f : α → α) : Tbl α :=
  tset d t k (f (tget d t k))

/-- Change every listed entry; those that become the default are no longer listed. -/
def tmap {α : Type} [DecidableEq α] (d : Nat → α) (t : Tbl α) (f : Nat → α → α) : Tbl α :=
  (t.map (fun e => (e.1, f e.1 e.2))).filter (fun e => decide (e.2 ≠ d e.1))

/-- Forget every entry whose key satisfies `p` (they read as the default again). -/
def tclear {α : Type} (t : Tbl α) (p : Nat → Bool) : Tbl α := t.filter (fun e => !p e.1)

/-- Keys strictly rising from a bound. -/
def tsorted {α : Type} : Tbl α → Bool
  | [] => true
  | [_] => true
  | (a, _) :: (b, v) :: t => decide (a < b) && tsorted ((b, v) :: t)

/-- The canonical form: keys strictly rising and no entry equal to the default of its key. -/
def Tbl.wf {α : Type} [DecidableEq α] (d : Nat → α) (t : Tbl α) : Bool :=
  tsorted t && t.all (fun e => decide (e.2 ≠ d e.1))

/-- An unlisted byte reads zero. -/
def zeroByte : Nat → Byte := fun _ => 0

/-- The canonical form of a byte memory. -/
def Memory.wf (m : Mem) : Bool := Tbl.wf zeroByte m

/-- One byte. -/
def memGet (m : Mem) (a : Nat) : Byte := tget zeroByte m a

/-- Write one byte. -/
def memSet (m : Mem) (a : Nat) (b : Byte) : Mem := tset zeroByte m a b

/-- `n` bytes from `a` upward. -/
def memRead (m : Mem) (a : Nat) : Nat → List Byte
  | 0 => []
  | n + 1 => memGet m a :: memRead m (a + 1) n

/-- Bytes written from `a` upward. -/
def memWrite (m : Mem) (a : Nat) : List Byte → Mem
  | [] => m
  | b :: bs => memWrite (memSet m a b) (a + 1) bs

/-- `n` bytes from `a` become zero. -/
def memZero (m : Mem) (a n : Nat) : Mem := tclear m (fun k => a ≤ k && k < a + n)

/-- The little-endian number of a byte list (R9). -/
def leNat : List Byte → Nat
  | [] => 0
  | b :: bs => b.toNat + 256 * leNat bs

/-- The low `n` bytes of a number, little-endian (R9). -/
def natLe (v : Nat) : Nat → List Byte
  | 0 => []
  | n + 1 => BitVec.ofNat 8 v :: natLe (v / 256) n

/-- The little-endian number in `n` bytes at offset `o` of a list; missing bytes count as zero. -/
def leAt (bs : List Byte) (o n : Nat) : Nat := leNat ((bs.drop o).take n)

/-- Pad with zeros to a multiple of `k` bytes. -/
def padTo (k : Nat) (bs : List Byte) : List Byte :=
  bs ++ List.replicate ((k - bs.length % k) % k) 0

/-- Pad or cut to exactly `n` bytes. -/
def fitTo (n : Nat) (bs : List Byte) : List Byte := (bs ++ List.replicate (n - bs.length) 0).take n

/-- Field `[hi:lo]` of a number. -/
def bits (v hi lo : Nat) : Nat := (v >>> lo) % 2 ^ (hi + 1 - lo)

/-- Field `[hi:lo]` of a register word (R9). -/
def fld (w : W64) (hi lo : Nat) : Nat := bits w.toNat hi lo

/-- The mask of field `[hi:lo]`. -/
def fmask (hi lo : Nat) : W64 := BitVec.ofNat 64 ((2 ^ (hi + 1 - lo) - 1) <<< lo)

/-- A register word with field `[hi:lo]` replaced. -/
def setFld (w : W64) (hi lo v : Nat) : W64 :=
  (w &&& ~~~(fmask hi lo)) ||| (BitVec.ofNat 64 (v <<< lo) &&& fmask hi lo)

/-- A field placed at its bits. -/
def at_ (v lo : Nat) : W64 := BitVec.ofNat 64 (v <<< lo)

/-- 1 for true. -/
def b2n (b : Bool) : Nat := if b then 1 else 0

/-- Bit `i` of a number. -/
def nbit (v i : Nat) : Bool := v.testBit i

/-- Replace element `i` of a list. -/
def lset {α : Type} (l : List α) (i : Nat) (v : α) : List α := l.set i v

/-- Saturate a count at `n`. -/
def satAt (n v : Nat) : Nat := if v < n then v else n

/-- `a - b`, written so that evaluation stops at an unknown `a` whatever the number `b`. -/
def lessBy (a b : Nat) : Nat := (Int.subNatNat a b).toNat

/-- The number of an instance at `off` of what repeats every `stride` from `base`. -/
def instNo (off base stride : Nat) : Nat := lessBy off base / stride

/-- Append to a list that keeps its latest `n` elements. -/
def keepLast {α : Type} (n : Nat) (l : List α) (a : α) : List α := if l.length < n then l ++ [a] else l.drop 1 ++ [a]

/-- Divide, rounding up. -/
def cdiv (a b : Nat) : Nat := (a + b - 1) / b

end Sys2Proof.Machine
end

