-- ==== Sys2Proof/Machine/Arith.lean ====
section
/-! DEFINITION. Arithmetic of chapter 04: exact values, element formats, group sums, the A40 accumulator, conversions. -/

namespace Sys2Proof.Machine

/-- An exact value: NaN, an infinity, or `(-1)^neg * m * 2^e` (R96). -/
inductive Num where
  | nan
  | inf (neg : Bool)
  | fin (neg : Bool) (m : Nat) (e : Int)
  deriving DecidableEq, Repr

/-- Positive zero. -/
def Num.zero : Num := .fin false 0 0

def Num.isNan : Num → Bool | .nan => true | _ => false
def Num.isInf : Num → Bool | .inf _ => true | _ => false
def Num.isZero : Num → Bool | .fin _ 0 _ => true | _ => false
def Num.isFin : Num → Bool | .fin _ _ _ => true | _ => false

/-- The sign bit; NaN counts as positive. -/
def Num.neg? : Num → Bool | .nan => false | .inf n => n | .fin n _ _ => n

/-- The value with its sign turned. -/
def Num.negate : Num → Num | .nan => .nan | .inf n => .inf (!n) | .fin n m e => .fin (!n) m e

/-- A floating layout of R95: exponent bits, fraction bits, bias, which special encodings exist (R96). -/
structure Layout where
  eb : Nat
  fb : Nat
  bias : Nat
  hasInf : Bool
  hasNan : Bool
  maxBits : Nat
  nanBits : Nat
  deriving DecidableEq, Repr

def lE2M1 : Layout := ⟨2, 1, 1, false, false, 0x7, 0⟩
def lE4M3 : Layout := ⟨4, 3, 7, false, true, 0x7E, 0x7F⟩
def lE5M2 : Layout := ⟨5, 2, 15, true, true, 0x7B, 0x7E⟩
def lFP16 : Layout := ⟨5, 10, 15, true, true, 0x7BFF, 0x7E00⟩
def lBF16 : Layout := ⟨8, 7, 127, true, true, 0x7F7F, 0x7FC0⟩
def lFP32 : Layout := ⟨8, 23, 127, true, true, 0x7F7FFFFF, 0x7FC00000⟩
def lA40 : Layout := ⟨8, 31, 127, true, true, 0x7F7FFFFFFF, 0x7FC0000000⟩

/-- The scalar layout of a format; BS4 elements are E2M1 (R99), INT8 has none. -/
def fLayout : Fmt → Option Layout
  | .e2m1 => some lE2M1 | .bs4 => some lE2M1 | .e4m3 => some lE4M3 | .e5m2 => some lE5M2
  | .fp16 => some lFP16 | .bf16 => some lBF16 | .fp32 => some lFP32 | .int8 => none | .bs8 => none

/-- Element width in bits (R95, R99). -/
def fWidth : Fmt → Nat
  | .e2m1 => 4 | .bs4 => 4 | .e4m3 => 8 | .e5m2 => 8 | .int8 => 8 | .bs8 => 8
  | .fp16 => 16 | .bf16 => 16 | .fp32 => 32

/-- Block formats carry scale codes (R99). -/
def fIsBlock : Fmt → Bool | .bs4 => true | .bs8 => true | _ => false

/-- The value of an encoding in a layout (R96). -/
def unpack (l : Layout) (w : Nat) : Num :=
  let s := nbit w (l.eb + l.fb)
  let mag := w % 2 ^ (l.eb + l.fb)
  let e := mag / 2 ^ l.fb
  let f := mag % 2 ^ l.fb
  if l.hasInf && decide (mag > l.maxBits) then (if f = 0 then .inf s else .nan)
  else if l.hasNan && decide (mag > l.maxBits) then .nan
  else if e = 0 then .fin s f (1 - (l.bias : Int) - l.fb)
  else .fin s (2 ^ l.fb + f) ((e : Int) - l.bias - l.fb)

/-- `m / 2^k` rounded to nearest, ties to even. -/
def rneShift (m k : Nat) : Nat :=
  let q := m >>> k
  let r := m % 2 ^ k
  let h := 2 ^ k
  if 2 * r > h then q + 1
  else if 2 * r = h then q + q % 2
  else q

/-- Magnitude bits of `m * 2^e` rounded to nearest even with an unbounded exponent range (R122). -/
def roundMag (l : Layout) (m : Nat) (e : Int) : Nat :=
  if m = 0 then 0 else
  let emin : Int := 1 - (l.bias : Int) - l.fb
  let q0 : Int := (Nat.log2 m : Int) + e - l.fb
  let q := if q0 < emin then emin else q0
  let mant := if q ≤ e then m <<< (e - q).toNat else rneShift m (q - e).toNat
  (q - emin).toNat * 2 ^ l.fb + mant

/-- Flags a conversion raises (R117, R122). -/
structure CFlags where
  nan : Bool := false
  sat : Bool := false
  deriving DecidableEq, Repr

def CFlags.or (a b : CFlags) : CFlags := ⟨a.nan || b.nan, a.sat || b.sat⟩

/-- Sign bit placed above a magnitude. -/
def withSign (l : Layout) (s : Bool) (mag : Nat) : Nat := mag + b2n s * 2 ^ (l.eb + l.fb)

/-- Conversion to a scalar floating layout (R122). -/
def pack (l : Layout) : Num → Nat × CFlags
  | .nan => if l.hasNan then (l.nanBits, {}) else (0, { nan := true })
  | .inf s =>
    if l.hasInf then (withSign l s (l.maxBits + 1), {})
    else (withSign l s l.maxBits, { sat := true })
  | .fin s m e =>
    let b := roundMag l m e
    if b ≤ l.maxBits then (withSign l s b, {})
    else if l.hasInf then (withSign l s (l.maxBits + 1), { sat := true })
    else (withSign l s l.maxBits, { sat := true })

/-- `m * 2^e` rounded to the nearest integer, ties to even. -/
def roundInt (m : Nat) (e : Int) : Nat := if 0 ≤ e then m <<< e.toNat else rneShift m (-e).toNat

/-- Conversion to INT8 (R122): two's complement, `lim` the largest magnitude on the negative side. -/
def packInt8 (negLim : Nat) : Num → Nat × CFlags
  | .nan => (0, { nan := true })
  | .inf s => ((if s then 256 - negLim else 127), { sat := true })
  | .fin s m e =>
    let r := roundInt m e
    if s then (if r ≤ negLim then ((256 - r) % 256, {}) else (256 - negLim, { sat := true }))
    else (if r ≤ 127 then (r, {}) else (127, { sat := true }))

/-- The value of an INT8 encoding. -/
def unpackInt8 (w : Nat) : Num :=
  let b := w % 256
  if b < 128 then .fin false b 0 else .fin true (256 - b) 0

/-- The value of one element of format `f`, its block scale code applied for BS4 and BS8 (R96, R99). -/
def unpackElem (f : Fmt) (w scale : Nat) : Num :=
  match f with
  | .int8 => unpackInt8 w
  | .bs8 =>
    if scale = 0xFF then .nan else
    match unpackInt8 w with
    | .fin s m e => .fin s m (e + (scale : Int) - 127)
    | n => n
  | .bs4 =>
    if scale = 0xFF then .nan else
    match unpack lE2M1 w with
    | .fin s m e => .fin s m (e + (scale : Int) - 127)
    | n => n
  | f =>
    match fLayout f with
    | some l => unpack l w
    | none => .zero

/-- Conversion to a scalar format (R122). -/
def packScalar (f : Fmt) (n : Num) : Nat × CFlags :=
  match f with
  | .int8 => packInt8 128 n
  | f => match fLayout f with
    | some l => pack l n
    | none => packInt8 127 n

/-- `a.1 * 2^a.2 ≤ b.1 * 2^b.2`. -/
def magLe (a b : Nat × Int) : Bool :=
  let e := min a.2 b.2
  decide (a.1 <<< (a.2 - e).toNat ≤ b.1 <<< (b.2 - e).toNat)

/-- The largest magnitude among the finite values (R123). -/
def amax : List Num → Nat × Int
  | [] => (0, 0)
  | .fin _ m e :: t => let r := amax t; if magLe (m, e) r then r else (m, e)
  | _ :: t => amax t

/-- Scale code of a block whose largest finite magnitude is `a`, element maximum `M` (R123 steps 2 and 3). -/
def blockCode (M : Nat) (a : Nat × Int) : Nat :=
  if a.1 = 0 then 0 else
  let k : Int := (Nat.log2 a.1 : Int) + a.2 - Nat.log2 M
  let s := if magLe a (M, k) then k else k + 1
  let c := s + 127
  if c < 0 then 0 else if c > 0xFE then 0xFE else c.toNat

/-- One element of a block at scale `code` (R123 step 4). -/
def packBlockElem (f : Fmt) (code : Nat) (n : Num) : Nat × CFlags :=
  let n' := match n with
    | .fin s m e => Num.fin s m (e - ((code : Int) - 127))
    | x => x
  if f = .bs4 then pack lE2M1 n' else packInt8 127 n'

/-- A block of 32 values converts to BS4 or BS8: scale code, and each value's element with its flags (R122, R123). A NaN makes every value of
the block take the NaN row; SAT belongs to the values that saturate. -/
def packBlock (f : Fmt) (vs : List Num) : Nat × List (Nat × CFlags) :=
  if vs.any Num.isNan then (0xFF, vs.map (fun _ => (0, { nan := true }))) else
  let code := blockCode (if f = .bs4 then 6 else 127) (amax vs)
  (code, vs.map (packBlockElem f code))

/-- The exact product with its outcome classes (R104, R106). -/
def mulNum (a b : Num) : Num :=
  match a, b with
  | .nan, _ => .nan
  | _, .nan => .nan
  | .inf s, .inf t => .inf (s != t)
  | .inf s, .fin t m _ => if m = 0 then .nan else .inf (s != t)
  | .fin s m _, .inf t => if m = 0 then .nan else .inf (s != t)
  | .fin s m e, .fin t n f => .fin (s != t) (m * n) (e + f)

/-- A finite value as a signed integer at exponent `q`, bits below truncated toward zero. -/
def asInt (q : Int) : Num → Int
  | .fin s m e =>
    let a : Nat := if q ≤ e then m <<< (e - q).toNat else m >>> (q - e).toNat
    if s then -(a : Int) else a
  | _ => 0

/-- An integer at exponent `q` as a value; `z` is the sign of a zero. -/
def ofIntAt (z : Bool) (i : Int) (q : Int) : Num :=
  if i = 0 then .fin z 0 0 else .fin (decide (i < 0)) i.natAbs q

/-- Exact sum of two values, with the classes and zero signs of R109. -/
def addNum (a b : Num) : Num :=
  match a, b with
  | .nan, _ => .nan
  | _, .nan => .nan
  | .inf s, .inf t => if s = t then .inf s else .nan
  | .inf s, .fin _ _ _ => .inf s
  | .fin _ _ _, .inf t => .inf t
  | .fin s m e, .fin t n f =>
    let q := min e f
    ofIntAt (m = 0 && n = 0 && s && t) (asInt q (.fin s m e) + asInt q (.fin t n f)) q

/-- Floor of the base-2 logarithm of a magnitude; `none` for zero and non-finite values. -/
def ilog (n : Num) : Option Int :=
  match n with
  | .fin _ m e => if m = 0 then none else some ((Nat.log2 m : Int) + e)
  | _ => none

/-- Largest exponent among the products of a group. -/
def maxLog : List Num → Option Int
  | [] => none
  | n :: t =>
    match ilog n, maxLog t with
    | none, r => r
    | some a, none => some a
    | some a, some b => some (if a < b then b else a)

/-- Integer sum of a list at exponent `q`. -/
def sumAt (q : Int) : List Num → Int
  | [] => 0
  | n :: t => asInt q n + sumAt q t

/-- A group sum (R107, R108): exact within the window of 48 bits below the largest product. A sum that the truncation of R107 makes zero while
the exact sum is not is +0: the manual names a sign only where the exact sum is zero (DESIGN CHOICE, log 95). -/
def groupSum (ps : List Num) : Num :=
  if ps.any Num.isNan then .nan
  else if ps.any (fun p => p == .inf false) && ps.any (fun p => p == .inf true) then .nan
  else if ps.any (fun p => p == .inf false) then .inf false
  else if ps.any (fun p => p == .inf true) then .inf true
  else match maxLog ps with
    | none => .fin (!ps.isEmpty && ps.all (fun p => p.neg?)) 0 0
    | some eg => ofIntAt false (sumAt (eg - 48) ps) (eg - 48)

/-- The value of an A40 encoding. -/
def a40Num (v : A40) : Num := unpack lA40 v.toNat

/-- A value rounded into A40 (R109, R121): the canonical NaN, infinities, gradual underflow. -/
def toA40 (n : Num) : A40 := BitVec.ofNat 40 (pack lA40 n).1

/-- The accumulator add of R109: NaN is sticky, one RNE per add. -/
def a40Add (v : A40) (g : Num) : A40 := toA40 (addNum (a40Num v) g)

/-- X of an A40 value (R116). -/
def a40X (v : A40) : Nat :=
  let e := bits v.toNat 38 31
  let f := bits v.toNat 30 0
  if e = 0 then (if f = 0 then 0 else 1) else e

/-- Is an A40 value NaN or infinite. -/
def a40Special (v : A40) : Bool := bits v.toNat 38 31 = 0xFF

/-- Term counter addition, saturating at 2^24 - 1 (R89, R113). -/
def termAdd (k n : Nat) : Nat := satAt 16777215 (k + n)

/-- The flags and gap of one final entry: value, peak, term count, conversion flags (R117). -/
structure EFlags where
  nan : Bool
  sat : Bool
  long : Bool
  cancel : Bool
  gap : Nat
  deriving DecidableEq, Repr

/-- Flags of an entry at write-back or at the Bridge (R117, R119). -/
def entryFlags (v : A40) (peak count : Nat) (c : CFlags) : EFlags :=
  let x := a40X v
  { nan := (a40Num v).isNan || c.nan
    sat := c.sat
    long := decide (count > 4194304)
    cancel := !a40Special v && decide (x + 20 ≤ peak)
    gap := if a40Special v then 0 else peak - x }

/-- Columns per ARR cycle by the wider operand format (R62, R103). -/
def colsPerCycle (a b : Fmt) : Nat :=
  if fWidth a = 16 || fWidth b = 16 then 1
  else if fWidth a = 8 || fWidth b = 8 then 2 else 4

/-- Sections of a DEPTH code and its depth (R63). -/
def depthOf : Nat → Nat | 0 => 96 | 1 => 64 | 2 => 48 | _ => 32
def sectionsOf : Nat → Nat | 2 => 2 | 3 => 3 | _ => 1

/-- Groups of a SPLIT code and entries per group (R66). -/
def splitGroups (sp : Nat) : Nat := 2 ^ sp
def splitEntries (sp : Nat) : Nat := 1024 / 2 ^ sp

/-- Element `i` of a packed plane of format `f`: 4-bit elements two to a byte, low first (R100). -/
def planeElem (f : Fmt) (bs : List Byte) (i : Nat) : Nat :=
  match fWidth f with
  | 4 => let b := (bs.getD (i / 2) 0).toNat; if i % 2 = 0 then b % 16 else b / 16
  | 8 => (bs.getD i 0).toNat
  | 16 => leAt bs (2 * i) 2
  | _ => leAt bs (4 * i) 4

/-- Bytes of an element plane of `n` elements. -/
def planeBytes (f : Fmt) (n : Nat) : Nat := cdiv (n * fWidth f) 8

/-- Bytes of one row of `n` elements: a row of a block format ends with its last block whole (R100, R101). -/
def rowBytes (f : Fmt) (n : Nat) : Nat := if fIsBlock f then cdiv n 32 * planeBytes f 32 else planeBytes f n

/-- Scale codes of one row (R100). -/
def scaleBytes (f : Fmt) (n : Nat) : Nat := if fIsBlock f then cdiv n 32 else 0

/-- Element codes packed into bytes. -/
def packPlane (f : Fmt) (es : List Nat) : List Byte :=
  match fWidth f with
  | 4 => (List.range (cdiv es.length 2)).map (fun j =>
      BitVec.ofNat 8 (es.getD (2 * j) 0 % 16 + 16 * (es.getD (2 * j + 1) 0 % 16)))
  | 8 => es.map (BitVec.ofNat 8)
  | 16 => es.flatMap (fun e => natLe e 2)
  | _ => es.flatMap (fun e => natLe e 4)

/-- Cut a list into pieces of `k`, with fuel. -/
def chunksAux {α : Type} (k : Nat) : Nat → List α → List (List α)
  | 0, _ => []
  | n + 1, l => if l.isEmpty then [] else l.take k :: chunksAux k n (l.drop k)

def chunks {α : Type} (k : Nat) (l : List α) : List (List α) := chunksAux k l.length l

/-- A row of values converted to format `f`: element plane, scale plane, flags (R101, R122, R123). -/
def packRow (f : Fmt) (vs : List Num) : List Byte × List Byte × List CFlags :=
  if fIsBlock f then
    let blocks := (chunks 32 vs).map (fun b => packBlock f (b ++ List.replicate (32 - b.length) .zero))
    (packPlane f (blocks.flatMap (fun b => b.2.map Prod.fst)), blocks.map (fun b => BitVec.ofNat 8 b.1),
      (blocks.flatMap (fun b => b.2.map Prod.snd)).take vs.length)
  else
    let rs := vs.map (packScalar f)
    (packPlane f (rs.map Prod.fst), [], rs.map Prod.snd)

end Sys2Proof.Machine
end

