-- ==== Sys2Proof/Machine/Crypto.lean ====
section
/-! DEFINITION. The digests and checks that the manual names: SHA-384 and HMAC and HKDF over it, CRC-32C (R37, R55, R398). -/

namespace Sys2Proof.Machine

/-- `n` words of 64 bits that stand in a number, the first one highest. -/
def words64 (n v : Nat) : List W64 := (List.range n).map (fun i => BitVec.ofNat 64 (v >>> (64 * (n - 1 - i))))

/-- Round constants 0 to 19 of SHA-384, as one number. -/
def shaK0 : Nat :=
  0x428a2f98d728ae227137449123ef65cdb5c0fbcfec4d3b2fe9b5dba58189dbbc3956c25bf348b53859f111f1b605d019923f82a4af194f9bab1c5ed5da6d8118d807aa98a303024212835b0145706fbe243185be4ee4b28c550c7dc3d5ffb4e272be5d74f27b896f80deb1fe3b1696b19bdc06a725c71235c19bf174cf692694e49b69c19ef14ad2efbe4786384f25e30fc19dc68b8cd5b5240ca1cc77ac9c65

/-- Round constants 20 to 39 of SHA-384, as one number. -/
def shaK1 : Nat :=
  0x2de92c6f592b02754a7484aa6ea6e4835cb0a9dcbd41fbd476f988da831153b5983e5152ee66dfaba831c66d2db43210b00327c898fb213fbf597fc7beef0ee4c6e00bf33da88fc2d5a79147930aa72506ca6351e003826f142929670a0e6e7027b70a8546d22ffc2e1b21385c26c9264d2c6dfc5ac42aed53380d139d95b3df650a73548baf63de766a0abb3c77b2a881c2c92e47edaee692722c851482353b

/-- Round constants 40 to 59 of SHA-384, as one number. -/
def shaK2 : Nat :=
  0xa2bfe8a14cf10364a81a664bbc423001c24b8b70d0f89791c76c51a30654be30d192e819d6ef5218d69906245565a910f40e35855771202a106aa07032bbd1b819a4c116b8d2d0c81e376c085141ab532748774cdf8eeb9934b0bcb5e19b48a8391c0cb3c5c95a634ed8aa4ae3418acb5b9cca4f7763e373682e6ff3d6b2b8a3748f82ee5defb2fc78a5636f43172f6084c87814a1f0ab728cc702081a6439ec

/-- Round constants 60 to 79 of SHA-384, as one number. -/
def shaK3 : Nat :=
  0x90befffa23631e28a4506cebde82bde9bef9a3f7b2c67915c67178f2e372532bca273eceea26619cd186b8c721c0c207eada7dd6cde0eb1ef57d4f7fee6ed17806f067aa72176fba0a637dc5a2c898a6113f9804bef90dae1b710b35131c471b28db77f523047d8432caab7b40c724933c9ebe0a15c9bebc431d67c49c100d4c4cc5d4becb3e42b6597f299cfc657e2a5fcb6fab3ad6faec6c44198c4a475817

/-- The eighty round constants. -/
def shaK : List W64 := [shaK0, shaK1, shaK2, shaK3].flatMap (words64 20)

/-- Initial value of SHA-384. -/
def sha384Iv : List W64 :=
  words64 8 0xcbbb9d5dc1059ed8629a292a367cd5079159015a3070dd17152fecd8f70e593967332667ffc00b318eb44a8768581511db0c2e0d64f98fa747b5481dbefa4fa4

/-- Big-endian number of a byte list. -/
def beNat (bs : List Byte) : Nat := bs.foldl (fun a b => a * 256 + b.toNat) 0

/-- Big-endian bytes of a number. -/
def natBe (v n : Nat) : List Byte := (natLe v n).reverse

/-- The exclusive or of a word's rotations to the right. -/
def rotMix (w : W64) (by_ : List Nat) : W64 := by_.foldl (fun m r => m ^^^ w.rotateRight r) 0

/-- The next word of the message schedule, from the last sixteen, oldest first. -/
def shaNext (w : List W64) : W64 :=
  let at' (i : Nat) : W64 := w.getD i 0
  (rotMix (at' 1) [1, 8] ^^^ (at' 1 >>> 7)) + (rotMix (at' 14) [19, 61] ^^^ (at' 14 >>> 6)) + at' 0 + at' 9

/-- `n` further words of the schedule. -/
def shaSched : Nat → List W64 → List W64
  | 0, _ => []
  | n + 1, w => shaNext w :: shaSched n (w.drop 1 ++ [shaNext w])

/-- One round: the eight working words move down by one, the fifth takes up `x`, and a new first word enters. -/
def shaRound (h : List W64) (kw : W64) : List W64 :=
  let v (i : Nat) : W64 := h.getD i 0
  let pick := v 6 ^^^ (v 4 &&& (v 5 ^^^ v 6))
  let x := rotMix (v 4) [14, 18, 41] + pick + v 7 + kw
  let most := (v 0 &&& v 1) ||| (v 2 &&& (v 0 ||| v 1))
  (rotMix (v 0) [28, 34, 39] + most + x) :: (h.take 3 ++ (v 3 + x) :: (h.drop 4).take 3)

/-- One block of 128 bytes. -/
def shaBlock (h : List W64) (b : List Byte) : List W64 :=
  let w := (List.range 16).map (fun i => BitVec.ofNat 64 (beNat ((b.drop (8 * i)).take 8)))
  let ws := w ++ shaSched 64 w
  let r := ((ws.zip shaK).map (fun p => p.1 + p.2)).foldl shaRound h
  (h.zip r).map (fun p => p.1 + p.2)

/-- Blocks of `k` bytes, with fuel. -/
def blocksOf (k : Nat) : Nat → List Byte → List (List Byte)
  | 0, _ => []
  | n + 1, l => if l.isEmpty then [] else l.take k :: blocksOf k n (l.drop k)

/-- SHA-384 of a byte string. -/
def sha384 (m : List Byte) : List Byte :=
  let z := (240 - (m.length + 1) % 128) % 128
  let p := m ++ [0x80] ++ List.replicate z 0 ++ natBe (8 * m.length) 16
  ((((blocksOf 128 (p.length / 128 + 1) p).foldl shaBlock sha384Iv).take 6).flatMap (fun w => natBe w.toNat 8))

/-- HMAC-SHA-384. -/
def hmac384 (key m : List Byte) : List Byte :=
  let k := if key.length > 128 then sha384 key else key
  let k := k ++ List.replicate (128 - k.length) 0
  sha384 (k.map (· ^^^ 0x5C) ++ sha384 (k.map (· ^^^ 0x36) ++ m))

/-- HKDF-Expand blocks over HMAC-SHA-384. -/
def hkdfExpandAux (prk info : List Byte) : Nat → Nat → List Byte → List Byte
  | 0, _, _ => []
  | n + 1, i, t =>
    let u := hmac384 prk (t ++ info ++ [BitVec.ofNat 8 i])
    u ++ hkdfExpandAux prk info n (i + 1) u

/-- HKDF over SHA-384: `len` bytes of key material. -/
def hkdfExpand (prk info : List Byte) (len : Nat) : List Byte := (hkdfExpandAux prk info (cdiv len 48) 1 []).take len

/-- HKDF with SHA-384: extract and expand. -/
def hkdf384 (salt ikm info : List Byte) (len : Nat) : List Byte :=
  (hkdfExpandAux (hmac384 salt ikm) info (cdiv len 48) 1 []).take len

/-- Eight steps of a reflected CRC. -/
def crcStep (poly : Nat) : Nat → Nat → Nat
  | 0, c => c
  | n + 1, c => crcStep poly n (if c % 2 = 1 then (c / 2) ^^^ poly else c / 2)

/-- CRC-32C (Castagnoli) (R37). -/
def crc32c (bs : List Byte) : Nat :=
  (bs.foldl (fun c b => crcStep 0x82F63B78 8 (c ^^^ b.toNat)) 0xFFFFFFFF) ^^^ 0xFFFFFFFF

/-- Characters as bytes. -/
def ascii (s : String) : List Byte := s.toList.map (fun c => BitVec.ofNat 8 c.toNat)

end Sys2Proof.Machine
end

