-- ==== Sys2Proof/Machine/Aes.lean ====
section
/-! DEFINITION. AES-256-GCM, which seals streams, vault slots, wrapped secrets and links (15 R370 to R374, 10 R265). -/

namespace Sys2Proof.Machine

/-- The AES substitution, inputs 0 to 31. -/
def aesS0 : List Nat := [0x63, 0x7c, 0x77, 0x7b, 0xf2, 0x6b, 0x6f, 0xc5, 0x30, 0x01, 0x67, 0x2b, 0xfe, 0xd7, 0xab, 0x76, 0xca, 0x82, 0xc9, 0x7d, 0xfa, 0x59, 0x47, 0xf0, 0xad, 0xd4, 0xa2, 0xaf, 0x9c, 0xa4, 0x72, 0xc0]
/-- The AES substitution, inputs 32 to 63. -/
def aesS1 : List Nat := [0xb7, 0xfd, 0x93, 0x26, 0x36, 0x3f, 0xf7, 0xcc, 0x34, 0xa5, 0xe5, 0xf1, 0x71, 0xd8, 0x31, 0x15, 0x04, 0xc7, 0x23, 0xc3, 0x18, 0x96, 0x05, 0x9a, 0x07, 0x12, 0x80, 0xe2, 0xeb, 0x27, 0xb2, 0x75]
/-- The AES substitution, inputs 64 to 95. -/
def aesS2 : List Nat := [0x09, 0x83, 0x2c, 0x1a, 0x1b, 0x6e, 0x5a, 0xa0, 0x52, 0x3b, 0xd6, 0xb3, 0x29, 0xe3, 0x2f, 0x84, 0x53, 0xd1, 0x00, 0xed, 0x20, 0xfc, 0xb1, 0x5b, 0x6a, 0xcb, 0xbe, 0x39, 0x4a, 0x4c, 0x58, 0xcf]
/-- The AES substitution, inputs 96 to 127. -/
def aesS3 : List Nat := [0xd0, 0xef, 0xaa, 0xfb, 0x43, 0x4d, 0x33, 0x85, 0x45, 0xf9, 0x02, 0x7f, 0x50, 0x3c, 0x9f, 0xa8, 0x51, 0xa3, 0x40, 0x8f, 0x92, 0x9d, 0x38, 0xf5, 0xbc, 0xb6, 0xda, 0x21, 0x10, 0xff, 0xf3, 0xd2]
/-- The AES substitution, inputs 128 to 159. -/
def aesS4 : List Nat := [0xcd, 0x0c, 0x13, 0xec, 0x5f, 0x97, 0x44, 0x17, 0xc4, 0xa7, 0x7e, 0x3d, 0x64, 0x5d, 0x19, 0x73, 0x60, 0x81, 0x4f, 0xdc, 0x22, 0x2a, 0x90, 0x88, 0x46, 0xee, 0xb8, 0x14, 0xde, 0x5e, 0x0b, 0xdb]
/-- The AES substitution, inputs 160 to 191. -/
def aesS5 : List Nat := [0xe0, 0x32, 0x3a, 0x0a, 0x49, 0x06, 0x24, 0x5c, 0xc2, 0xd3, 0xac, 0x62, 0x91, 0x95, 0xe4, 0x79, 0xe7, 0xc8, 0x37, 0x6d, 0x8d, 0xd5, 0x4e, 0xa9, 0x6c, 0x56, 0xf4, 0xea, 0x65, 0x7a, 0xae, 0x08]
/-- The AES substitution, inputs 192 to 223. -/
def aesS6 : List Nat := [0xba, 0x78, 0x25, 0x2e, 0x1c, 0xa6, 0xb4, 0xc6, 0xe8, 0xdd, 0x74, 0x1f, 0x4b, 0xbd, 0x8b, 0x8a, 0x70, 0x3e, 0xb5, 0x66, 0x48, 0x03, 0xf6, 0x0e, 0x61, 0x35, 0x57, 0xb9, 0x86, 0xc1, 0x1d, 0x9e]
/-- The AES substitution, inputs 224 to 255. -/
def aesS7 : List Nat := [0xe1, 0xf8, 0x98, 0x11, 0x69, 0xd9, 0x8e, 0x94, 0x9b, 0x1e, 0x87, 0xe9, 0xce, 0x55, 0x28, 0xdf, 0x8c, 0xa1, 0x89, 0x0d, 0xbf, 0xe6, 0x42, 0x68, 0x41, 0x99, 0x2d, 0x0f, 0xb0, 0x54, 0xbb, 0x16]

/-- The AES substitution of a byte. -/
def aesSub (b : Nat) : Nat :=
  (match b / 32 with
    | 0 => aesS0 | 1 => aesS1 | 2 => aesS2 | 3 => aesS3 | 4 => aesS4 | 5 => aesS5 | 6 => aesS6 | _ => aesS7).getD (b % 32) 0

/-- Doubling in the AES field. -/
def aesX2 (a : Nat) : Nat := if a < 128 then 2 * a else (2 * a) % 256 ^^^ 0x1b

def xorL : List Nat → List Nat → List Nat
  | a :: s, b :: t => (a ^^^ b) :: xorL s t
  | _, _ => []

/-- Round constant of expansion step `i`. -/
def aesRcon : Nat → Nat
  | 0 => 1
  | n + 1 => aesX2 (aesRcon n)

/-- Key schedule of a 256-bit key: words of 4 bytes, newest first. -/
def aesExpand : Nat → Nat → List (List Nat) → List (List Nat)
  | 0, _, ws => ws
  | n + 1, i, ws =>
    let prev := ws.getD 0 []
    let old := ws.getD 7 []
    let t :=
      if i % 8 = 0 then
        let r := (prev.drop 1 ++ prev.take 1).map aesSub
        xorL r [aesRcon (i / 8 - 1), 0, 0, 0]
      else if i % 8 = 4 then prev.map aesSub
      else prev
    aesExpand n (i + 1) (xorL old t :: ws)

/-- The fifteen round keys of 16 bytes. -/
def aesKeys (key : List Byte) : List (List Nat) :=
  let ks := key.map BitVec.toNat
  let w0 := (List.range 8).map (fun i => (ks.drop (4 * i)).take 4)
  let ws := (aesExpand 52 8 w0.reverse).reverse
  (List.range 15).map (fun r => ((ws.drop (4 * r)).take 4).flatten)

def aesShift (s : List Nat) : List Nat :=
  (List.range 16).map (fun i => s.getD ((i + 4 * (i % 4)) % 16) 0)

def aesMixCol (c : List Nat) : List Nat :=
  let a := c.getD 0 0
  let b := c.getD 1 0
  let d := c.getD 2 0
  let e := c.getD 3 0
  [aesX2 a ^^^ aesX2 b ^^^ b ^^^ d ^^^ e, a ^^^ aesX2 b ^^^ aesX2 d ^^^ d ^^^ e,
   a ^^^ b ^^^ aesX2 d ^^^ aesX2 e ^^^ e, aesX2 a ^^^ a ^^^ b ^^^ d ^^^ aesX2 e]

def aesMix (s : List Nat) : List Nat :=
  (List.range 4).flatMap (fun i => aesMixCol ((s.drop (4 * i)).take 4))

/-- Rounds after the first key addition. -/
def aesRounds : List (List Nat) → List Nat → List Nat
  | [], s => s
  | [k], s => xorL (aesShift (s.map aesSub)) k
  | k :: ks, s => aesRounds ks (xorL (aesMix (aesShift (s.map aesSub))) k)

/-- One block as a big-endian number. -/
def aesBlock (keys : List (List Nat)) (b : Nat) : Nat :=
  let s := (natBe b 16).map BitVec.toNat
  let r := aesRounds (keys.drop 1) (xorL s (keys.headD []))
  r.foldl (fun a x => a * 256 + x) 0

/-- Product in the field of GHASH, bit 0 the most significant. -/
def gmulAux : Nat → Nat → Nat → Nat → Nat
  | 0, _, _, z => z
  | n + 1, x, v, z =>
    gmulAux n x (if v % 2 = 1 then v / 2 ^^^ 0xe1000000000000000000000000000000 else v / 2)
      (if x.testBit n then z ^^^ v else z)

def gmul (x y : Nat) : Nat := gmulAux 128 x y 0

/-- GHASH of bytes, each part padded to a block. -/
def ghash (h : Nat) (bs : List Byte) : Nat :=
  (blocksOf 16 (bs.length / 16 + 1) bs).foldl (fun y b => gmul (y ^^^ beNat b) h) 0

/-- Counter-mode key stream over bytes from counter value `c`. -/
def gcmStream (keys : List (List Nat)) (j0 : Nat) (bs : List Byte) : List Byte :=
  let n := (bs.length + 15) / 16
  let ks := (List.range n).flatMap (fun i =>
    natBe (aesBlock keys (j0 / 2 ^ 32 * 2 ^ 32 + (j0 + 1 + i) % 2 ^ 32)) 16)
  bs.zipWith (fun a b => a ^^^ b) ks

/-- The tag over AAD and ciphertext under a 96-bit nonce. -/
def gcmTag (keys : List (List Nat)) (j0 : Nat) (aad ct : List Byte) : List Byte :=
  let h := aesBlock keys 0
  let m := padTo 16 aad ++ padTo 16 ct ++ natBe (8 * aad.length) 8 ++ natBe (8 * ct.length) 8
  natBe (ghash h m ^^^ aesBlock keys j0) 16

/-- AES-256-GCM sealing: ciphertext and tag. The nonce is a 96-bit number. -/
def gcmSeal (key : List Byte) (nonce : Nat) (aad pt : List Byte) : List Byte × List Byte :=
  let keys := aesKeys key
  let j0 := nonce % 2 ^ 96 * 2 ^ 32 + 1
  let ct := gcmStream keys j0 pt
  (ct, gcmTag keys j0 aad ct)

/-- Opening: the plaintext when the tag verifies. -/
def gcmOpen (key : List Byte) (nonce : Nat) (aad ct tag : List Byte) : Option (List Byte) :=
  let keys := aesKeys key
  let j0 := nonce % 2 ^ 96 * 2 ^ 32 + 1
  if gcmTag keys j0 aad ct = tag then some (gcmStream keys j0 ct) else none

end Sys2Proof.Machine
end

