-- ==== Sys2Proof/Config.lean ====
section
/-! DEFINITION. What the manual leaves open: free values, constants with no body, applied to operands or to the counter of State. -/

namespace Sys2Proof

/-- A value that nothing constrains; the state's counter supplies the argument (log 7). -/
opaque Config.freeWord : Nat → W64

/-- A byte that a fenced column returns, poisoned (log 14). -/
opaque Config.lostByte : Nat → Byte

/-- Which of the FP32 values within the stated error a special function delivers, by function and operand encodings (R155, R156, log 20). -/
opaque Config.ulpChoice : Nat → Nat → Nat → Nat

/-- The result of a shift by 64 or more, which the manual does not state (log 23). -/
opaque Config.bigShift : W64 → W64 → W64

/-- What decompressing host bytes gives: whether the input is well formed, and the output up to the end or the error (R393, R395,
log 25). The first argument is ALGO: 1 Zstandard, 2 DEFLATE. -/
opaque Config.decompress : Nat → List Byte → Bool × List Byte

/-- What compressing stack bytes gives, by ALGO and LEVEL (R393, R394, log 25). -/
opaque Config.compress : Nat → Nat → List Byte → List Byte

/-- Random numbers of the security engine: signature nonces, ephemeral scalars, vault nonces (log 26). -/
opaque Config.signNonce : Nat → Nat

/-- The factory voltage in mV of an entry of the voltage-frequency tables in flash, by class, zone and MHz (R350, log 36). -/
opaque Config.factoryMv : Nat → Nat → Nat → Nat

/-- V_MAX of a zone in mV (R354, log 36). -/
opaque Config.vMax : Nat → Nat

/-- The worst code that a re-plan predicts, by slowdown, histogram, and MHz (R354, log 36). -/
opaque Config.predictCode : Nat → List (Nat × Nat) → Nat → Nat

/-- The rise in mV that restores a predicted code of 12, by the same (R354, log 36). -/
opaque Config.needMv : Nat → List (Nat × Nat) → Nat → Nat

end Sys2Proof
end

