-- ==== Sys2Proof/Machine/RegMap.lean ====
section
/-! DEFINITION. The registers of BAR0 by offset (R11, R385) with the access code of every field (R12). -/

namespace Sys2Proof.Machine

/-- One line of a register table: first offset, distance and count of its instances, fields by access code. -/
structure RegRow where
  name : String
  base : Nat
  stride : Nat
  count : Nat
  rw : List (Nat × Nat)
  w1c : List (Nat × Nat)
  rc : List (Nat × Nat)
  ro : List (Nat × Nat)
  sticky : List (Nat × Nat)
  deriving DecidableEq, Repr

def R.MOD_IDENTITY : Nat := 0x0
def R.MOD_STATUS : Nat := 0x8
def R.MOD_FAULT_SUM : Nat := 0x10
def R.MOD_INT_CAUSE : Nat := 0x20
def R.MOD_INT_MASK : Nat := 0x28
def R.MOD_HOST_LINK : Nat := 0x30
def R.MOD_VEC_BASE : Nat := 0x38
def R.MOD_RESET_CTRL : Nat := 0x40
def R.MOD_RESET_STATUS : Nat := 0x48
def R.TUN_CTRL : Nat := 0x10000
def R.TUN_IMAGE_ADDR : Nat := 0x10008
def R.TUN_IMAGE_LEN : Nat := 0x10010
def R.TUN_REPORT_ADDR : Nat := 0x10018
def R.TUN_REPORT_CAP : Nat := 0x10020
def R.TUN_STATUS : Nat := 0x10028
/-- TUN_ACTIVE_HASH_n: instance n at 0x10030 + n * 0x8. -/
def R.TUN_ACTIVE_HASH (n : Nat) : Nat := 0x10030 + n * 0x8
/-- TUN_OWNER_n: instance n at 0x10080 + n * 0x8. -/
def R.TUN_OWNER (n : Nat) : Nat := 0x10080 + n * 0x8
def R.CLK_REF_STATUS : Nat := 0x20000
def R.CLK_TIME : Nat := 0x20008
def R.CLK_TIME_CTRL : Nat := 0x20010
def R.CLK_TIME_STATUS : Nat := 0x20018
def R.CLK_TIME_SEED : Nat := 0x20020
def R.CLK_SYNC_DELAY : Nat := 0x20028
def R.CLK_FAULT : Nat := 0x20030
def R.CLK_FLUSH_COUNT : Nat := 0x20038
/-- CLK_ZONE_STATUS_n: instance n at 0x21000 + n * 0x40. -/
def R.CLK_ZONE_STATUS (n : Nat) : Nat := 0x21000 + 0x40 * n
/-- CLK_ZONE_MARGIN_n: instance n at 0x21008 + n * 0x40. -/
def R.CLK_ZONE_MARGIN (n : Nat) : Nat := 0x21008 + 0x40 * n
/-- CLK_ZONE_STRETCH_n: instance n at 0x21010 + n * 0x40. -/
def R.CLK_ZONE_STRETCH (n : Nat) : Nat := 0x21010 + 0x40 * n
/-- CLK_ZONE_CYCLES_n: instance n at 0x21018 + n * 0x40. -/
def R.CLK_ZONE_CYCLES (n : Nat) : Nat := 0x21018 + 0x40 * n
/-- CLK_ZONE_CAP_n: instance n at 0x21020 + n * 0x40. -/
def R.CLK_ZONE_CAP (n : Nat) : Nat := 0x21020 + 0x40 * n
/-- CLK_ZONE_CTRL_n: instance n at 0x21028 + n * 0x40. -/
def R.CLK_ZONE_CTRL (n : Nat) : Nat := 0x21028 + 0x40 * n
def R.PWR_SUPPLY_STATUS : Nat := 0x30000
def R.PWR_CLASS : Nat := 0x30008
def R.PWR_DRONE : Nat := 0x30010
def R.PWR_RAMP : Nat := 0x30018
def R.PWR_GATED : Nat := 0x30020
def R.PWR_ENERGY : Nat := 0x30028
def R.PWR_TEMP : Nat := 0x30030
def R.PWR_FAULT : Nat := 0x30038
def R.PWR_TELEM_ADDR : Nat := 0x30040
def R.PWR_TELEM_CTRL : Nat := 0x30048
/-- PWR_ZONE_n: instance n at 0x30100 + n * 0x10. -/
def R.PWR_ZONE (n : Nat) : Nat := 0x30100 + n * 0x10
def R.PWR_AGE_CTRL : Nat := 0x30200
def R.PWR_AGE_STATUS : Nat := 0x30208
def R.SEC_MB_CTRL : Nat := 0x40000
def R.SEC_MB_REQ_ADDR : Nat := 0x40008
def R.SEC_MB_REQ_LEN : Nat := 0x40010
def R.SEC_MB_RSP_ADDR : Nat := 0x40018
def R.SEC_MB_RSP_CAP : Nat := 0x40020
def R.SEC_MB_STATUS : Nat := 0x40028
def R.SEC_STATE : Nat := 0x40040
def R.SEC_LOG_COUNT : Nat := 0x40048
/-- SEC_LOG_HEAD_n: instance n at 0x40050 + n * 0x8. -/
def R.SEC_LOG_HEAD (n : Nat) : Nat := 0x40050 + n * 0x8
def R.SEC_FAULT : Nat := 0x40080
def R.STM_CMD : Nat := 0x50000
/-- STM_CMD_ARG_n: instance n at 0x50008 + n * 0x8. -/
def R.STM_CMD_ARG (n : Nat) : Nat := 0x50008 + n * 0x8
def R.STM_CMD_STATUS : Nat := 0x50028
def R.STM_CACHE_STATUS : Nat := 0x50040
def R.STM_FAULT : Nat := 0x50048
def R.STM_MERGED : Nat := 0x50050
def R.STM_DB_STALE : Nat := 0x50058
def R.STM_PENDING : Nat := 0x50060
def R.STM_RECOVER : Nat := 0x50068
def R.STM_RECOVER_STATUS : Nat := 0x50070
/-- STM_PART_TABLE_n: instance n at 0x50100 + n * 0x10. -/
def R.STM_PART_TABLE (n : Nat) : Nat := 0x50100 + n * 0x10
/-- STM_PART_RANGE_n: instance n at 0x50108 + n * 0x10. -/
def R.STM_PART_RANGE (n : Nat) : Nat := 0x50108 + n * 0x10
/-- STM_DB_PAGE_n: instance n at 0x51000 + n * 0x8. -/
def R.STM_DB_PAGE (n : Nat) : Nat := 0x51000 + n * 0x8
def R.GRX_STATUS : Nat := 0x60000
def R.GRX_FAULT : Nat := 0x60008
/-- GRX_PART_BLOCKS_n: instance n at 0x60100 + n * 0x20. -/
def R.GRX_PART_BLOCKS (n : Nat) : Nat := 0x60100 + n * 0x20
/-- GRX_EPOCH_n: instance n at 0x60108 + n * 0x20. -/
def R.GRX_EPOCH (n : Nat) : Nat := 0x60108 + n * 0x20
/-- GRX_SEAL_n: instance n at 0x60110 + n * 0x20. -/
def R.GRX_SEAL (n : Nat) : Nat := 0x60110 + n * 0x20
/-- GRX_SEAL_FP_n: instance n at 0x60118 + n * 0x20. -/
def R.GRX_SEAL_FP (n : Nat) : Nat := 0x60118 + n * 0x20
/-- GRX_GROUP_n: instance n at 0x60400 + n * 0x10. -/
def R.GRX_GROUP (n : Nat) : Nat := 0x60400 + n * 0x10
/-- GRX_GROUP_CNT_n: instance n at 0x60408 + n * 0x10. -/
def R.GRX_GROUP_CNT (n : Nat) : Nat := 0x60408 + n * 0x10
/-- FAB_PORT_CTRL_n: instance n at 0x70000 + n * 0x1000. -/
def R.FAB_PORT_CTRL (n : Nat) : Nat := 0x70000 + 0x1000 * n
/-- FAB_PORT_STATUS_n: instance n at 0x70008 + n * 0x1000. -/
def R.FAB_PORT_STATUS (n : Nat) : Nat := 0x70008 + 0x1000 * n
/-- FAB_PORT_PROP_n: instance n at 0x70010 + n * 0x1000. -/
def R.FAB_PORT_PROP (n : Nat) : Nat := 0x70010 + 0x1000 * n
/-- FAB_PORT_FEC_n: instance n at 0x70018 + n * 0x1000. -/
def R.FAB_PORT_FEC (n : Nat) : Nat := 0x70018 + 0x1000 * n
/-- FAB_PORT_ERR_n: instance n at 0x70020 + n * 0x1000. -/
def R.FAB_PORT_ERR (n : Nat) : Nat := 0x70020 + 0x1000 * n
/-- FAB_TIMED_SLOTS_n: instance n at 0x70028 + n * 0x1000. -/
def R.FAB_TIMED_SLOTS (n : Nat) : Nat := 0x70028 + 0x1000 * n
def R.FAB_MOD_ADDR : Nat := 0x7F000
def R.FAB_ROUTE_STATUS : Nat := 0x7F008
def R.FAB_ADMIT_STATUS : Nat := 0x7F010
def R.FAB_E2E_TIMEOUT : Nat := 0x7F018
def R.FAB_TIMED_COUNT : Nat := 0x7F020
def R.FAB_FAULT : Nat := 0x7F028
/-- FAB_MCAST_n: instance n at 0x7F400 + n * 0x8. -/
def R.FAB_MCAST (n : Nat) : Nat := 0x7F400 + n * 0x8
/-- FAB_MCAST_LAG_n: instance n at 0x7F800 + n * 0x8. -/
def R.FAB_MCAST_LAG (n : Nat) : Nat := 0x7F800 + n * 0x8
def R.STK_GEOMETRY : Nat := 0x80000
def R.STK_REGIONS : Nat := 0x80008
def R.STK_BAR2_PART : Nat := 0x80010
def R.STK_MON_SEL : Nat := 0x80018
def R.STK_FAULT : Nat := 0x80020
def R.STK_SC_CTRL : Nat := 0x80028
def R.STK_SC_HITS : Nat := 0x80030
def R.STK_SC_MISSES : Nat := 0x80038
/-- STK_PART_REGION_n: instance n at 0x80100 + n * 0x10. -/
def R.STK_PART_REGION (n : Nat) : Nat := 0x80100 + n * 0x10
/-- STK_PART_SHARE_n: instance n at 0x80108 + n * 0x10. -/
def R.STK_PART_SHARE (n : Nat) : Nat := 0x80108 + n * 0x10
/-- STK_COL_STATUS_n: instance n at 0x81000 + n * 0x20. -/
def R.STK_COL_STATUS (n : Nat) : Nat := 0x81000 + n * 0x20
/-- STK_COL_ECC_n: instance n at 0x81008 + n * 0x20. -/
def R.STK_COL_ECC (n : Nat) : Nat := 0x81008 + n * 0x20
/-- STK_COL_GRANT_n: instance n at 0x81010 + n * 0x20. -/
def R.STK_COL_GRANT (n : Nat) : Nat := 0x81010 + n * 0x20
/-- STK_COL_WAIT_n: instance n at 0x81018 + n * 0x20. -/
def R.STK_COL_WAIT (n : Nat) : Nat := 0x81018 + n * 0x20
def R.DBG_CTRL : Nat := 0x90000
def R.DBG_STATUS : Nat := 0x90008
def R.DBG_REC_PARTS : Nat := 0x90010
def R.DBG_REC_ADDR : Nat := 0x90018
def R.DBG_REC_SIZE : Nat := 0x90020
def R.DBG_REC_HEAD : Nat := 0x90028
def R.DBG_REC_TAIL : Nat := 0x90030
def R.DBG_FLOG_ADDR : Nat := 0x90100
def R.DBG_FLOG_SIZE : Nat := 0x90108
def R.DBG_FLOG_HEAD : Nat := 0x90110
def R.DBG_FLOG_TAIL : Nat := 0x90118
/-- DBG_TRACE_CORES_n: instance n at 0x90200 + n * 0x8. -/
def R.DBG_TRACE_CORES (n : Nat) : Nat := 0x90200 + n * 0x8
def R.DBG_TRACE_ADDR : Nat := 0x90220
/-- DBG_QUAR_n: instance n at 0x90300 + n * 0x8. -/
def R.DBG_QUAR (n : Nat) : Nat := 0x90300 + n * 0x8
def R.DBG_QUAR_CTRL : Nat := 0x90320
/-- STR_CAPO_MAP_n: instance n at 0xA0000 + n * 0x8. -/
def R.STR_CAPO_MAP (n : Nat) : Nat := 0xA0000 + n * 0x8
/-- STR_ARRAY_EN_n: instance n at 0xA0040 + n * 0x8. -/
def R.STR_ARRAY_EN (n : Nat) : Nat := 0xA0040 + n * 0x8
/-- STR_ASSIGNED_n: instance n at 0xA0080 + n * 0x8. -/
def R.STR_ASSIGNED (n : Nat) : Nat := 0xA0080 + n * 0x8
def R.STR_COUNT : Nat := 0xA00C0
/-- STR_FAULT_SUM_n: instance n at 0xA00C8 + n * 0x8. -/
def R.STR_FAULT_SUM (n : Nat) : Nat := 0xA00C8 + n * 0x8
/-- STR_GEOM_n: instance n at 0xA1000 + n * 0x40. -/
def R.STR_GEOM (n : Nat) : Nat := 0xA1000 + 0x40 * n
/-- STR_RUN_n: instance n at 0xA1008 + n * 0x40. -/
def R.STR_RUN (n : Nat) : Nat := 0xA1008 + 0x40 * n
/-- STR_ISSUED_n: instance n at 0xA1010 + n * 0x40. -/
def R.STR_ISSUED (n : Nat) : Nat := 0xA1010 + 0x40 * n
/-- STR_STALLED_n: instance n at 0xA1018 + n * 0x40. -/
def R.STR_STALLED (n : Nat) : Nat := 0xA1018 + 0x40 * n
/-- STR_FAULT_n: instance n at 0xA1020 + n * 0x40. -/
def R.STR_FAULT (n : Nat) : Nat := 0xA1020 + 0x40 * n
/-- COR_STATE_n: instance n at 0x1000000 + n * 0x10000. -/
def R.COR_STATE (n : Nat) : Nat := 0x1000000 + 0x10000 * n
/-- COR_TRAP_MASK_n: instance n at 0x1000008 + n * 0x10000. -/
def R.COR_TRAP_MASK (n : Nat) : Nat := 0x1000008 + 0x10000 * n
/-- COR_FAULT_n: instance n at 0x1000010 + n * 0x10000. -/
def R.COR_FAULT (n : Nat) : Nat := 0x1000010 + 0x10000 * n
/-- COR_PC_n: instance n at 0x1000018 + n * 0x10000. -/
def R.COR_PC (n : Nat) : Nat := 0x1000018 + 0x10000 * n

/-- The window of core `c` (R11). -/
def corWin (c : Nat) : Nat := 0x1000000 + 0x10000 * c

def R.COR_STALL (c i : Nat) : Nat := corWin c + 0x20 + i * 0x8
def R.COR_TEN_CS_BASE (c i : Nat) : Nat := corWin c + 0x40 + i * 0x10
def R.COR_TEN_CS_SIZE (c i : Nat) : Nat := corWin c + 0x48 + i * 0x10

/-- COR_PROG and COR_VMAP registers belong to the partition (R189): the model keeps one copy, keyed by partition. -/
def partKey (p off : Nat) : Nat := 0x100000000 + off + 0x1000 * p
def R.COR_PROG_CTRL (p : Nat) : Nat := partKey p 0x100
def R.COR_PROG_ADDR (p : Nat) : Nat := partKey p 0x108
def R.COR_PROG_LEN (p : Nat) : Nat := partKey p 0x110
def R.COR_PROG_STATUS (p : Nat) : Nat := partKey p 0x118
def R.COR_PROG_HASH (p i : Nat) : Nat := partKey p (0x120 + 8 * i)

/-- Registers that each function has for itself (R244, R380, R386): the key of function `fn`, the PF being 0. -/
def fnKey (fn off : Nat) : Nat := off + 0x1000000000 * fn

/-- Block MOD (R4, R397, R402, R412, R414). -/
def regRowsMod : List RegRow := [
  ⟨"MOD_IDENTITY", 0x0, 0x0, 1, [], [], [], [(39, 32), (31, 16), (15, 8), (7, 0)], []⟩,
  ⟨"MOD_STATUS", 0x8, 0x0, 1, [(3, 2)], [], [], [(8, 8), (1, 0)], [(3, 2)]⟩,
  ⟨"MOD_FAULT_SUM", 0x10, 0x0, 1, [], [(11, 1), (0, 0)], [(47, 32)], [(63, 48)], []⟩,
  ⟨"MOD_INT_CAUSE", 0x20, 0x0, 1, [], [(8, 0)], [], [], []⟩,
  ⟨"MOD_INT_MASK", 0x28, 0x0, 1, [(8, 0)], [], [], [], []⟩,
  ⟨"MOD_HOST_LINK", 0x30, 0x0, 1, [], [], [], [(15, 12), (11, 8), (4, 0)], []⟩,
  ⟨"MOD_VEC_BASE", 0x38, 0x0, 1, [], [], [], [(10, 0), (27, 16)], []⟩,
  ⟨"MOD_RESET_CTRL", 0x40, 0x0, 1, [], [], [], [], []⟩,
  ⟨"MOD_RESET_STATUS", 0x48, 0x0, 1, [(31, 16), (10, 8)], [], [], [(47, 40), (1, 0)], [(31, 16), (10, 8)]⟩]

/-- Block TUN (R58). -/
def regRowsTun : List RegRow := [
  ⟨"TUN_CTRL", 0x10000, 0x0, 1, [], [], [], [], []⟩,
  ⟨"TUN_IMAGE_ADDR", 0x10008, 0x0, 1, [(63, 3)], [], [], [], []⟩,
  ⟨"TUN_IMAGE_LEN", 0x10010, 0x0, 1, [(20, 0)], [], [], [], []⟩,
  ⟨"TUN_REPORT_ADDR", 0x10018, 0x0, 1, [(63, 3)], [], [], [], []⟩,
  ⟨"TUN_REPORT_CAP", 0x10020, 0x0, 1, [(12, 0)], [], [], [], []⟩,
  ⟨"TUN_STATUS", 0x10028, 0x0, 1, [(47, 32), (31, 19), (18, 18), (17, 17), (16, 16), (15, 15)], [], [], [(12, 8), (1, 0)], [(47, 32), (31, 19), (18, 18), (17, 17), (16, 16), (15, 15)]⟩,
  ⟨"TUN_ACTIVE_HASH", 0x10030, 0x8, 6, [], [], [], [(63, 0)], [(63, 0)]⟩,
  ⟨"TUN_OWNER", 0x10080, 0x8, 11, [], [], [], [(23, 16), (15, 8), (1, 0)], []⟩]

/-- Block CLK (R338). -/
def regRowsClk : List RegRow := [
  ⟨"CLK_REF_STATUS", 0x20000, 0x0, 1, [], [], [], [(19, 4), (2, 2), (1, 1), (0, 0)], []⟩,
  ⟨"CLK_TIME", 0x20008, 0x0, 1, [], [], [], [(63, 0)], []⟩,
  ⟨"CLK_TIME_CTRL", 0x20010, 0x0, 1, [(1, 1), (0, 0)], [], [], [], [(1, 1), (0, 0)]⟩,
  ⟨"CLK_TIME_STATUS", 0x20018, 0x0, 1, [], [], [], [(47, 16), (3, 3), (2, 2), (1, 0)], []⟩,
  ⟨"CLK_TIME_SEED", 0x20020, 0x0, 1, [], [], [], [], []⟩,
  ⟨"CLK_SYNC_DELAY", 0x20028, 0x0, 1, [(15, 0)], [], [], [], [(15, 0)]⟩,
  ⟨"CLK_FAULT", 0x20030, 0x0, 1, [], [(47, 47)], [], [(63, 48), (41, 38), (7, 0)], []⟩,
  ⟨"CLK_FLUSH_COUNT", 0x20038, 0x0, 1, [], [], [(31, 0), (63, 32)], [], []⟩,
  ⟨"CLK_ZONE_STATUS", 0x21000, 0x40, 16, [], [], [], [(41, 32), (29, 20), (17, 8), (1, 0)], []⟩,
  ⟨"CLK_ZONE_MARGIN", 0x21008, 0x40, 16, [], [], [(47, 32), (31, 16), (12, 8), (5, 0)], [], []⟩,
  ⟨"CLK_ZONE_STRETCH", 0x21010, 0x40, 16, [], [], [(31, 0), (63, 32)], [], []⟩,
  ⟨"CLK_ZONE_CYCLES", 0x21018, 0x40, 16, [], [], [], [(63, 0)], [(63, 0)]⟩,
  ⟨"CLK_ZONE_CAP", 0x21020, 0x40, 16, [], [], [], [(9, 0)], []⟩,
  ⟨"CLK_ZONE_CTRL", 0x21028, 0x40, 16, [], [], [], [], []⟩]

/-- Block PWR (R357). -/
def regRowsPwr : List RegRow := [
  ⟨"PWR_SUPPLY_STATUS", 0x30000, 0x0, 1, [], [], [], [(48, 32), (31, 16), (2, 0)], []⟩,
  ⟨"PWR_CLASS", 0x30008, 0x0, 1, [], [], [], [(1, 0), (25, 16), (42, 32)], []⟩,
  ⟨"PWR_DRONE", 0x30010, 0x0, 1, [], [], [], [(63, 48), (47, 32), (31, 16), (8, 8), (6, 0)], []⟩,
  ⟨"PWR_RAMP", 0x30018, 0x0, 1, [], [], [], [(9, 0), (25, 16)], []⟩,
  ⟨"PWR_GATED", 0x30020, 0x0, 1, [], [], [(63, 0)], [], []⟩,
  ⟨"PWR_ENERGY", 0x30028, 0x0, 1, [], [], [], [(63, 0)], [(63, 0)]⟩,
  ⟨"PWR_TEMP", 0x30030, 0x0, 1, [], [], [], [(7, 0), (11, 8), (23, 16)], []⟩,
  ⟨"PWR_FAULT", 0x30038, 0x0, 1, [], [(47, 47)], [], [(63, 48), (36, 33), (32, 16), (15, 0)], []⟩,
  ⟨"PWR_TELEM_ADDR", 0x30040, 0x0, 1, [(63, 6)], [], [], [], []⟩,
  ⟨"PWR_TELEM_CTRL", 0x30048, 0x0, 1, [(0, 0), (11, 8), (63, 32)], [], [], [], []⟩,
  ⟨"PWR_ZONE", 0x30100, 0x10, 16, [], [], [], [(9, 0), (27, 16), (39, 32), (51, 48)], []⟩,
  ⟨"PWR_AGE_CTRL", 0x30200, 0x0, 1, [], [], [], [], []⟩,
  ⟨"PWR_AGE_STATUS", 0x30208, 0x0, 1, [], [], [], [(63, 32), (31, 12), (11, 2), (1, 0)], []⟩]

/-- Block SEC (R380). -/
def regRowsSec : List RegRow := [
  ⟨"SEC_MB_CTRL", 0x40000, 0x0, 1, [], [], [], [], []⟩,
  ⟨"SEC_MB_REQ_ADDR", 0x40008, 0x0, 1, [(63, 3)], [], [], [], []⟩,
  ⟨"SEC_MB_REQ_LEN", 0x40010, 0x0, 1, [(15, 0)], [], [], [], []⟩,
  ⟨"SEC_MB_RSP_ADDR", 0x40018, 0x0, 1, [(63, 3)], [], [], [], []⟩,
  ⟨"SEC_MB_RSP_CAP", 0x40020, 0x0, 1, [(15, 0)], [], [], [], []⟩,
  ⟨"SEC_MB_STATUS", 0x40028, 0x0, 1, [], [], [], [(47, 32), (31, 16), (0, 0)], []⟩,
  ⟨"SEC_STATE", 0x40040, 0x0, 1, [], [], [], [(47, 32), (31, 16), (15, 8), (1, 1), (0, 0)], []⟩,
  ⟨"SEC_LOG_COUNT", 0x40048, 0x0, 1, [], [], [], [(63, 0)], []⟩,
  ⟨"SEC_LOG_HEAD", 0x40050, 0x8, 6, [], [], [], [(63, 0)], []⟩,
  ⟨"SEC_FAULT", 0x40080, 0x0, 1, [], [(47, 47)], [], [(63, 48), (46, 43), (31, 20), (19, 0)], []⟩]

/-- Block STM (R244, R318). -/
def regRowsStm : List RegRow := [
  ⟨"STM_CMD", 0x50000, 0x0, 1, [], [], [], [], []⟩,
  ⟨"STM_CMD_ARG", 0x50008, 0x8, 4, [(63, 0)], [], [], [], []⟩,
  ⟨"STM_CMD_STATUS", 0x50028, 0x0, 1, [], [], [], [(47, 32), (31, 16), (0, 0)], []⟩,
  ⟨"STM_CACHE_STATUS", 0x50040, 0x0, 1, [], [], [], [(47, 32), (31, 16), (15, 0)], []⟩,
  ⟨"STM_FAULT", 0x50048, 0x0, 1, [], [(47, 47)], [], [(63, 48), (46, 43), (42, 40), (19, 0)], []⟩,
  ⟨"STM_MERGED", 0x50050, 0x0, 1, [], [], [(63, 0)], [], []⟩,
  ⟨"STM_DB_STALE", 0x50058, 0x0, 1, [], [], [(63, 0)], [], []⟩,
  ⟨"STM_PENDING", 0x50060, 0x0, 1, [], [], [], [(20, 0)], []⟩,
  ⟨"STM_RECOVER", 0x50068, 0x0, 1, [], [], [], [], []⟩,
  ⟨"STM_RECOVER_STATUS", 0x50070, 0x0, 1, [], [], [], [(61, 42), (41, 22), (1, 0)], []⟩,
  ⟨"STM_PART_TABLE", 0x50100, 0x10, 16, [(63, 12), (0, 0)], [], [], [], []⟩,
  ⟨"STM_PART_RANGE", 0x50108, 0x10, 16, [(36, 32), (20, 20), (19, 0)], [], [], [], []⟩,
  ⟨"STM_DB_PAGE", 0x51000, 0x8, 1024, [(36, 36), (35, 32), (19, 0)], [], [], [], []⟩]

/-- Block GRX (R299). -/
def regRowsGrx : List RegRow := [
  ⟨"GRX_STATUS", 0x60000, 0x0, 1, [], [], [], [(15, 0)], []⟩,
  ⟨"GRX_FAULT", 0x60008, 0x0, 1, [], [(47, 47)], [], [(63, 48), (46, 43), (42, 39), (36, 16), (15, 0)], []⟩,
  ⟨"GRX_PART_BLOCKS", 0x60100, 0x20, 16, [(53, 32), (21, 0)], [], [], [], []⟩,
  ⟨"GRX_EPOCH", 0x60108, 0x20, 16, [], [], [], [(63, 0)], [(63, 0)]⟩,
  ⟨"GRX_SEAL", 0x60110, 0x20, 16, [], [], [], [(63, 48), (37, 36), (35, 32), (31, 0)], []⟩,
  ⟨"GRX_SEAL_FP", 0x60118, 0x20, 16, [], [], [], [(63, 0)], []⟩,
  ⟨"GRX_GROUP", 0x60400, 0x10, 16, [], [], [], [(55, 52), (51, 48), (47, 44), (34, 32), (21, 0)], []⟩,
  ⟨"GRX_GROUP_CNT", 0x60408, 0x10, 16, [], [], [(31, 0), (63, 32)], [], []⟩]

/-- Block FAB (R267). -/
def regRowsFab : List RegRow := [
  ⟨"FAB_PORT_CTRL", 0x70000, 0x1000, 12, [(2, 2), (0, 0)], [], [], [], []⟩,
  ⟨"FAB_PORT_STATUS", 0x70008, 0x1000, 12, [], [], [], [(47, 32), (31, 28), (11, 8), (7, 7), (6, 6), (2, 0)], []⟩,
  ⟨"FAB_PORT_PROP", 0x70010, 0x1000, 12, [], [], [], [(15, 0)], []⟩,
  ⟨"FAB_PORT_FEC", 0x70018, 0x1000, 12, [], [], [(31, 0), (63, 32)], [], []⟩,
  ⟨"FAB_PORT_ERR", 0x70020, 0x1000, 12, [], [], [(31, 0), (47, 32), (63, 48)], [], []⟩,
  ⟨"FAB_TIMED_SLOTS", 0x70028, 0x1000, 12, [], [], [], [(31, 0), (34, 32)], []⟩,
  ⟨"FAB_MOD_ADDR", 0x7F000, 0x0, 1, [(15, 0)], [], [], [], []⟩,
  ⟨"FAB_ROUTE_STATUS", 0x7F008, 0x0, 1, [], [], [], [(11, 0), (47, 32)], []⟩,
  ⟨"FAB_ADMIT_STATUS", 0x7F010, 0x0, 1, [], [], [], [(47, 32), (12, 8), (2, 0)], []⟩,
  ⟨"FAB_E2E_TIMEOUT", 0x7F018, 0x0, 1, [(23, 0)], [], [], [], []⟩,
  ⟨"FAB_TIMED_COUNT", 0x7F020, 0x0, 1, [], [], [], [(6, 0)], []⟩,
  ⟨"FAB_FAULT", 0x7F028, 0x0, 1, [], [(47, 47)], [], [(63, 48), (46, 43), (19, 0)], []⟩,
  ⟨"FAB_MCAST", 0x7F400, 0x8, 128, [(63, 63), (39, 20), (19, 16), (12, 12), (11, 0)], [], [], [], []⟩,
  ⟨"FAB_MCAST_LAG", 0x7F800, 0x8, 128, [], [], [], [(51, 48), (47, 0)], []⟩]

/-- Block STK (R216). -/
def regRowsStk : List RegRow := [
  ⟨"STK_GEOMETRY", 0x80000, 0x0, 1, [], [], [], [(47, 32), (31, 16), (11, 8), (7, 0)], []⟩,
  ⟨"STK_REGIONS", 0x80008, 0x0, 1, [], [], [], [(31, 24), (23, 16), (15, 8), (7, 0)], []⟩,
  ⟨"STK_BAR2_PART", 0x80010, 0x0, 1, [(3, 0)], [], [], [], []⟩,
  ⟨"STK_MON_SEL", 0x80018, 0x0, 1, [(3, 0)], [], [], [], []⟩,
  ⟨"STK_FAULT", 0x80020, 0x0, 1, [], [(47, 47)], [], [(63, 48), (46, 41), (40, 37), (36, 34), (33, 0)], []⟩,
  ⟨"STK_SC_CTRL", 0x80028, 0x0, 1, [(11, 8)], [], [], [(63, 63)], []⟩,
  ⟨"STK_SC_HITS", 0x80030, 0x0, 1, [], [], [(63, 0)], [], []⟩,
  ⟨"STK_SC_MISSES", 0x80038, 0x0, 1, [], [], [(63, 0)], [], []⟩,
  ⟨"STK_PART_REGION", 0x80100, 0x10, 16, [], [], [], [(58, 48), (41, 32), (23, 16), (15, 8), (7, 0)], []⟩,
  ⟨"STK_PART_SHARE", 0x80108, 0x10, 16, [], [], [], [(6, 0), (14, 8)], []⟩,
  ⟨"STK_COL_STATUS", 0x81000, 0x20, 64, [], [], [], [(48, 48), (47, 32), (15, 8), (1, 0)], []⟩,
  ⟨"STK_COL_ECC", 0x81008, 0x20, 64, [], [], [(31, 0), (63, 32)], [], []⟩,
  ⟨"STK_COL_GRANT", 0x81010, 0x20, 64, [], [], [(31, 0), (63, 32)], [], []⟩,
  ⟨"STK_COL_WAIT", 0x81018, 0x20, 64, [], [], [(31, 0), (63, 32)], [], []⟩]

/-- Block DBG (R411). -/
def regRowsDbg : List RegRow := [
  ⟨"DBG_CTRL", 0x90000, 0x0, 1, [(5, 5), (4, 4), (2, 2), (1, 1), (0, 0)], [], [], [], []⟩,
  ⟨"DBG_STATUS", 0x90008, 0x0, 1, [], [], [], [(47, 32), (4, 4), (3, 2), (1, 0)], []⟩,
  ⟨"DBG_REC_PARTS", 0x90010, 0x0, 1, [(15, 0)], [], [], [], []⟩,
  ⟨"DBG_REC_ADDR", 0x90018, 0x0, 1, [(63, 12)], [], [], [], []⟩,
  ⟨"DBG_REC_SIZE", 0x90020, 0x0, 1, [(39, 0)], [], [], [], []⟩,
  ⟨"DBG_REC_HEAD", 0x90028, 0x0, 1, [(39, 0)], [], [], [], []⟩,
  ⟨"DBG_REC_TAIL", 0x90030, 0x0, 1, [(39, 0)], [], [], [], []⟩,
  ⟨"DBG_FLOG_ADDR", 0x90100, 0x0, 1, [(63, 6)], [], [], [], []⟩,
  ⟨"DBG_FLOG_SIZE", 0x90108, 0x0, 1, [(3, 0)], [], [], [], []⟩,
  ⟨"DBG_FLOG_HEAD", 0x90110, 0x0, 1, [], [], [], [(63, 0)], []⟩,
  ⟨"DBG_FLOG_TAIL", 0x90118, 0x0, 1, [(63, 0)], [], [], [], []⟩,
  ⟨"DBG_TRACE_CORES", 0x90200, 0x8, 4, [(63, 0)], [], [], [], []⟩,
  ⟨"DBG_TRACE_ADDR", 0x90220, 0x0, 1, [(63, 12)], [], [], [], []⟩,
  ⟨"DBG_QUAR", 0x90300, 0x8, 4, [], [], [], [(63, 0)], []⟩,
  ⟨"DBG_QUAR_CTRL", 0x90320, 0x0, 1, [], [], [], [], []⟩]

/-- Block STR (R94). -/
def regRowsStr : List RegRow := [
  ⟨"STR_CAPO_MAP", 0xA0000, 0x8, 8, [], [], [], [(63, 0)], []⟩,
  ⟨"STR_ARRAY_EN", 0xA0040, 0x8, 8, [], [], [], [(63, 0)], []⟩,
  ⟨"STR_ASSIGNED", 0xA0080, 0x8, 8, [], [], [], [(63, 0)], []⟩,
  ⟨"STR_COUNT", 0xA00C0, 0x0, 1, [], [], [], [(24, 16), (7, 0)], []⟩,
  ⟨"STR_FAULT_SUM", 0xA00C8, 0x8, 2, [], [], [], [(63, 0)], []⟩,
  ⟨"STR_GEOM", 0xA1000, 0x40, 128, [], [], [], [(52, 49), (48, 48), (47, 44), (43, 38), (37, 30), (29, 23), (17, 9), (8, 0)], []⟩,
  ⟨"STR_RUN", 0xA1008, 0x40, 128, [], [], [], [(63, 32), (31, 20), (19, 17), (11, 8), (2, 0)], []⟩,
  ⟨"STR_ISSUED", 0xA1010, 0x40, 128, [], [], [(63, 0)], [], []⟩,
  ⟨"STR_STALLED", 0xA1018, 0x40, 128, [], [], [(63, 0)], [], []⟩,
  ⟨"STR_FAULT", 0xA1020, 0x40, 128, [], [(4, 0)], [], [(63, 48), (47, 40)], []⟩]

/-- The COR window (R189), offsets within the window. -/
def regRowsCor : List RegRow := [
  ⟨"COR_STATE", 0x0, 0x0, 1, [], [], [], [(43, 40), (34, 32), (19, 16), (2, 2), (1, 1), (0, 0)], []⟩,
  ⟨"COR_TRAP_MASK", 0x8, 0x0, 1, [], [], [], [(4, 0)], []⟩,
  ⟨"COR_FAULT", 0x10, 0x0, 1, [], [(47, 47)], [], [(63, 48), (46, 45), (44, 42), (11, 0)], []⟩,
  ⟨"COR_PC", 0x18, 0x0, 1, [], [], [], [(13, 12), (11, 0)], []⟩,
  ⟨"COR_STALL", 0x20, 0x8, 4, [], [], [(63, 0)], [], []⟩,
  ⟨"COR_TEN_CS_BASE", 0x40, 0x10, 4, [], [], [], [(40, 40), (39, 32), (20, 0)], []⟩,
  ⟨"COR_TEN_CS_SIZE", 0x48, 0x10, 4, [], [], [], [(21, 0)], []⟩,
  ⟨"COR_PROG_CTRL", 0x100, 0x0, 1, [], [], [], [], []⟩,
  ⟨"COR_PROG_ADDR", 0x108, 0x0, 1, [(63, 3)], [], [], [], []⟩,
  ⟨"COR_PROG_LEN", 0x110, 0x0, 1, [(31, 0)], [], [], [], []⟩,
  ⟨"COR_PROG_STATUS", 0x118, 0x0, 1, [(47, 32)], [], [], [(15, 8), (7, 5), (1, 0)], [(47, 32)]⟩,
  ⟨"COR_PROG_HASH", 0x120, 0x8, 6, [], [], [], [(63, 0)], []⟩,
  ⟨"COR_VMAP", 0x200, 0x8, 64, [], [], [], [(63, 0)], []⟩]

/-- FAB_VC_CREDIT_v of a port window (R267). -/
def vcCreditOff (n v : Nat) : Nat := 0x70100 + 0x1000 * n + v * 8

/-- The rows of the block that holds `off`. -/
def blockRows (off : Nat) : List RegRow :=
  match off / 0x10000 with
  | 0 => regRowsMod | 1 => regRowsTun | 2 => regRowsClk | 3 => regRowsPwr | 4 => regRowsSec
  | 5 => regRowsStm | 6 => regRowsGrx | 7 => regRowsFab | 8 => regRowsStk | 9 => regRowsDbg
  | 10 => regRowsStr | _ => []

/-- The row of an offset and the instance it names. -/
def findRow : List RegRow → Nat → Option (RegRow × Nat)
  | [], _ => none
  | r :: t, off =>
    if r.stride = 0 then (if off = r.base then some (r, 0) else findRow t off)
    else if decide (r.base ≤ off) && decide (lessBy off r.base % r.stride = 0) && decide (instNo off r.base r.stride < r.count)
    then some (r, instNo off r.base r.stride) else findRow t off

/-- The register at a BAR0 offset; `none` where none is defined (R16). -/
def regAt (off : Nat) : Option (RegRow × Nat) :=
  if 0x1000000 ≤ off && off < 0x2000000 then findRow regRowsCor (off % 0x10000)
  else findRow (blockRows off) off

/-- The mask of a list of fields. -/
def fieldsMask : List (Nat × Nat) → W64
  | [] => 0
  | f :: t => fmask f.1 f.2 ||| fieldsMask t

/-- Every bit that a read of the row can return (R12, R14). -/
def RegRow.readMask (r : RegRow) : W64 := fieldsMask (r.rw ++ r.w1c ++ r.rc ++ r.ro)

/-- Reset values other than zero that the register tables state (R267, R338, R357). -/
def regReset (key : Nat) : W64 :=
  if key = R.PWR_TELEM_CTRL then 0x3E800000000
  else if key = R.FAB_E2E_TIMEOUT then 100
  else if key = R.CLK_TIME_CTRL then 2
  else if 0x7F400 ≤ key && key < 0x7F800 then 0xF0000
  else if 0x21000 ≤ key && key < 0x21400 && key % 0x40 = 8 then 63
  else 0

end Sys2Proof.Machine
end

