-- ==== Sys2Proof/Machine/Layout.lean ====
section
/-! DEFINITION. Where things lie: grades, ring, zones and columns of the die, Strings as R43 lays them, the stack regions of R44,
and the default Tuning of R42. -/

namespace Sys2Proof.Machine

/-- The structure in force: every field of R42, masks as bit vectors, counts in the field's unit. -/
structure Tuning where
  cooling : Nat
  setpoint : List Nat
  droneFloor : Nat
  rampUp : Nat
  rampDown : Nat
  seamCut : Nat
  strLens : List Nat
  partCount : Nat
  cores : List (BitVec 256)
  strings : List (BitVec 128)
  residue : Nat
  shared : Nat
  base : List Nat
  size : List Nat
  swap : List Nat
  guarantee : List Nat
  ceiling : List Nat
  shape : Nat
  extents : Nat
  roles : List Nat
  own : List Nat
  deriving DecidableEq, Repr

/-- One String as laid down (R43, R73 to R75): its frets as global arrays in ring order, and its geometry. -/
structure StrGeom where
  frets : List Nat
  nutPos : Nat
  bridgePos : Nat
  bypass : Nat
  zoneCross : Nat
  seam : Bool
  efs : List Nat
  deriving DecidableEq, Repr

/-! ## The die (R1, R8) -/

/-- Enabled cores of a grade code (R1, R5). -/
def gradeCores : Nat → Nat | 1 => 256 | 2 => 240 | _ => 224
/-- Stack layers of a grade code (R1, R5). -/
def gradeLayers : Nat → Nat | 3 => 2 | _ => 4
/-- Bytes of a stack column: 48 MiB a layer (R191). -/
def columnBytes (grade : Nat) : Nat := 50331648 * (gradeLayers grade)
/-- Stack bytes (R1). -/
def stackBytes (grade : Nat) : Nat := 64 * columnBytes grade
/-- Units of 64 MiB in the stack. -/
def stackUnits (grade : Nat) : Nat := stackBytes grade / 67108864

def coreRow (c : Nat) : Nat := c / 16
def coreCol (c : Nat) : Nat := c % 16
/-- Clock zone of a core (R8). -/
def coreZone (c : Nat) : Nat := coreRow c / 4 * 4 + coreCol c / 4
/-- Stack column above which a core lies (R8). -/
def coreColumn (c : Nat) : Nat := coreRow c / 2 * 8 + coreCol c / 2

/-- Ring position of a global array (R73). -/
def ringPos (g : Nat) : Nat :=
  let c := g / 2
  let row := coreRow c
  let col := coreCol c
  if col < 8 then
    2 * (row * 8 + (if row % 2 = 0 then 7 - col else col)) + g % 2
  else
    let q := 15 - row
    256 + 2 * (q * 8 + (if q % 2 = 0 then col - 8 else 15 - col)) + g % 2

/-- Global array at a ring position (R73). -/
def ringArr (p : Nat) : Nat :=
  let a := p % 2
  if p < 256 then
    let h := p / 2
    let row := h / 8
    let k := h % 8
    2 * (row * 16 + (if row % 2 = 0 then 7 - k else k)) + a
  else
    let h := (p - 256) / 2
    let q := h / 8
    let k := h % 8
    2 * ((15 - q) * 16 + (if q % 2 = 0 then 8 + k else 15 - k)) + a

/-! ## Strings (R43, R73 to R75) -/

/-- A requested length rounded to a multiple of 4 between 4 and 64, ties down (R43 step 1). -/
def strRound (n : Nat) : Nat :=
  let r := if n % 4 ≤ 2 then n - n % 4 else n - n % 4 + 4
  if r < 4 then 4 else if r > 64 then 64 else r

/-- One laid String and the positions that remain. -/
def takeString (n : Nat) (run rest : List Nat) : List Nat × List Nat :=
  let k := min n (run.length / 4 * 4)
  (run.take k, rest.drop k)

/-- Ring positions of the String that each length entry forms, empty for none (R43): `en` holds the enabled positions left. -/
def layStrings (seam : Bool) : List Nat → List Nat → List (List Nat)
  | [], _ => []
  | n :: ls, en =>
    let west := seam && decide (en.headD 512 < 256)
    let run := if west then en.takeWhile (fun p => decide (p < 256)) else en
    if 4 ≤ run.length then
      let r := takeString n run en
      r.1 :: layStrings seam ls r.2
    else if west then
      let en' := en.dropWhile (fun p => decide (p < 256))
      if 4 ≤ en'.length then
        let r := takeString n en' en'
        r.1 :: layStrings seam ls r.2
      else [] :: layStrings seam ls en'
    else [] :: layStrings seam ls en

/-- Enabled ring positions in ring order. -/
def enabledPos (disabled : List Nat) : List Nat :=
  (List.range 512).filter (fun p => !disabled.contains (ringArr p / 2))

/-- Zone boundaries crossed between ring positions `a` and `a + n`, the seam counted twice (R81). -/
def crossings (a : Nat) : Nat → Nat
  | 0 => 0
  | n + 1 =>
    (if a = 255 then 2 else if coreZone (ringArr a / 2) = coreZone (ringArr (a + 1) / 2) then 0 else 1) + crossings (a + 1) n

/-- The geometry of a String from the ring positions of its frets (R75, R81). -/
def geomOf (ps : List Nat) : StrGeom :=
  let n := ps.headD 0
  let b := ps.getLastD 0
  { frets := ps.map ringArr
    nutPos := n
    bridgePos := b
    bypass := (b - n) + 1 - ps.length
    zoneCross := crossings n (b - n)
    seam := decide (n < 256) && decide (256 ≤ b)
    efs := (List.range ps.length).map (fun f =>
      let p := ps.getD f 0
      2 * ((p - n) - f) + 2 * crossings n (p - n)) }

/-- Every String of a structure. -/
def layGeom (t : Tuning) (disabled : List Nat) : List StrGeom :=
  ((layStrings (t.seamCut != 0) t.strLens (enabledPos disabled)).filter (fun l => !l.isEmpty)).map geomOf

/-- Does a Capo stand before ring position `p` (R74): position 0, the first fret of a String, and the first enabled array after one. -/
def capoAt (geom : List StrGeom) (disabled : List Nat) (p : Nat) : Bool :=
  p = 0 || geom.any (fun g => g.nutPos = p) ||
  geom.any (fun g => decide (g.bridgePos < p) && !disabled.contains (ringArr p / 2) &&
    (List.range p).all (fun q => decide (q ≤ g.bridgePos) || disabled.contains (ringArr q / 2)))

/-! ## The stack (R44, R191, R192) -/

/-- First unit above the partition space (R44). -/
def spaceTop (grade res sh : Nat) : Nat := stackUnits grade - 1 - res - sh

/-! ## The default Tuning (R42, R57) -/

/-- The mask of every enabled core. -/
def allCores (disabled : List Nat) : BitVec 256 :=
  BitVec.ofNat 256 ((List.range 256).foldl (fun a c => if disabled.contains c then a else a + 2 ^ c) 0)

/-- The first `n` bits set. -/
def lowMask (n : Nat) : Nat := 2 ^ n - 1

/-- Default roles of a shape (R45). -/
def defaultRoles : Nat → List Nat
  | 1 => [1, 2, 9, 10, 0, 0, 0, 0, 0, 0, 0, 0]
  | 2 => [1, 2, 3, 4, 5, 6, 9, 10, 11, 12, 13, 14]
  | 3 => [1, 2, 3, 4, 5, 6, 7, 8, 9, 10, 11, 12]
  | _ => [0, 0, 0, 0, 0, 0, 0, 0, 0, 0, 0, 0]

/-- The default structure of a part: every field at its table default (R42, R57). -/
def defaultTuning (grade : Nat) (disabled : List Nat) : Tuning :=
  let en := enabledPos disabled
  let laid := (layStrings true (List.replicate 32 16) en).map List.length
  { cooling := 0
    setpoint := List.replicate 16 640
    droneFloor := 50
    rampUp := 400
    rampDown := 400
    seamCut := 1
    strLens := laid
    partCount := 1
    cores := [allCores disabled]
    strings := [BitVec.ofNat 128 (lowMask (laid.filter (fun n => n != 0)).length)]
    residue := 8
    shared := 4
    base := [0]
    size := [spaceTop grade 8 4]
    swap := [0]
    guarantee := [100]
    ceiling := [100]
    shape := 0
    extents := 0
    roles := defaultRoles 0
    own := [] }

end Sys2Proof.Machine
end

