-- ==== Sys2Proof/Machine/State.lean ====
section
/-! DEFINITION. The state of the module, as plain data, and the state after reset. -/

namespace Sys2Proof.Machine

/-! ## Part, flash, functions -/

/-- The power phase of the module (14 R342 to R344, R351; 18 R417, R425). -/
inductive Phase where
  | off          -- no 54 V
  | charging     -- hold-up bank charging (R342)
  | inrushWait   -- after an inrush fault (R342)
  | boot         -- die powered, MOD_STATUS BOOTING
  | bootHold     -- held without REF_OK (R417)
  | training     -- lane training (R417)
  | run          -- READY
  | warm         -- warm reset under way (R418)
  | stopping     -- orderly stop (R343)
  | retention    -- stack retention only (R343)
  | stopped      -- commanded stop reached STOPPED (R425)
  | tripped      -- thermal trip (R351)
  | failed       -- BOOT_FAILED (R361)
  deriving DecidableEq, Repr

/-- What manufacture fixed (R1, R2, R358, R359): grade code, fused cores, secrets and certificates; and the SLOT_ID pins (R438). -/
structure Part where
  grade : Nat
  fused : List Nat
  serial : Nat
  seed : List Byte
  rootDigest : List Byte
  caCert : List Byte
  devCert : List Byte
  svnFuses : Nat
  slotId : Nat
  deriving DecidableEq, Repr

/-- A fault record before it is laid out as bytes (R398). -/
structure FaultRec where
  seq : Nat
  time : Nat
  code : Nat
  kind : Nat
  part : Nat
  block : Nat
  loc : Nat
  step : Nat
  stream : Nat
  tag : Nat
  detail : Nat
  count : Nat
  deriving DecidableEq, Repr

/-- A firmware bank (R361): whether its root key, certificate, header signature and payload digest verify, its SVN, the digests of its
payload and of its signing certificate. -/
structure Bank where
  valid : Bool
  svn : Nat
  digest : List Byte
  cert : List Byte
  deriving DecidableEq, Repr

/-- A lock record (R366, R367): owner key, counter, vault offset. -/
structure LockRec where
  owner : List Byte
  counter : Nat
  vault : Nat
  deriving DecidableEq, Repr

/-- One zone of an ageing plan record (R355): largest change in mV, headroom, ageing cap in units of 10 MHz, slowdown in ppm. -/
structure PlanZone where
  change : Int
  room : Nat
  cap : Nat
  slow : Nat
  deriving DecidableEq, Repr

/-- An ageing plan record (R355). -/
structure PlanRec where
  plan : Nat
  hours : Nat
  time : Nat
  cls : Nat
  cause : Nat
  left : Nat
  zones : List PlanZone
  deriving DecidableEq, Repr

/-- Module flash (R212, R350, R353 to R355, R361, R366, R401, R405): repair map and its CRC, quarantine list and the powered hour of each core's
last CORE_HW_FAULT, firmware banks, lock records, fault log, powered hours, voltage-frequency tables where they differ from the
factory's, ageing caps, plan records and their count, WORST histograms, slowdown of each zone in ppm. -/
structure Flash where
  repair : Tbl Nat
  repairCrc : Nat
  quarantine : List Nat
  hwErr : Tbl (Option Nat)
  banks : List Bank
  bank : Nat
  locks : Tbl LockRec
  faults : List FaultRec
  hours : Nat
  volts : Tbl (Option Nat)
  ageCap : Tbl Nat
  plans : List PlanRec
  planCount : Nat
  hist : Tbl Nat
  slow : Tbl Nat
  deriving DecidableEq, Repr

/-- What a function holds beside its registers (R381, R383): D3hot, Bus Master Enable clear since an FLR, and the mailbox command that
runs: its response is to be discarded, its code, its response (R378), or its request while it waits for the management core (R20). -/
structure FnSt where
  d3 : Bool := false
  noBusMaster : Bool := false
  mbBusy : Bool := false
  mbDiscard : Bool := false
  mbCode : Nat := 0
  mbRsp : List Byte := []
  mbHeld : Option (List Byte) := none
  deriving DecidableEq, Repr

/-- One MSI-X table entry by global vector (R389, R391); `behind` is the function whose completion records a merged message follows (R237). -/
structure MsixEnt where
  addr : Nat := 0
  data : Nat := 0
  unmasked : Bool := false
  pba : Bool := false
  lastSent : Option Nat := none
  merge : Bool := false
  behind : Nat := 0
  deriving DecidableEq, Repr

/-- An open record of R400 and the TIME at which its interval ends. -/
structure OpenRec where
  fr : FaultRec
  until_ : Nat
  deriving DecidableEq, Repr

/-- The fault log (R398 to R401). -/
structure FaultLog where
  seq : Nat
  onDie : List FaultRec
  opens : List OpenRec
  deriving DecidableEq, Repr

/-! ## Tuning -/

/-- A clamp-report entry (R47). -/
structure RepEnt where
  field : Nat
  inst : Nat
  reason : Nat
  causeId : Nat
  causeInst : Nat
  word : Nat
  requested : Nat
  applied : Nat
  deriving DecidableEq, Repr

/-- A run-time claim on a shared resource (R50): the value in the layout of an OWN record. -/
structure Claim where
  res : Nat
  value : Nat
  deriving DecidableEq, Repr

/-- What waits for the management core, which serves one thing at a time in order of arrival (R20, R354, R378): a re-plan by its cause, a Tuning load
(from the bus or the physical function, CHECK_ONLY, its bytes), a function's mailbox command. -/
inductive Job where
  | plan (cause : Nat)
  | load (bus chk : Bool) (bytes : List Byte)
  | box (fn : Nat)
  deriving DecidableEq, Repr

/-- What Tuning adds to the state beside its registers (R48, R50, R54, R56, R439): `busLoad` when the load under way came from the bus;
the IMAGE_ID of the last image committed (R37); what waits for the management core. -/
structure TunSt where
  cur : Tuning
  geom : List StrGeom
  disabled : List Nat
  runtime : List Claim
  zeroising : List Nat
  oldRegions : List (Nat × Nat × Nat)
  oldCores : List Nat
  busBuf : Mem
  busReport : List RepEnt
  busLoad : Bool
  endCode : Nat
  imageId : Nat
  jobs : List Job
  deriving DecidableEq, Repr

/-! ## Arrays and Strings -/

/-- A row map (R71): the window base and size, and, per cell group, the mask byte and source group. -/
structure RowMap where
  base : Nat
  groups : Nat
  entries : List (Option (Nat × Nat))
  deriving DecidableEq, Repr

/-- A stationary tile as it stands in an input slot (R60, R63, R70): element codes and scale codes by cell row. -/
structure Tile where
  fmt : Fmt
  depth : Nat
  rows : List (List Nat)
  scales : List (List Nat)
  map : RowMap
  deriving DecidableEq, Repr

/-- The shadow slot (R64): free, loading, loaded. -/
inductive ShSt where
  | free | loading | loaded
  deriving DecidableEq, Repr

/-- Group states of R67. -/
inductive GSt where
  | closed | preloaded | open_ | done | draining
  deriving DecidableEq, Repr

/-- An accumulator group (R66, R67, R113, R116): values and peaks by row * 1024 + entry; `closing` while the last slice of a tile with CLOSE has
yet to commit, and `bow` when that tile is a Bow's and not a COL's (R91); `depth` of the tile that opened it in column mode (R63). -/
structure Group where
  st : GSt := .closed
  count : Nat := 0
  used : Nat := 0
  vals : Tbl A40 := []
  peaks : Tbl Nat := []
  map : Option RowMap := none
  column : Bool := false
  depth : Nat := 96
  closing : Bool := false
  bow : Bool := false
  deriving DecidableEq, Repr

/-- Where a write-back in progress writes (R69). -/
inductive WbTo where
  | store (off : Nat)
  | queue (q : Fin 16)
  deriving DecidableEq, Repr

/-- A write-back in progress (R69): group, destination, format, status slot, gradient layer (R133). -/
structure WbOp where
  group : Nat
  dst : WbTo
  fmt : Fmt
  st : Nat
  grad : Option Nat
  bundle : Nat
  deriving DecidableEq, Repr

/-- A preload in progress (R68). -/
structure PreOp where
  group : Nat
  vals : List (List A40)
  deriving DecidableEq, Repr

/-- One array (R60). -/
structure Arr where
  split : Nat := 0
  active : Option Tile := none
  shadow : Option Tile := none
  sh : ShSt := .free
  nextGroup : Option Nat := none
  groups : Tbl Group := []
  wb : Option WbOp := none
  pre : Option PreOp := none
  deriving DecidableEq, Repr

/-- A Bow descriptor held by a Nut, with its issuer (R77, R78). -/
structure BowEnt where
  desc : Nat
  st : Nat
  core : Nat
  tenant : Nat
  part : Nat
  bundle : Nat
  deriving DecidableEq, Repr

/-- The Bow in progress (R83, R84). -/
structure CurBow where
  ent : BowEnt
  bow : Nat
  slice : Nat
  started : Bool
  deriving DecidableEq, Repr

/-- STR_RUN STATE values (R94). -/
inductive StrRun where
  | idle | run | wait | drain | sum | fault
  deriving DecidableEq, Repr

/-- One String (R76, R83, R84, R94). -/
structure Str where
  run : StrRun := .idle
  cause : Nat := 0
  tag : Nat := 0
  slice : Nat := 0
  bowNo : Nat := 0
  waiting : List BowEnt := []
  cur : Option CurBow := none
  wrap : List (List Byte) := []
  prevMode : Option (Nat × Nat) := none
  deriving DecidableEq, Repr

/-! ## Cores -/

/-- COR_STATE RUN values (R189). -/
inductive RunSt where
  | idle | run | wait | stall | fault | swap
  deriving DecidableEq, Repr

/-- One request of a fetch queue (R172); `poison` is the code with which its poisoned data faults (R196, R214). -/
structure FReq where
  id : Nat
  off : Nat
  len : Nat
  got : Nat
  taken : Nat
  arrived : Bool
  stream : Option Nat := none
  poison : Option Nat := none
  deriving DecidableEq, Repr

/-- A fetch queue (R172): ring, mode, requests oldest first. -/
structure FQ where
  base : Nat := 0
  size : Nat := 0
  remote : Option Nat := none
  nextId : Nat := 0
  nextOff : Nat := 0
  reqs : List FReq := []
  deriving DecidableEq, Repr

/-- Where the data of a put goes (R172): the mesh, a stream, a REMOTE queue of a core; `unnamed` for array outputs sent to a put
queue, whose destination the manual does not state (log 16). -/
inductive PutDst where
  | mesh
  | stream (idx : Nat)
  | remote (core q : Nat)
  | unnamed
  deriving DecidableEq, Repr

/-- One request of a put queue (R172): its source bytes as read, and whether it still waits at the producer for room. -/
structure PReq where
  id : Nat
  len : Nat
  dst : PutDst
  waiting : Bool
  data : List Byte
  deriving DecidableEq, Repr

/-- A put queue (R172). -/
structure PQ where
  nextId : Nat := 0
  reqs : List PReq := []
  deriving DecidableEq, Repr

/-- A range of the scoreboard's range table (R173). -/
structure Range where
  lo : Nat
  len : Nat
  write : Bool
  kind : Nat
  deriving DecidableEq, Repr

/-- A tenant register set (R186, R189). -/
structure TenReg where
  vcore : Nat
  base : Nat
  size : Nat
  live : Nat
  trap : Nat
  code : Nat
  bundles : Nat
  deriving DecidableEq, Repr

/-- Where the matrix of a matrix-vector operation comes from (R158). -/
inductive MvSrc where
  | store (off : Nat)
  | queue (q : Nat)
  deriving DecidableEq, Repr

/-- Matrix-vector descriptor (R158): raw fields, so that an illegal one can be written. -/
structure MvDesc where
  mode : Nat
  shape : Nat
  vectors : Nat
  rows : Nat
  depth : Nat
  matFmt : Nat
  vecFmt : Nat
  src : MvSrc
  matScale : Nat
  vecAddr : Nat
  vecStride : Nat
  cont : Bool
  outFmt : Nat
  outAddr : Nat
  outScale : Nat
  deriving DecidableEq, Repr

/-- A matrix-vector operation in progress (R158, R161): its vectors as read at the start, the matrix bytes taken so far (R172), gradient layer
(R133). -/
structure MvOp where
  desc : MvDesc
  st : Nat
  grad : Option Nat
  vecs : List (List Byte)
  mat : List Byte
  bundle : Nat
  deriving DecidableEq, Repr

/-- An instruction in a unit's queue (R166): issue number and index of its bundle. -/
structure QEnt where
  seq : Nat
  pc : Nat
  op : SlotOp
  deriving DecidableEq, Repr

/-- A mesh request outstanding at a core, by tag (R222): fetch queue or put queue, request, offset; `more` holds the requests merged into its
packet (R226), as (request, offset, bytes); `dst` its destination endpoint, kind and router; `line` the shared-cache line that it names, `ord` its
place in issue order (R206); `taken` once the destination has taken it and its credit is back (R222); `spec` what an atomic does. -/
structure MeshReq where
  core : Nat
  put : Bool
  q : Nat
  id : Nat
  off : Nat
  len : Nat
  more : List (Nat × Nat × Nat) := []
  dst : Nat × Nat := (0, 0)
  line : Option Nat := none
  ord : Nat := 0
  taken : Bool := false
  spec : Option AtomSpec := none
  deriving DecidableEq, Repr

/-- One core (R164, R166, R173, R183). `ending` once a bundle with END has issued (R165); `feed` holds, by slot, the queue bytes that the
instruction at the head of a unit has taken so far (R172). -/
structure Core where
  run : RunSt := .idle
  tenant : Nat := 0
  pc : Nat := 0
  ending : Bool := false
  ended : Bool := false
  trap : Nat := 0
  gr : Tbl W64 := []
  vr : Tbl (BitVec 8192) := []
  st : Tbl W64 := []
  lc : Tbl Nat := []
  vstat : W64 := 0
  fq : Tbl FQ := []
  pq : Tbl PQ := []
  uq : Tbl (List QEnt) := []
  feed : Tbl (List Byte) := []
  seq : Nat := 0
  branching : Bool := false
  apend : List RegRef := []
  ranges : List Range := []
  store : Mem := []
  istore : Tbl (BitVec 256) := []
  tens : Tbl (Option TenReg) := []
  mv : Option MvOp := none
  acc : Tbl A40 := []
  accPeak : Tbl Nat := []
  accCount : Nat := 0
  accOpen : Bool := false
  mwait : List (Packet × MeshReq) := []
  deriving DecidableEq, Repr

/-! ## Programs, steps and stash -/

/-- A VCORE entry with its placement (R185, R186). -/
structure VCore where
  code : Nat
  bundles : Nat
  unit : Nat
  trap : Nat
  size : Nat
  live : Nat
  initOff : Nat
  initLen : Nat
  phys : Nat
  tenant : Nat
  csBase : Nat
  deriving DecidableEq, Repr

/-- A VSTRING entry with its placement (R185). -/
structure VStr where
  len : Nat
  seamOk : Bool
  phys : Nat
  deriving DecidableEq, Repr

/-- A SEGMENT entry (R186). -/
structure Segment where
  base : Nat
  size : Nat
  access : Nat
  kind : Nat
  deriving DecidableEq, Repr

/-- A slot entry of the schedule table (R144). -/
structure SlotEnt where
  typ : Nat
  stage : Nat
  ctx : Nat
  variant : Bool
  layerFirst : Nat
  layerCount : Nat
  entry : Nat
  blocks : Nat
  pair : Nat
  waitStream : Option Nat
  waitCount : Nat
  alt : Nat
  tag : Nat
  deriving DecidableEq, Repr

/-- The schedule table (R143). -/
structure Sched where
  mainSlots : Nat
  slots : List SlotEnt
  layers : Nat
  stashBase : Nat
  stashBlocks : Nat
  watchdogMs : Nat
  layerTable : Nat
  status : Nat
  deriving DecidableEq, Repr

/-- The header of the GROUP section (R269). -/
structure GrpHdr where
  dims : Nat := 0
  policy : Nat := 0
  epochAddr : Nat := 0
  base0 : Nat := 0
  base1 : Nat := 0
  size : Nat := 0
  deriving DecidableEq, Repr

/-- A reduction-group entry of the GROUP section (R269). -/
structure GroupDef where
  slot : Nat
  dims : Nat
  initScale : Nat
  first : Nat
  blocks : Nat
  feed : Nat
  enc : Nat
  result : Nat
  deriving DecidableEq, Repr

/-- A swap area (R208, R209): its core, its column, and its 4 KiB pages within the column's part of the swap region. -/
structure SwArea where
  id : Nat
  core : Nat
  col : Nat
  pages : List Nat
  deriving DecidableEq, Repr

/-- A context that is not resident (R33, R184, R208): its area, the bytes of core store that it holds there, and the states, counts and splits of
its groups, whose values stand in the area behind those bytes; `beside` when the area has no room for them (log 30). -/
structure SavedCtx where
  area : Nat
  bytes : Nat
  groups : Tbl Group
  beside : Bool
  split0 : Nat
  split1 : Nat
  deriving DecidableEq, Repr

/-- A loaded program (R185 to R188). -/
structure Prog where
  addr : Nat
  len : Nat
  hash : List Byte
  vcores : List VCore
  vstrs : List VStr
  segs : List Segment
  sched : Sched
  codeOff : Nat
  initOff : Nat
  hdr : Option GrpHdr
  groups : List GroupDef
  watchdog : Bool
  epoch : Nat
  stepNo : Nat
  unloadReq : Bool
  deriving DecidableEq, Repr

/-- The step of a partition (R138 to R149). -/
structure Step where
  active : Bool := false
  begun : Nat := 0
  epoch0 : Nat := 0
  run : Option (Nat × Nat) := none
  issued : Tbl Nat := []
  done : List Nat := []
  fallback : List Nat := []
  waiting : Option Nat := none
  waitSince : Nat := 0
  stallNs : Nat := 0
  stallLogged : Bool := false
  deadT0 : Option Nat := none
  dlHeld : Bool := false
  wdHeld : Bool := false
  held : List (Nat × List Nat) := []
  peak : Nat := 0
  issuedCount : Nat := 0
  ready : Bool := false
  aborted : Option Nat := none
  faultSlot : Nat := 0xFFFFFFFF
  outcome : Nat := 0
  accepted0 : Tbl Nat := []
  stats : List Nat := []
  deriving DecidableEq, Repr

/-- A unit of a fold (R183): the round it runs and whether its fold swap is under way. -/
structure UnitRun where
  round : Nat := 0
  swapping : Bool := false
  finished : Bool := false
  deriving DecidableEq, Repr

/-- A partition at run time (R32, R138, R188): its programs, the one that runs, contexts saved and their areas, the program whose contexts stand in
each core, the programs in load order, and DRONE_FLOOR as it was when the present interval between steps began (R348). -/
structure PartSt where
  progs : Tbl (Option Prog) := []
  loading : Option (Nat × Prog) := none
  cur : Option Nat := none
  swapTo : Option Nat := none
  betweenSteps : Bool := true
  floorPct : Nat := 50
  step : Step := {}
  units : Tbl UnitRun := []
  saved : Tbl SavedCtx := []
  areas : List SwArea := []
  resid : Tbl (Option Nat) := []
  order : List Nat := []
  deriving DecidableEq, Repr

/-! ## Stack, shared cache, mesh -/

/-- A column port (R196, R212 to R214): training state, repairs, corrected bits by lane, fence. -/
structure Col where
  st : Nat := 0
  spares : Tbl Nat := []
  used : Nat := 0
  corrected : Tbl Nat := []
  suspect : Option Nat := none
  fenced : Bool := false
  training : Bool := false
  deriving DecidableEq, Repr

/-- The regulators of one direction of a column port (R200): buckets by partition, partition last served by step 2 and by step 3. -/
structure Reg where
  guar : Tbl Nat := []
  ceil : Tbl Nat := []
  last2 : Nat := 15
  last3 : Nat := 15
  deriving DecidableEq, Repr

/-- A shared-cache line (R204). -/
structure Line where
  part : Nat
  dirty : Bool
  data : List Byte
  lru : Nat
  deriving DecidableEq, Repr

/-- The stack and what fronts it (R191 to R214): `errs` the errors that stand in it unread, by sector (R196); `owed` the slots that accesses have
yet to take, by column, direction and partition (R194, R202). -/
structure StackSt where
  bytes : Mem
  poison : Tbl Bool
  errs : Tbl Ecc
  owed : Tbl Nat
  cols : Tbl Col
  rd : Tbl Reg
  wr : Tbl Reg
  lines : Tbl (Option Line)
  lruClock : Nat
  flush : List Nat
  deriving DecidableEq, Repr

/-! ## Streams -/

/-- A Stream Table entry (R230) without its raw reserved bytes. -/
structure StrEnt where
  ring : Nat := 0
  compl : Nat := 0
  producer : Nat := 0
  accepted : Nat := 0
  completed : Nat := 0
  consumed : Nat := 0
  gen : Nat := 0
  log2 : Nat := 0
  cls : Nat := 0
  kind : Nat := 0
  flags : Nat := 0
  prefetch : Nat := 0
  vc : Nat := 0
  key : Nat := 0
  oldLimit : Nat := 0
  shRing : Nat := 0
  shCompl : Nat := 0
  shLog2 : Nat := 0
  vector : Nat := 0
  peer : Nat := 0
  mcast : Nat := 0
  peerStream : Nat := 0
  timedRes : Nat := 0
  txSeq : Nat := 0
  rxSeq : Nat := 0
  journal : Nat := 0
  bytesDone : Nat := 0
  deriving DecidableEq, Repr

/-- A descriptor of R232. -/
structure Desc where
  host : Nat
  stack : Nat
  len : Nat
  flags : Nat
  codec : Nat
  tag : Nat
  deriving DecidableEq, Repr

/-- A descriptor in flight (R231, R234): finished or not, with its STATUS, BYTES and finish time; the sequence number of its first
unit (R257) and units sent, or bytes delivered into its buffer and bytes fetched from it (R236); all sent, or all delivered; resent after
its timed path broke (R264). -/
structure Flight where
  idx : Nat
  desc : Desc
  fin : Bool := false
  status : Nat := 0
  bytes : Nat := 0
  time : Nat := 0
  seq0 : Nat := 0
  del : Nat := 0
  used : Nat := 0
  landed : Bool := false
  late : Bool := false
  deriving DecidableEq, Repr

/-- A journal as the engine keeps it (R306, R307): writes made, REC_DONE, the write in flight with what it carries, the sequence
number last journaled, and whether a change waits for the next write. -/
structure Jrn where
  count : Nat := 0
  recDone : Nat := 0
  writing : Bool := false
  dirty : Bool := false
  wAccepted : Nat := 0
  wCompleted : Nat := 0
  wSeq : Nat := 0
  jSeq : Nat := 0
  deriving DecidableEq, Repr

/-- End-to-end state of a fabric stream (R257, R262, R264): the advertised free descriptors, the last advance of the acknowledgement and
the resend held for R315, units received since the last acknowledgement; the timed bucket in 816ths of a message and when it was counted; acceptance
suspended, the peer reported unreachable (R255), a link of the admitted path encrypted (R261). -/
structure E2E where
  advert : Nat := 0
  lastAdvance : Option Nat := none
  held : Option Nat := none
  got : Nat := 0
  tokens : Nat := 0
  tokAt : Nat := 0
  suspended : Bool := false
  told : Bool := false
  crypt : Bool := false
  deriving DecidableEq, Repr

/-- What the engine holds of one stream beside its entry: descriptors in flight, acceptances that wait for the journal (R301), the
descriptor buffer (R234), fetches that wait for the journal (R307: core, queue, request), the message being received with its first
sequence number, and units kept until acknowledged (R257). -/
structure StrRt where
  flights : List Flight := []
  pend : List Flight := []
  pre : List (Nat × Desc) := []
  jrn : Jrn := {}
  e2e : E2E := {}
  cons : List (Nat × Nat × Nat) := []
  msg : List Byte := []
  msgSeq : Nat := 0
  held : List LinkUnit := []
  deriving DecidableEq, Repr

/-- States of a context (R241). -/
inductive CtxSt where
  | valid | evicting
  deriving DecidableEq, Repr

/-- A context of the context cache (R241). -/
structure Ctx where
  ent : StrEnt
  st : CtxSt
  dirty : Bool
  lru : Nat
  deriving DecidableEq, Repr

/-- A command waiting for the engine (R239). -/
structure StmCmd where
  fn : Nat
  op : Nat
  idx : Nat
  image : List Byte
  deriving DecidableEq, Repr

/-- The stream engine (R227 to R242, R300 to R310): table entries as the table holds them (those in host memory), contexts,
pending map, what it holds of each stream, and the command that runs, which `noCtx` says waits for a context (R242). -/
structure StmSt where
  table : Tbl StrEnt
  ctxs : Tbl (Option Ctx)
  capacity : Nat
  lruClock : Nat
  pending : Tbl Bool
  rt : Tbl StrRt
  recParts : List Nat
  cmd : Option StmCmd
  noCtx : Bool
  cmdWait : List StmCmd
  lastFn : Nat
  deriving DecidableEq, Repr

/-- What the module puts on its wires: the model's own trace, oldest first. -/
inductive Out where
  | msix (vec addr data : Nat)
  | host (fn addr : Nat) (data : List Byte)
  | hostRead (fn addr len : Nat)
  | mesh (p : Packet)
  | bar (ok : Nat) (data : List Byte)
  | mgmt (status : Nat) (data : List Byte)
  | pin (name : Nat) (level : Bool)
  | jtag (extest : Bool)
  | fab (port : Nat) (m : Msg)
  | unit (port : Nat) (w : UnitWire)
  deriving DecidableEq, Repr

/-! ## Fabric -/

/-- One virtual channel of a port (R252, R256). Sender: credits, next LSEQ, replay buffer, replays of its oldest unit, units that wait for
a credit. Receiver: expected LSEQ, a NAK sent, units held, credits to return; on timed channels, whether the second copy of a unit comes
next and whether the first was good (R259), and the units of the shared pool lent to the neighbour (R252, R311). -/
structure Vc where
  credits : Nat := 0
  txSeq : Nat := 0
  replay : List (Nat × Msg) := []
  replays : Nat := 0
  rxSeq : Nat := 0
  nak : Bool := false
  txq : List Msg := []
  buf : List LinkUnit := []
  owed : Nat := 0
  second : Bool := false
  firstOk : Bool := false
  lent : Nat := 0
  deriving DecidableEq, Repr

/-- A hold of R260 at a sending port: admission, slots, start, committed, deadline effect held. -/
structure Hold where
  adm : AdmMsg
  fromPort : Option Nat
  slots : List Nat
  start : Nat
  committed : Bool
  due : Bool
  deriving DecidableEq, Repr

/-- A port (R249, R256, R265): among the rest the link key with its epoch, and the units sent and received under it. -/
structure Port where
  st : Nat := 0
  lanes : Nat := 0
  crypt : Bool := false
  timedOk : Bool := false
  neighbour : Nat := 0
  signal : Bool := false
  identOk : Bool := false
  fails : List Nat := []
  keyEpoch : Nat := 0
  key : List Byte := []
  txCtr : Nat := 0
  rxCtr : Nat := 0
  vcs : Tbl Vc := []
  slots : List Nat := []
  deriving DecidableEq, Repr

/-- The fabric block (R253, R255, R260): ports, broken links known, holds, acknowledged sequences of multicast branches and, by group, this module's own units that wait for every branch (R258). -/
structure FabSt where
  ports : Tbl Port
  broken : List (Nat × Nat × Bool)
  holds : List (Nat × Hold)
  nextRes : Nat
  mcastAck : Tbl Nat
  mcastQ : Tbl (List LinkUnit)
  deriving DecidableEq, Repr

/-! ## Gradient exchange and seal -/

/-- A group slot (R268 to R288). Records are keyed by level, direction and block offset: this member's contributions, partials that wait
for them, records that wait to leave, and final records. `units` holds the received units of which some block has been neither
forwarded nor applied (port, kind, blocks). Credits and units sent are counted by dimension and direction. -/
structure Grp where
  part : Nat
  prog : Nat
  dims : Nat
  initScale : Nat
  first : Nat
  blocks : Nat
  feed : Nat
  enc : Nat
  result : Nat
  policy : Nat
  step : Nat := 0
  feedNext : Nat := 0
  encNext : Nat := 0
  own : Tbl (Option GRec) := []
  inbox : Tbl (Option GRec) := []
  outq : Tbl (Option GRec) := []
  units : List (Nat × Nat × List Nat) := []
  final : Tbl (Option GRec) := []
  done : Nat := 0
  line : Tbl (Option Nat) := []
  broken : Bool := false
  fp : Option Nat := none
  fpGot : Tbl (Option Nat) := []
  mismatch : Bool := false
  satBlocks : Nat := 0
  poisonBlocks : Nat := 0
  poisonAt : Option (Nat × Nat) := none
  credits : Tbl Nat := []
  sent : Tbl Nat := []
  deriving DecidableEq, Repr

/-- Seal record states (R296, R299). -/
inductive SealRec where
  | none | readySent | pendingSeal | sealed | aborted | flipped
  deriving DecidableEq, Repr

/-- The seal of one program of a partition (R289 to R297): the seal record (which itself stands in the engine's area of the stack and
survives warm reset), the merged READY, children heard, reports for a step not yet begun here, whether READY has left, decisions not yet acknowledged, the root's wait for the
backup, a backup that has become root, and the state of a rejoin, with a step that began without this module (R296). -/
structure SealSt where
  st : SealRec := .none
  recStep : Nat := 0
  recEpoch : Nat := 0
  recBad : Bool := false
  lastSeal : Option Nat := Option.none
  dims : Nat := 0
  merged : Option ReadyMsg := Option.none
  heard : List Nat := []
  early : List (Nat × ReadyMsg) := []
  sent : Bool := false
  unacked : List Nat := []
  asRoot : Bool := false
  waitBackup : Bool := false
  outcome : Nat := 0
  fp : Nat := 0
  rejoin : Bool := false
  undecided : Bool := false
  copying : Bool := false
  sitOut : Option Nat := Option.none
  noPeer : Bool := false
  deriving DecidableEq, Repr

/-- The gradient exchange engine (R268 to R313): groups by slot, seals by partition * 8 + program, Scale Table cache. -/
structure GrxSt where
  grps : Tbl (Option Grp)
  seals : Tbl SealSt
  cacheDirty : Tbl Nat
  deriving DecidableEq, Repr

/-! ## Clocks, power, security, debug, host, management bus, resets -/

/-- One zone generator (R321 to R325, R338): frequencies in MHz. -/
structure ZoneSt where
  locked : Bool := false
  bypass : Bool := false
  target : Nat := 0
  applied : Nat := 0
  alert : Bool := false
  warn : Bool := false
  good : Nat := 0
  stretched : Nat := 0
  cyc : Nat := 0
  owed : Nat := 0
  mv : Nat := 0
  deriving DecidableEq, Repr

/-- TIME states (R333). -/
inductive TimeSt where
  | free | seeded | locked
  deriving DecidableEq, Repr

/-- Clocks and crossings (R319 to R336). -/
structure ClkSt where
  zones : Tbl ZoneSt
  refOk : Bool
  time : Nat
  debt : Int
  tst : TimeSt
  seed : Nat
  lastPulse : Option Nat
  lastMsg : Option Nat
  missed : Nat
  aux : Bool
  slewWait : Nat
  offset : Int
  bigMsgs : Nat
  unaligned : Bool
  bounds : Tbl Bool
  deriving DecidableEq, Repr

/-- A sample of R352: input voltage and power, board temperature, and per zone the rail's voltage and power and its hottest sensor. -/
structure PSample where
  mv : Nat
  watts : Nat
  board : Nat
  zones : List (Nat × Nat × Nat)
  deriving DecidableEq, Repr

/-- The power controller (R339 to R354): STATE, the last V_in; samples of the last 10 us, input power of the last 1,000 us and of the
latest 4,000 us that count for P_REF; gates; the ramp-down line in mW, floor and drone power in W, DRONE_SHORT logged; class cap:
MHz below the maximum, evaluations below 95 %, episode; thermal caps and episodes by zone; a
commanded stop; a reset held until the stop ends; records in the telemetry ring; input energy since cold reset in uJ. -/
structure PwrSt where
  band : Nat
  mv : Nat
  samples : List PSample
  watts : List Nat
  refs : List Nat
  gates : Tbl Nat
  line : Nat
  floorW : Nat
  droneW : Nat
  short : Bool
  clsCut : Nat
  clsGood : Nat
  clsEp : Bool
  hotCut : Tbl Nat
  hotEp : Tbl Bool
  commanded : Bool
  held : Option Nat
  telem : Nat
  energy : Nat
  deriving DecidableEq, Repr

/-- One measurement-log entry (R363). -/
structure LogEnt where
  idx : Nat
  typ : Nat
  src : Nat
  flags : Nat
  outcome : Nat
  part : Nat
  time : Nat
  digA : List Byte
  digB : List Byte
  deriving DecidableEq, Repr

/-- A key slot (R369). -/
structure KeySlot where
  used : Bool := false
  part : Nat := 0
  secret : List Byte := []
  floor : Nat := 0
  deriving DecidableEq, Repr

/-- Security (R358 to R380): log, key slots, image running and its bank, IDE streams (0 off, 1 secure, 2 insecure; 16 is
the Link IDE stream) and the streams whose transfers an insecure one carried, mailbox buffers of the bus. -/
structure SecSt where
  log : List LogEnt
  count : Nat
  head : List Byte
  slots : Tbl KeySlot
  running : Option Bank
  runBank : Nat
  fallback : Bool
  ide : Tbl Nat
  ideCut : Tbl (List Nat)
  busReq : Mem
  busRsp : List Byte
  deriving DecidableEq, Repr

/-- Debug (R406 to R411). -/
structure DbgSt where
  recSeq : Nat
  waitData : List (Nat × List Byte)
  waitSince : Option Nat
  trace : List (List Byte)
  deriving DecidableEq, Repr

/-- Host link (R381, R382): width, rate and half, zero while it is down; the width and rate that it trained to last; what waits at the host port. -/
structure HostSt where
  width : Nat
  rate : Nat
  half : Nat
  was : Nat × Nat
  downLogged : Bool
  wait : List (Nat × Out)
  deriving DecidableEq, Repr

/-- A sideband pin GPX0 or GPX1 (R435): its driven level, the end of a SEAL_PULSE, when an input feature took it. -/
structure Gpx where
  high : Bool := false
  endAt : Option Nat := none
  takenAt : Option Nat := none
  deriving DecidableEq, Repr

/-- The whole module. `began` says how the present start came: 0 power-on, 1 cold, 2 warm, 3 warm after ride-through (R414); `small` is the core
or port reset that runs, by SCOPE and target (R423, R424). -/
structure State where
  pending : List Instr
  phase : Phase
  began : Nat
  small : Option (Nat × Nat)
  part : Part
  flash : Flash
  regs : Tbl W64
  fns : Tbl FnSt
  msix : Tbl MsixEnt
  flog : FaultLog
  tun : TunSt
  arrs : Tbl Arr
  strs : Tbl Str
  cores : Tbl Core
  parts : Tbl PartSt
  stack : StackSt
  mesh : Tbl MeshReq
  stm : StmSt
  fab : FabSt
  grx : GrxSt
  clk : ClkSt
  pwr : PwrSt
  sec : SecSt
  dbg : DbgSt
  host : HostSt
  gpx : Tbl Gpx
  out : List Out
  free : Nat
  deriving DecidableEq, Repr

/-- No command stops the machine: every outcome the manual gives is a next state. -/
inductive Fault where
  /-- Raised by nothing in this model; kept so that the type of outcomes is complete. Safe: no step takes it. -/
  | halted
  deriving DecidableEq, Repr

/-- Why a command is refused. -/
inductive Refusal where
  /-- Raised by `exec` for a command that has no meaning yet. Safe: nothing is claimed of it. -/
  | notModelled (mnemonic : String)
  deriving DecidableEq, Repr

/-- The part as manufactured (log 3): grade MFY2-256-12, nothing fused, empty secrets. -/
def Part.first : Part :=
  { grade := 1, fused := [], serial := 0, seed := [], rootDigest := [], caCert := [], devCert := [], svnFuses := 0,
    slotId := 7 }

/-- Module flash as delivered (log 4). -/
def Flash.first : Flash :=
  { repair := [], repairCrc := 0x94640B85, quarantine := [], hwErr := [],
    banks := [{ valid := true, svn := 0, digest := [], cert := [] }, { valid := true, svn := 0, digest := [], cert := [] }], bank := 0,
    locks := [], faults := [], hours := 0, volts := [], ageCap := [], plans := [], planCount := 0, hist := [], slow := [] }

/-- The machine right after its die takes power (log 2): BOOTING, every register at its reset value, the default Tuning in force (R57). -/
def State.reset : State :=
  { pending := []
    phase := .boot
    began := 0
    small := none
    part := Part.first
    flash := Flash.first
    regs := []
    fns := []
    msix := []
    flog := { seq := 0, onDie := [], opens := [] }
    tun :=
      { cur := defaultTuning 1 []
        geom := layGeom (defaultTuning 1 []) []
        disabled := []
        runtime := []
        zeroising := []
        oldRegions := []
        oldCores := []
        busBuf := []
        busReport := []
        busLoad := false
        endCode := 0
        imageId := 0
        jobs := [] }
    arrs := []
    strs := []
    cores := []
    parts := []
    stack := { bytes := [], poison := [], errs := [], owed := [], cols := [], rd := [], wr := [], lines := [], lruClock := 0, flush := [] }
    mesh := []
    stm := { table := [], ctxs := [], capacity := 40960, lruClock := 0, pending := [], rt := [], recParts := [], cmd := none, noCtx := false, cmdWait := [], lastFn := 17 }
    fab := { ports := [], broken := [], holds := [], nextRes := 0, mcastAck := [], mcastQ := [] }
    grx := { grps := [], seals := [], cacheDirty := [] }
    clk :=
      { zones := [], refOk := false, time := 0, debt := 0, tst := .free, seed := 0, lastPulse := none, lastMsg := none,
        missed := 0, aux := false, slewWait := 0, offset := 0, bigMsgs := 0, unaligned := false, bounds := [] }
    pwr :=
      { band := 0, mv := 0, samples := [], watts := [], refs := [], gates := [], line := 0, floorW := 0, droneW := 0, short := false,
        clsCut := 0, clsGood := 0, clsEp := false, hotCut := [], hotEp := [], commanded := false, held := none, telem := 0, energy := 0 }
    sec :=
      { log := [], count := 0, head := List.replicate 48 0, slots := [], running := none, runBank := 0, fallback := false, ide := [], ideCut := [],
        busReq := [], busRsp := [] }
    dbg := { recSeq := 0, waitData := [], waitSince := none, trace := [] }
    host := { width := 0, rate := 0, half := 0, was := (0, 0), downLogged := false, wait := [] }
    gpx := []
    out := []
    free := 0 }

end Sys2Proof.Machine
end

