-- ==== Sys2Proof/Machine/Ops.lean ====
section
/-! DEFINITION. The named operations that the meanings share: fields of State, registers, records and logs, interrupts, outputs. -/

namespace Sys2Proof.Machine

/-- The outcome of a command. -/
abbrev Res := Host.Outcome State Fault Refusal

/-! ## Fields of State -/

def getReg (s : State) (k : Nat) : W64 := tget regReset s.regs k
def setReg (s : State) (k : Nat) (v : W64) : State := { s with regs := tset regReset s.regs k v }
def modReg (s : State) (k : Nat) (f : W64 → W64) : State := setReg s k (f (getReg s k))
/-- Replace field `[hi:lo]` of a register. -/
def setRegFld (s : State) (k hi lo v : Nat) : State := modReg s k (fun w => setFld w hi lo v)

def getFn (s : State) (i : Nat) : FnSt := tget (fun _ => {}) s.fns i
def modFn (s : State) (i : Nat) (f : FnSt → FnSt) : State := { s with fns := tmod (fun _ => {}) s.fns i f }
def getArr (s : State) (i : Nat) : Arr := tget (fun _ => {}) s.arrs i
def setArr (s : State) (i : Nat) (a : Arr) : State := { s with arrs := tset (fun _ => {}) s.arrs i a }
def modArr (s : State) (i : Nat) (f : Arr → Arr) : State := setArr s i (f (getArr s i))
def getStr (s : State) (i : Nat) : Str := tget (fun _ => {}) s.strs i
def setStr (s : State) (i : Nat) (a : Str) : State := { s with strs := tset (fun _ => {}) s.strs i a }
def modStr (s : State) (i : Nat) (f : Str → Str) : State := setStr s i (f (getStr s i))
def getCore (s : State) (i : Nat) : Core := tget (fun _ => {}) s.cores i
def setCore (s : State) (i : Nat) (c : Core) : State := { s with cores := tset (fun _ => {}) s.cores i c }
def modCore (s : State) (i : Nat) (f : Core → Core) : State := setCore s i (f (getCore s i))
def getPart (s : State) (i : Nat) : PartSt := tget (fun _ => {}) s.parts i
def setPart (s : State) (i : Nat) (p : PartSt) : State := { s with parts := tset (fun _ => {}) s.parts i p }
def modPart (s : State) (i : Nat) (f : PartSt → PartSt) : State := setPart s i (f (getPart s i))
def modStep (s : State) (i : Nat) (f : Step → Step) : State := modPart s i (fun p => { p with step := f p.step })
def getCol (s : State) (i : Nat) : Col := tget (fun _ => {}) s.stack.cols i
def modCol (s : State) (i : Nat) (f : Col → Col) : State :=
  { s with stack := { s.stack with cols := tmod (fun _ => {}) s.stack.cols i f } }
def getRt (s : State) (i : Nat) : StrRt := tget (fun _ => {}) s.stm.rt i
def modRt (s : State) (i : Nat) (f : StrRt → StrRt) : State :=
  { s with stm := { s.stm with rt := tmod (fun _ => {}) s.stm.rt i f } }
def getPort (s : State) (i : Nat) : Port := tget (fun _ => {}) s.fab.ports i
def setPort (s : State) (i : Nat) (p : Port) : State :=
  { s with fab := { s.fab with ports := tset (fun _ => {}) s.fab.ports i p } }
def modPort (s : State) (i : Nat) (f : Port → Port) : State := setPort s i (f (getPort s i))
def getSeal (s : State) (i : Nat) : SealSt := tget (fun _ => {}) s.grx.seals i
def modSeal (s : State) (i : Nat) (f : SealSt → SealSt) : State :=
  { s with grx := { s.grx with seals := tmod (fun _ => {}) s.grx.seals i f } }
def getGrp (s : State) (g : Nat) : Option Grp := tget (fun _ => none) s.grx.grps g
def setGrp (s : State) (g : Nat) (v : Option Grp) : State :=
  { s with grx := { s.grx with grps := tset (fun _ => none) s.grx.grps g v } }
def getZone (s : State) (z : Nat) : ZoneSt := tget (fun _ => {}) s.clk.zones z
def modZone (s : State) (z : Nat) (f : ZoneSt → ZoneSt) : State :=
  { s with clk := { s.clk with zones := tmod (fun _ => {}) s.clk.zones z f } }

/-! ## The structure in force -/

/-- Die rails are on. -/
def railsOn (s : State) : Bool :=
  match s.phase with
  | .boot => true | .bootHold => true | .training => true | .run => true | .warm => true | .stopping => true
  | _ => false

/-- Die rails are on, and no warm reset holds the die. -/
def onDie (s : State) : Bool := railsOn s && s.phase != .warm

/-- An orderly stop is under way: work in hand ends, nothing more is issued or accepted (R343). -/
def halting (s : State) : Bool := s.phase = .stopping

def partCount (s : State) : Nat := s.tun.cur.partCount
def coreMask (s : State) (p : Nat) : BitVec 256 := s.tun.cur.cores.getD p 0
def strMask (s : State) (p : Nat) : BitVec 128 := s.tun.cur.strings.getD p 0
/-- Partition that holds a core (R189). -/
def partOfCore (s : State) (c : Nat) : Option Nat :=
  (List.range (partCount s)).find? (fun p => (coreMask s p).getLsbD c)
/-- Partition that holds a String (R94). -/
def partOfStr (s : State) (n : Nat) : Option Nat :=
  (List.range (partCount s)).find? (fun p => (strMask s p).getLsbD n)
/-- Geometry of String `n`. -/
def strGeom (s : State) (n : Nat) : Option StrGeom := s.tun.geom[n]?
/-- The String and fret of a global array. -/
def fretOf (s : State) (arr : Nat) : Option (Nat × Nat) :=
  (s.tun.geom.zipIdx.find? (fun g => g.1.frets.contains arr)).map (fun g => (g.2, g.1.frets.idxOf arr))
/-- A partition that serves: it exists and holds cores (R46, R384). -/
def partLive (s : State) (p : Nat) : Bool := decide (p < partCount s) && coreMask s p != 0
/-- A fused core (R2). -/
def isFused (s : State) (c : Nat) : Bool := s.part.fused.contains c
/-- The program that runs in a partition. -/
def curProg (s : State) (p : Nat) : Option Prog :=
  match (getPart s p).cur with
  | some k => tget (fun _ => none) (getPart s p).progs k
  | none => none
/-- Change the running program. -/
def modCurProg (s : State) (p : Nat) (f : Prog → Prog) : State :=
  match (getPart s p).cur with
  | some k => modPart s p (fun q => { q with progs := tmod (fun _ => none) q.progs k (fun x => x.map f) })
  | none => s
/-- Step number of the running program, or 0 (R398). -/
def stepNo (s : State) (p : Nat) : Nat := match curProg s p with | some g => g.stepNo | none => 0
/-- First stack byte of a partition's region (R44). -/
def regionBase (s : State) (p : Nat) : Nat := 67108864 * (s.tun.cur.base.getD p 0)
/-- Bytes of a partition's region. -/
def regionSize (s : State) (p : Nat) : Nat := 67108864 * (s.tun.cur.size.getD p 0)
/-- Bytes of a partition's swap region, at the top of its region (R44). -/
def swapSize (s : State) (p : Nat) : Nat := 67108864 * (s.tun.cur.swap.getD p 0)
/-- Unit index of the bottom of SHARED_REGION. -/
def topOf (s : State) : Nat := spaceTop s.part.grade s.tun.cur.residue s.tun.cur.shared

/-! ## Outputs -/

/-- Put a message on a wire. -/
def emit (s : State) (o : Out) : State := { s with out := s.out ++ [o] }

/-- Can function `fn` reach the host: link up and not insecure, D0, bus master on (R381 to R383, R396). -/
def hostUp (s : State) (fn : Nat) : Bool :=
  decide (s.host.width ≠ 0) && tget (fun _ => 0) s.sec.ide 16 != 2 && !(getFn s fn).d3 && !(getFn s fn).noBusMaster

/-- A stream whose IDE stream is insecure: nothing of it is carried until the keys are programmed again (R396). -/
def ideStops (s : State) (idx : Nat) : Bool := s.sec.ideCut.any (fun e => e.2.contains idx)

/-- A host transfer: it waits at the host port while the function cannot reach the host (R381, R382). -/
def hostEmit (s : State) (fn : Nat) (o : Out) : State :=
  if hostUp s fn then emit s o else { s with host := { s.host with wait := s.host.wait ++ [(fn, o)] } }

/-- Bytes written to host memory by function `fn`. -/
def hostWrite (s : State) (fn addr : Nat) (bs : List Byte) : State := hostEmit s fn (.host fn addr bs)

/-- Send the transfers of functions that reach the host again, in order. -/
def hostRelease (s : State) : State :=
  { s with
    out := s.out ++ (s.host.wait.filter (fun w => hostUp s w.1)).map Prod.snd
    host := { s.host with wait := s.host.wait.filter (fun w => !hostUp s w.1) } }

/-! ## Interrupts (R389 to R391) -/

/-- Function of a global vector (R389). -/
def fnOfVec (v : Nat) : Nat := if v < 256 then 0 else (v - 256) / 112 + 1
/-- First global vector of a function. -/
def vecBase (fn : Nat) : Nat := if fn = 0 then 0 else 256 + 112 * (fn - 1)
/-- Does a function serve (R384); the PF always does. -/
def fnLive (s : State) (fn : Nat) : Bool := fn = 0 || (decide (fn ≤ 16) && partLive s (fn - 1))

def getMsix (s : State) (v : Nat) : MsixEnt := tget (fun _ => {}) s.msix v
def modMsix (s : State) (v : Nat) (f : MsixEnt → MsixEnt) : State := { s with msix := tmod (fun _ => {}) s.msix v f }

/-- Raise a global vector: the message, or the PBA bit while the vector is masked (R391); never for a function that does not serve (R384). -/
def raiseVec (s : State) (v : Nat) : State :=
  if !fnLive s (fnOfVec v) then s else
  let e := getMsix s v
  if e.unmasked then hostEmit s (fnOfVec v) (.msix v e.addr e.data)
  else modMsix s v (fun e => { e with pba := true })

/-- Set cause `b` of a function: the vector is raised when the bit goes from 0 to 1 while unmasked (R391). -/
def raiseCause (s : State) (fn b : Nat) : State :=
  let k := fnKey fn R.MOD_INT_CAUSE
  let c := getReg s k
  let s1 := setReg s k (c ||| at_ 1 b)
  if !c.getLsbD b && (getReg s (fnKey fn R.MOD_INT_MASK)).getLsbD b then raiseVec s1 (vecBase fn + b) else s1

/-- Set a cause of the PF, and of the VF of partition `p` (R390). -/
def raiseBoth (s : State) (p b : Nat) : State := raiseCause (raiseCause s 0 b) (p + 1) b

/-! ## Fault records (R398 to R403) -/

/-- An event that a rule logs. -/
structure Ev where
  code : Nat
  part : Nat := 0xFF
  loc : Nat := 0xFFFF
  stream : Nat := 0
  tag : Nat := 0
  payload : Nat := 0
  core : Option Nat := none
  kind : Option Nat := none
  flash : Bool := false
  deriving DecidableEq, Repr

/-- KIND of each code by the Kind column of its table (R399). -/
def codeKind (c : Nat) : Nat :=
  if [0x104, 0x105, 0x106, 0x107, 0x501, 0x502, 0x503, 0x504, 0x505, 0x506, 0x507, 0x508, 0x509, 0x50A, 0x50B, 0x50C, 0x510,
      0x514, 0x515, 0x524, 0x608, 0x609, 0x60C, 0x70A, 0x70B, 0x801, 0x903, 0x904, 0x905, 0x907, 0x908, 0x909, 0x90A, 0x90E,
      0xA08, 0xA09, 0xA0A, 0xA0C, 0xA0D, 0xB06].contains c then 1
  else if [0x201, 0x202, 0x205, 0x50F, 0x516, 0x521, 0x522, 0x601, 0x603, 0x605, 0x70E, 0x70F, 0x90C].contains c then 2
  else if [0x20A, 0x401, 0x402, 0x403, 0x404, 0x405, 0x704, 0x705, 0x706, 0x707, 0x708, 0x803, 0x808, 0xA01, 0xA02, 0xA03, 0xA04,
      0xA05, 0xA06, 0xA07, 0xA20, 0xA21, 0xA22, 0xA23, 0xA24, 0xA25, 0xA30, 0xA40, 0xB03, 0xB04, 0xB08].contains c then 3
  else if [0x302, 0x309, 0x30D, 0x806, 0x902].contains c then 4
  else 0

/-- Index of the raising block (R11, R398): by class; the codes of chapters 16, 17 and 03 by their own blocks. -/
def codeBlock (c : Nat) : Nat :=
  if 0x512 ≤ c && c ≤ 0x517 then 0
  else if 0x520 ≤ c && c ≤ 0x524 then 9
  else if 0xA20 ≤ c && c ≤ 0xA25 then 10
  else match c / 256 with
    | 1 => 1 | 2 => 2 | 3 => 3 | 4 => 11 | 5 => 5 | 6 => 7 | 7 => 6 | 8 => 8 | 9 => 4 | _ => 11

/-- The first-fault register of an event's block (R398): none for MOD, TUN, DBG and STR. -/
def faultReg (e : Ev) : Option Nat :=
  match codeBlock e.code with
  | 2 => some R.CLK_FAULT | 3 => some R.PWR_FAULT | 4 => some R.SEC_FAULT | 5 => some R.STM_FAULT | 6 => some R.GRX_FAULT
  | 7 => some R.FAB_FAULT | 8 => some R.STK_FAULT
  | 11 => e.core.map R.COR_FAULT
  | _ => none

/-- The record's 64 bytes (R398). -/
def recBytes (r : FaultRec) : List Byte :=
  let b := natLe r.seq 8 ++ natLe r.time 8 ++ natLe r.code 2 ++ natLe r.kind 1 ++ natLe r.part 1 ++ natLe r.block 1 ++ [0] ++
    natLe r.loc 2 ++ natLe r.step 8 ++ natLe r.stream 4 ++ natLe r.tag 4 ++ natLe r.detail 16 ++ natLe r.count 4
  b ++ natLe (crc32c b) 4

/-- The event as a record, before it takes its SEQ. -/
def evRec (s : State) (e : Ev) : FaultRec :=
  { seq := 0, time := s.clk.time, code := e.code, kind := e.kind.getD (codeKind e.code), part := e.part,
    block := codeBlock e.code, loc := e.loc, step := (if e.part < 16 then stepNo s e.part else 0), stream := e.stream,
    tag := e.tag, detail := e.payload, count := 1 }

/-- First-fault register: written only while VALID is clear (R189, R216, R244, R267, R299, R338, R357, R380). -/
def firstFault (s : State) (k code payload : Nat) : State :=
  if (getReg s k).getLsbD 47 then s
  else setReg s k (at_ code 48 ||| at_ 1 47 ||| BitVec.ofNat 64 (payload % 2 ^ 47))

/-- Records copied to the host ring: room left in the ring. -/
def ringRoom (s : State) : Nat :=
  let used := (getReg s R.DBG_FLOG_HEAD).toNat - (getReg s R.DBG_FLOG_TAIL).toNat
  2 ^ ((getReg s R.DBG_FLOG_SIZE).toNat % 16 + 6) - used

/-- Copy held records to the host ring in SEQ order while it has room (R401). -/
def drainRing : Nat → State → State
  | 0, s => s
  | n + 1, s =>
    match s.flog.onDie with
    | [] => s
    | r :: rs =>
      if getReg s R.DBG_FLOG_ADDR = 0 || !hostUp s 0 || ringRoom s = 0 then s
      else
        let head := (getReg s R.DBG_FLOG_HEAD).toNat
        let size := 2 ^ ((getReg s R.DBG_FLOG_SIZE).toNat % 16 + 6)
        let s1 := hostWrite s 0 ((getReg s R.DBG_FLOG_ADDR).toNat + 64 * (head % size)) (recBytes r)
        let s2 := setReg s1 R.DBG_FLOG_HEAD (BitVec.ofNat 64 (head + 1))
        drainRing n { s2 with flog := { s2.flog with onDie := rs } }

/-- MOD_FAULT_SUM after a record: its code, LOST, the class of a fault, the flash bit (R402). -/
def sumAfter (w : W64) (r : FaultRec) (lost fl : Bool) : W64 :=
  let w1 := setFld w 63 48 r.code
  let w2 := if lost then setFld w1 47 32 (satAt 65535 (fld w1 47 32 + 1)) else w1
  let w3 := if 2 ≤ r.kind then w2 ||| at_ 1 (r.code / 256) else w2
  if fl then w3 ||| 1 else w3

/-- Store a record: SEQ, on-die log or LOST, flash log, MOD_FAULT_SUM, FAULT cause, host ring (R390, R398, R401, R402). -/
def storeRec (s : State) (r0 : FaultRec) (toFlash : Bool) : State :=
  let r := { r0 with seq := s.flog.seq }
  let lost := decide (1024 ≤ s.flog.onDie.length)
  let s1 := { s with flog := { s.flog with seq := s.flog.seq + 1, onDie := if lost then s.flog.onDie else s.flog.onDie ++ [r] } }
  let fl := toFlash || r.kind = 4
  let s2 := if fl then { s1 with flash := { s1.flash with faults := keepLast 256 s1.flash.faults r } } else s1
  let s3 := modReg s2 R.MOD_FAULT_SUM (fun w => sumAfter w r lost fl)
  let s4 := if r.part < 16 then raiseCause s3 (r.part + 1) 0 else raiseCause s3 0 0
  drainRing (s4.flog.onDie.length) s4

/-- Log an event: its first-fault register, then its record. -/
def log (s : State) (e : Ev) : State :=
  let s1 := match faultReg e with | some k => firstFault s k e.code e.payload | none => s
  let s2 := if codeBlock e.code = 9 then setRegFld s1 R.DBG_STATUS 47 32 e.code else s1
  storeRec s2 (evRec s e) e.flash

/-- Is an open record of the same key (R400). -/
def sameKey (a b : FaultRec) : Bool := a.code = b.code && a.part = b.part && a.block = b.block && a.loc = b.loc

/-- Write every open record that satisfies `p` (R400). -/
def closeOpens (s : State) (p : OpenRec → Bool) : State :=
  let done := s.flog.opens.filter p
  let s1 := { s with flog := { s.flog with opens := s.flog.opens.filter (fun o => !p o) } }
  done.foldl (fun s o => storeRec s o.fr false) s1

/-- Log an event that a rule limits to once per interval of TIME (R400). -/
def logMerged (s : State) (e : Ev) (interval : Nat) : State :=
  let r := evRec s e
  let s1 := closeOpens s (fun o => sameKey o.fr r && decide (o.until_ ≤ s.clk.time))
  let s2 := match faultReg e with | some k => firstFault s1 k e.code e.payload | none => s1
  if s2.flog.opens.any (fun o => sameKey o.fr r) then
    { s2 with flog := { s2.flog with opens := s2.flog.opens.map (fun o =>
      if sameKey o.fr r then { o with fr := { o.fr with count := o.fr.count + 1 } } else o) } }
  else { s2 with flog := { s2.flog with opens := s2.flog.opens ++ [⟨r, s.clk.time + interval⟩] } }

/-! ## Measurement log (R363, R364) -/

/-- A digest field: 48 bytes. -/
def dig48 (d : List Byte) : List Byte := fitTo 48 d

/-- The entry's 128 bytes (R363). -/
def logEntBytes (e : LogEnt) : List Byte :=
  natLe e.idx 8 ++ natLe e.typ 2 ++ natLe e.src 1 ++ natLe e.flags 1 ++ natLe e.outcome 2 ++ natLe e.part 1 ++ [0] ++
    natLe e.time 8 ++ dig48 e.digA ++ dig48 e.digB ++ List.replicate 8 0

/-- Append an entry: the ring keeps the latest 4,096, HEAD chains every entry (R364). -/
def measure (s : State) (typ src flags outcome part : Nat) (digA digB : List Byte) : State :=
  let e : LogEnt := ⟨s.sec.count, typ, src, flags, outcome, part, s.clk.time, digA, digB⟩
  { s with sec := { s.sec with
      log := keepLast 4096 s.sec.log e
      count := s.sec.count + 1
      head := sha384 (s.sec.head ++ logEntBytes e) } }

/-- SOURCE of a function (R363). -/
def srcOfFn (fn : Nat) : Nat := if fn = 0 then 1 else if fn = 17 then 3 else 2

/-! ## Free values -/

/-- A fresh free value; the counter of State advances (log 7). -/
def freshWord (s : State) : W64 × State := (Config.freeWord s.free, { s with free := s.free + 1 })

/-! ## Register classes -/

/-- Is a register one that each function has for itself (R386). -/
def perFn (off : Nat) : Bool :=
  off = R.MOD_INT_CAUSE || off = R.MOD_INT_MASK || (decide (R.STM_CMD ≤ off) && decide (off ≤ R.STM_CMD_STATUS)) ||
  (decide (R.SEC_MB_CTRL ≤ off) && decide (off ≤ R.SEC_MB_STATUS))

/-- Does function `fn` see the register at `off` (R384, R386, R439): the PF and the management bus see everything. -/
def fnSees (s : State) (fn off : Nat) : Bool :=
  if fn = 0 || fn = 17 then true
  else if !fnLive s fn then false
  else if off = R.MOD_IDENTITY || off = R.MOD_STATUS || off = R.MOD_VEC_BASE then true
  else if perFn off then true
  else if 0x1000000 ≤ off && off < 0x2000000 then partOfCore s (instNo off 0x1000000 0x10000) = some (fn - 1)
  else false

/-- Registers that the management bus may write (R439). -/
def busWritable (off : Nat) : Bool :=
  [R.FAB_MOD_ADDR, R.MOD_RESET_CTRL, R.PWR_AGE_CTRL, R.CLK_TIME_CTRL, R.CLK_SYNC_DELAY, R.DBG_QUAR_CTRL].contains off

/-- May function `fn` write the register at `off`: the die is on, its memory space is enabled (R381), and it sees the register; the
management bus writes the registers of R439 alone. -/
def mayWrite (s : State) (fn off : Nat) : Bool :=
  onDie s && !(getFn s fn).d3 && (if fn = 17 then busWritable off else fnSees s fn off)

/-! ## Ranges of the Stream Tables -/

/-- The resident context of a stream. -/
def getCtx (s : State) (idx : Nat) : Option Ctx := tget (fun _ => none) s.stm.ctxs idx

/-- First index and count of a partition's range of the Stream Table (R228). -/
def strRange (s : State) (p : Nat) : Nat × Nat :=
  let r := getReg s (R.STM_PART_RANGE p)
  if r.getLsbD 20 then (fld r 19 0, 2 ^ fld r 36 32) else (0, 0)

def inRange (r : Nat × Nat) (idx : Nat) : Bool := decide (r.1 ≤ idx) && decide (idx < r.1 + r.2)

/-- Partition of a stream index (R228). -/
def partOfIdx (s : State) (idx : Nat) : Option Nat :=
  (List.range 16).find? (fun p => inRange (strRange s p) idx)

/-- Every index that has a context, or an entry which the engine wrote to host memory. -/
def knownIdx (s : State) : List Nat := s.stm.ctxs.map Prod.fst ++ s.stm.table.map Prod.fst

/-- A partition locked by an owner (R366). -/
def isLocked (s : State) (p : Nat) : Bool := s.flash.locks.any (fun e => e.1 = p)

/-- Firmware runs on the management core (R19, R20). -/
def fwUp (s : State) : Bool := match s.phase with | .training => true | .run => true | .stopping => true | _ => false

/-- The management core is free to serve: it runs, and neither a Tuning load nor a mailbox command is under way (R20, R378). -/
def coreFree (s : State) : Bool :=
  fwUp s && fld (getReg s R.TUN_STATUS) 1 0 != 3 && (List.range 18).all (fun fn => !(getFn s fn).mbBusy || (getFn s fn).mbHeld.isSome)

/-- It serves what arrives now at once, since nothing waits. -/
def coreNow (s : State) : Bool := coreFree s && s.tun.jobs.isEmpty

/-- What arrives waits behind what came before. -/
def pushJob (s : State) (j : Job) : State := { s with tun := { s.tun with jobs := s.tun.jobs ++ [j] } }

/-- A re-plan is first in line. -/
def planNext (s : State) : Bool := match s.tun.jobs with | .plan _ :: _ => true | _ => false

/-! ## Regions of the stack (R44, R198, R203, R210, R271) -/

/-- First byte of the Scale Table region. -/
def scaleBase (s : State) : Nat := 67108864 * (stackUnits s.part.grade - 1)
/-- First byte of RESIDUE_REGION. -/
def residueBase (s : State) : Nat := scaleBase s - 67108864 * s.tun.cur.residue
/-- First byte of SHARED_REGION. -/
def sharedBase (s : State) : Nat := residueBase s - 67108864 * s.tun.cur.shared
/-- Bytes of each partition's window of the shared region (R203). -/
def windowSize (s : State) : Nat := 1048576 * (67108864 * s.tun.cur.shared / s.tun.cur.partCount / 1048576)
/-- First byte of partition `p`'s window (R203). -/
def windowBase (s : State) (p : Nat) : Nat := sharedBase s + p * windowSize s
/-- Usable block count U (R271). -/
def usableBlocks (s : State) : Nat := min 2097152 ((67108864 * (s.tun.cur.residue - 1)) / 256)
/-- First block and count of partition `p` (R271). -/
def partBlocks (s : State) (p : Nat) : Nat × Nat :=
  let r := getReg s (R.GRX_PART_BLOCKS p)
  (fld r 21 0, fld r 53 32)
/-- Scale Table entries and residues of a partition as areas of the stack (R210). -/
def blockAreas (s : State) (p : Nat) : List (Nat × Nat) :=
  let b := partBlocks s p
  [(scaleBase s + 4 * b.1, 4 * b.2), (scaleBase s + 8388608 + 4 * b.1, 4 * b.2), (residueBase s + 256 * b.1, 256 * b.2)]

/-! ## Ownership of shared resources (R49, R50) -/

/-- Value and source of a resource's owner: 1 Tuning, 2 run time (R59). -/
def ownerOf (s : State) (r : Nat) : Option (Nat × Nat) :=
  match s.tun.cur.own.find? (fun v => v % 256 = r) with
  | some v => some (v, 1)
  | none => (s.tun.runtime.find? (fun c => c.res = r)).map (fun c => (c.value, 2))

/-- Does a feature own a resource. -/
def ownedBy (s : State) (r f : Nat) : Bool := match ownerOf s r with | some v => v.1 / 256 % 256 = f | none => false

def getGpx (s : State) (i : Nat) : Gpx := tget (fun _ => {}) s.gpx i
def modGpx (s : State) (i : Nat) (f : Gpx → Gpx) : State := { s with gpx := tmod (fun _ => {}) s.gpx i f }

/-- GPX1 follows the supply throttle while THROTTLE_OUT owns it (R341, R435). -/
def throttlePin (s : State) (on : Bool) : State :=
  if ownedBy s 1 6 && (getGpx s 1).high != on then emit (modGpx s 1 (fun g => { g with high := on })) (.pin 1 on) else s

/-- Take an unowned resource at run time (R50); a pin's level is ignored for 1 microsecond from here, and THROTTLE_OUT drives its pin at once (R435). -/
def takeRes (s : State) (r value : Nat) : State :=
  let s1 := { s with tun := { s.tun with runtime := s.tun.runtime ++ [⟨r, value⟩] } }
  if r ≤ 1 then throttlePin (modGpx s1 r (fun g => { g with takenAt := some s.clk.time })) (decide (s.pwr.band = 2)) else s1

/-- Release a run-time claim (R50); a driven pin returns to high impedance (R435). -/
def dropRes (s : State) (r : Nat) : State :=
  let s1 := { s with tun := { s.tun with runtime := s.tun.runtime.filter (fun c => c.res != r) } }
  if r ≤ 1 && (getGpx s1 r).high then emit (modGpx s1 r (fun _ => {})) (.pin r false) else s1

/-! ## Replay (R409) -/

/-- Is replay running for a partition. -/
def replaying (s : State) (p : Nat) : Bool := fld (getReg s R.DBG_STATUS) 3 2 = 1 && (getReg s R.DBG_REC_PARTS).getLsbD p

/-! ## Core and port resets under way (R414) -/

/-- A core reset (3) or port reset (4) of `target` runs. -/
def resetRuns (s : State) (scope target : Nat) : Bool :=
  s.small = some (scope, target)

/-- It is over: STATE is IDLE. -/
def resetOver (s : State) (scope target : Nat) : State :=
  if resetRuns s scope target then { setRegFld s R.MOD_RESET_STATUS 1 0 0 with small := none } else s

/-! ## Ports as training begins (R249) -/

/-- Role in force (R45). -/
def roleOf (s : State) (n : Nat) : Nat := s.tun.cur.roles.getD n 0

/-- Take a port down and train it again: OFF without a role, DOWN while DISABLE is set, else TRAINING (R249, R267). -/
def portRestart (s : State) (n : Nat) : State :=
  let st := if roleOf s n = 0 then 0 else if (getReg s (R.FAB_PORT_CTRL n)).getLsbD 0 then 5 else 1
  modPort s n (fun p => { ({} : Port) with
    st := st, signal := p.signal, keyEpoch := p.keyEpoch, crypt := p.crypt })

/-- Keep the canonical form of an indexed fold over ports. -/
def eachPort (s : State) (f : State → Nat → State) : State := (List.range 12).foldl f s

end Sys2Proof.Machine
end

