-- ==== Sys2Proof/Machine/Record.lean ====
section
/-! DEFINITION. Record mode as the other commands feed it (R406 to R408), and the core event trace (R410). -/

namespace Sys2Proof.Machine

/-- Header and padded payload of an entry (R408). -/
def recEntBytes (seq time typ fmt part src key : Nat) (pl : List Byte) : List Byte :=
  padTo 32 (natLe seq 8 ++ natLe time 8 ++ natLe typ 1 ++ natLe fmt 1 ++ natLe part 1 ++ [0] ++ natLe pl.length 4 ++
    natLe src 4 ++ natLe key 4 ++ pl)

/-- Room in the record ring: one granule short of meeting DBG_REC_TAIL (R408, log 12). -/
def recRoom (s : State) : Nat :=
  let size := (getReg s R.DBG_REC_SIZE).toNat
  let head := (getReg s R.DBG_REC_HEAD).toNat
  let tail := (getReg s R.DBG_REC_TAIL).toNat
  if size = 0 then 0 else size - (head + size - tail % size) % size - 1

/-- Write bytes into the record ring at DBG_REC_HEAD, wrapping at DBG_REC_SIZE, and advance it. -/
def recPut (s : State) (bs : List Byte) : State :=
  let size := (getReg s R.DBG_REC_SIZE).toNat
  let head := (getReg s R.DBG_REC_HEAD).toNat
  let base := (getReg s R.DBG_REC_ADDR).toNat
  let k := min bs.length (size - head)
  let s1 := hostWrite s 0 (base + head) (bs.take k)
  let s2 := if k < bs.length then hostWrite s1 0 base (bs.drop k) else s1
  let s3 := setReg s2 R.DBG_REC_HEAD (BitVec.ofNat 64 ((head + bs.length) % size))
  { s3 with dbg := { s3.dbg with recSeq := s3.dbg.recSeq + 1 } }

/-- END when it fits, recording stops, RECORD_STOPPED (0x0520) (R408). -/
def recStop (s : State) (code : Nat) : State :=
  let e := recEntBytes s.dbg.recSeq s.clk.time 0x0F 0 0xFF 0 0 (natLe code 2)
  let s1 := if e.length ≤ recRoom s then recPut s e else s
  log (setRegFld s1 R.DBG_STATUS 1 0 3) { code := code }

/-- Is an input of partition `p` recorded (R406): 0xFF names the module. -/
def recording (s : State) (p : Nat) : Bool :=
  fld (getReg s R.DBG_STATUS) 1 0 = 2 && (p = 0xFF || (getReg s R.DBG_REC_PARTS).getLsbD p)

/-- The payload in digest form (R407): of a fabric unit its bytes alone are digested, port and sequence number stay. -/
def digestPay (typ : Nat) (pl : List Byte) : List Byte := if typ = 4 then pl.take 13 ++ sha384 (pl.drop 13) else sha384 pl

/-- Record one input (R407, R408): bulk types are digested under REC_DIGEST, RESULT records of a locked partition always. -/
def recInput (s : State) (typ p src key : Nat) (pl : List Byte) : State :=
  if !recording s p then s else
  let bulk := typ = 3 || typ = 4 || typ = 9
  let dig := (bulk && (getReg s R.DBG_CTRL).getLsbD 1) || (typ = 9 && isLocked s p)
  let e := recEntBytes s.dbg.recSeq s.clk.time typ (b2n dig) p src key (if dig then digestPay typ pl else pl)
  if e.length ≤ recRoom s then recPut s e else recStop s 0x520

/-- Trace one event of a core (R410): the buffer wraps over its oldest events. -/
def traceEv (s : State) (c ev : Nat) (detail : Nat) : State :=
  if !(getReg s R.DBG_STATUS).getLsbD 4 || !(getReg s (R.DBG_TRACE_CORES (c / 64))).getLsbD (c % 64) then s
  else if (match partOfCore s c with | some p => isLocked s p | none => false) then s
  else
    let e := natLe s.clk.time 8 ++ natLe c 1 ++ natLe ev 1 ++ natLe detail 6
    { s with dbg := { s.dbg with trace := keepLast 65536 s.dbg.trace e } }

end Sys2Proof.Machine
end

