-- ==== Sys2Proof/Machine/FabOps.lean ====
section
/-! DEFINITION. Shapes, routes, virtual channels and timed slots of the fabric (10 R247 to R261). -/

namespace Sys2Proof.Machine

/-! ## Addresses (R250, R251) -/

/-- Extent of dimension `d`. -/
def extentOf (s : State) (d : Nat) : Nat := s.tun.cur.extents / 16 ^ d % 16 + 1
/-- Coordinate `d` of an address. -/
def coordOf (a d : Nat) : Nat := a / 16 ^ d % 16
/-- An address with coordinate `d` replaced. -/
def withCoord (a d c : Nat) : Nat := a - coordOf a d * 16 ^ d + c * 16 ^ d
/-- This module's address. -/
def ownAddr (s : State) : Nat := (getReg s R.FAB_MOD_ADDR).toNat % 65536
/-- Every coordinate lies below its extent (R250). -/
def addrOk (s : State) (a : Nat) : Bool := (List.range 4).all (fun d => decide (coordOf a d < extentOf s d))

/-- Dimension, direction and rank of a role (R45). -/
def roleDim (r : Nat) : Nat := if r ≤ 8 then (r - 1) / 2 else (r - 9) / 2
def rolePlus (r : Nat) : Bool := r % 2 = 0
def roleSecond (r : Nat) : Bool := decide (9 ≤ r)

/-- The neighbour of coordinate `c` in a direction (R251). -/
def stepCoord (n c : Nat) (plus : Bool) : Nat := if plus then (c + 1) % n else (c + n - 1) % n
/-- The neighbour of an address. -/
def neighbourOf (s : State) (a d : Nat) (plus : Bool) : Nat := withCoord a d (stepCoord (extentOf s d) (coordOf a d) plus)
/-- The neighbour that a port's role reaches. -/
def roleNeighbour (s : State) (r : Nat) : Nat := neighbourOf s (ownAddr s) (roleDim r) (rolePlus r)

/-! ## Routes (R254, R255) -/

/-- UP or DEGRADED. -/
def portUp (p : Port) : Bool := p.st = 2 || p.st = 3

/-- A port that carries units. -/
def portLive (s : State) (n : Nat) : Bool := onDie s && portUp (getPort s n)

/-- Ports that reach a direction, primary first. -/
def dirPorts (s : State) (d : Nat) (plus : Bool) : List Nat :=
  let l := (List.range 12).filter (fun n => roleOf s n != 0 && roleDim (roleOf s n) = d && rolePlus (roleOf s n) = plus)
  l.filter (fun n => !roleSecond (roleOf s n)) ++ l.filter (fun n => roleSecond (roleOf s n))

/-- Those of them that route. -/
def dirUp (s : State) (d : Nat) (plus : Bool) : List Nat := (dirPorts s d plus).filter (fun n => portUp (getPort s n))

/-- A link known to be broken, from either of its ends. -/
def linkBroken (s : State) (a d : Nat) (plus : Bool) : Bool :=
  s.fab.broken.contains (a, d, plus) || s.fab.broken.contains (neighbourOf s a d plus, d, !plus) ||
  (a = ownAddr s && (dirUp s d plus).isEmpty)

/-- Is a way round a ring whole: `k` hops from address `a`. -/
def wayWhole (s : State) (d : Nat) (plus : Bool) : Nat → Nat → Bool
  | _, 0 => true
  | a, k + 1 => !linkBroken s a d plus && wayWhole s d plus (neighbourOf s a d plus) k

/-- Direction within a dimension: fewer hops, + when equal, the other way round a broken ring; none when both ways are broken. -/
def dirTo (s : State) (a b d : Nat) : Option Bool :=
  let n := extentOf s d
  let up := (coordOf b d + n - coordOf a d) % n
  let dn := (coordOf a d + n - coordOf b d) % n
  let first := decide (up ≤ dn)
  if wayWhole s d first a (if first then up else dn) then some first
  else if wayWhole s d (!first) a (if first then dn else up) then some (!first)
  else none

/-- First dimension in which two addresses differ. -/
def routeDim (a b : Nat) : Option Nat := (List.range 4).find? (fun d => coordOf a d != coordOf b d)

/-- The direction toward a destination: dimension and sign. -/
def routeDir (s : State) (dst : Nat) : Option (Nat × Bool) :=
  match routeDim (ownAddr s) dst with
  | some d => (dirTo s (ownAddr s) dst d).map (fun p => (d, p))
  | none => none

/-- The port toward a destination: primary link for an even stream index, second for an odd one; the other when it is down. -/
def routePort (s : State) (dst idx : Nat) : Option Nat :=
  match routeDir s dst with
  | some dp =>
    let up := dirUp s dp.1 dp.2
    match up.find? (fun n => roleSecond (roleOf s n) = decide (idx % 2 = 1)) with
    | some n => some n
    | none => up.head?
  | none => none

/-- The port of a timed unit (R246, R254): the link that its admission chose; while none is admitted, one toward the destination that is UP with all
its lanes. -/
def timedPort (s : State) (dst idx : Nat) : Option Nat :=
  match s.fab.holds.find? (fun h => h.2.committed && h.2.adm.dst = dst && h.2.adm.dstStream = idx && portUp (getPort s h.1)) with
  | some h => some h.1
  | none => match routeDir s dst with
    | some dp => (dirUp s dp.1 dp.2).find? (fun n => (getPort s n).st = 2)
    | none => none

/-- The port of a unit of a stream. -/
def unitRoute (s : State) (u : LinkUnit) : Option Nat :=
  if u.vc = 20 || u.vc = 21 then timedPort s u.dst u.dstStream else routePort s u.dst u.dstStream

/-- VC on the next link (R253): the upper VC of the pair past the dateline, the lower after a turn. `lastDim` is the dimension of the
link it came by. -/
def nextVc (s : State) (vc : Nat) (lastDim : Option Nat) (n : Nat) : Nat :=
  let r := roleOf s n
  let base := vc / 2 * 2
  let crosses := if rolePlus r then coordOf (ownAddr s) (roleDim r) = extentOf s (roleDim r) - 1 else coordOf (ownAddr s) (roleDim r) = 0
  if 16 ≤ vc && vc ≤ 21 then
    (if crosses then base + 1 else if lastDim = some (roleDim r) then vc else base)
  else vc

/-! ## Virtual channels (R252, R256) -/

def getVc (p : Port) (v : Nat) : Vc := tget (fun _ => {}) p.vcs v
def setVc (p : Port) (v : Nat) (c : Vc) : Port := { p with vcs := tset (fun _ => {}) p.vcs v c }
def modVc (s : State) (n v : Nat) (f : Vc → Vc) : State := modPort s n (fun p => setVc p v (f (getVc p v)))

/-- A message of a VC that the fabric block or an engine takes at once: it is the expected one, its number is acknowledged and its credit
returns (R253, R256, R280). -/
def took (s : State) (n v : Nat) : State :=
  modPort s n (fun p => let c := getVc p v
    { setVc p v { c with rxSeq := (c.rxSeq + 1) % 4096, nak := false, owed := c.owed + 1 } with rxCtr := p.rxCtr + 1 })

/-- Dedicated units of a VC (R252). -/
def vcOwn (v : Nat) : Nat := if 16 ≤ v && v < 18 then 32 else 8
/-- The most units that a VC may be granted: those and at most 160 of the shared pool (R252). -/
def vcMost (v : Nat) : Nat := vcOwn v + (if v < 18 then 160 else 0)

/-- Units of the shared pool that are lent (R311). -/
def poolLent (p : Port) : Nat := (List.range 18).foldl (fun a v => a + (getVc p v).lent) 0

/-- What a receiver lends a VC as it returns credits (R252, R311; how the 784 units are shared out is log 24): a VC in use gets as many more as
it returns; when none is left, one that holds more than an even share keeps back what it returns. -/
def lendVc (p : Port) (v : Nat) : Vc :=
  let c := getVc p v
  let free := 784 - poolLent p
  if 18 ≤ v then c
  else if free = 0 then
    let back := min c.owed (c.lent - 43)
    { c with owed := c.owed - back, lent := c.lent - back }
  else
    let more := min (min (160 - c.lent) free) c.owed
    { c with owed := c.owed + more, lent := c.lent + more }

/-! ## Units on the wire (R247, R265) -/

/-- The 80-bit header of R247 for a DATA or MCAST unit with `len` bytes of payload. -/
def unitHeader (u : LinkUnit) (len : Nat) : BitVec 80 :=
  BitVec.ofNat 80 ((len - 1) % 256 + 2 ^ 8 * (u.eseq % 65536) + 2 ^ 24 * (u.dstStream % 2 ^ 20) + 2 ^ 44 * (u.dst % 65536) +
    2 ^ 60 * (u.lseq % 4096) + 2 ^ 72 * b2n u.last + 2 ^ 73 * (if u.mcast then 3 else 0) + 2 ^ 75 * (u.vc % 32))

/-- The header of a CONTROL unit: UTYPE 1, and zero where R247 gives a hop-local unit no meaning. -/
def ctrlHeader (len : Nat) : BitVec 80 := BitVec.ofNat 80 ((len - 1) % 256 + 2 ^ 73)

/-- UTYPE of a header. -/
def headerType (h : BitVec 80) : Nat := bits h.toNat 74 73

/-- What a header says, with the payload. -/
def headerUnit (h : BitVec 80) (data : List Byte) : LinkUnit :=
  let n := h.toNat
  { vc := bits n 79 75, mcast := headerType h = 3, last := nbit n 72, lseq := bits n 71 60, dst := bits n 59 44
    dstStream := bits n 43 24, eseq := bits n 23 8, data := data }

/-- CRC-32C over header and payload; the header's byte 0 is its bits [7:0] (log 125). -/
def unitCrc (h : BitVec 80) (data : List Byte) : BitVec 32 := BitVec.ofNat 32 (crc32c (natLe h.toNat 10 ++ data))

/-- The 96-bit nonce of a link: key epoch, then unit counter (R265). -/
def linkNonce (epoch ctr : Nat) : Nat := 2 ^ 64 * (epoch % 2 ^ 32) + ctr % 2 ^ 64

/-- A unit as a port puts it on the wire: under LINK_CRYPT its payload is sealed with the header as associated data, and 16 bytes of tag follow
(R265, log 126). -/
def wireUnit (p : Port) (header : Nat → BitVec 80) (data : List Byte) : UnitWire :=
  let h := header (data.length + 16 * b2n p.crypt)
  let body :=
    if p.crypt then
      let x := gcmSeal p.key (linkNonce p.keyEpoch p.txCtr) (natLe h.toNat 10) data
      x.1 ++ x.2
    else data
  { header := h, data := body, crc := unitCrc h body }

/-- The payload of a unit that arrives whole: LEN and CRC hold and, under LINK_CRYPT, so does the tag (R247, R256, R265). -/
def openUnit (p : Port) (w : UnitWire) : Option (List Byte) :=
  if w.data.length ≠ bits w.header.toNat 7 0 + 1 || w.crc != unitCrc w.header w.data then none
  else if p.crypt then
    let n := w.data.length - 16
    gcmOpen p.key (linkNonce p.keyEpoch p.rxCtr) (natLe w.header.toNat 10) (w.data.take n) (w.data.drop n)
  else some w.data

/-- Put one unit on the wire. -/
def sendWire (s : State) (n : Nat) (header : Nat → BitVec 80) (data : List Byte) : State :=
  emit (modPort s n (fun p => { p with txCtr := p.txCtr + 1 })) (.unit n (wireUnit (getPort s n) header data))

/-- Units that a port has received, its FEC codewords corrected and not (R267), and the counter that its link key is used with. -/
def countUnit (s : State) (n : Nat) (fec : Nat × Nat) : State :=
  modReg (modPort s n (fun p => { p with rxCtr := p.rxCtr + 1 })) (R.FAB_PORT_FEC n) (fun w =>
    setFld (setFld w 31 0 ((fld w 31 0 + fec.1) % 2 ^ 32)) 63 32 ((fld w 63 32 + fec.2) % 2 ^ 32))

/-- Bytes that a unit takes of the 128 KiB replay buffer (R256): header, payload and CRC; 270 where the manual lays no payload out. -/
def unitBytes (m : Msg) : Nat := match m with | .unit u => 14 + u.data.length | _ => 270

/-- Bytes in the replay buffer of a port. -/
def replayBytes (p : Port) : Nat := p.vcs.foldl (fun a e => e.2.replay.foldl (fun a x => a + unitBytes x.2) a) 0

/-- A unit with its LSEQ and VC. -/
def stampUnit (m : Msg) (v seq : Nat) : Msg :=
  match m with
  | .unit u => .unit { u with vc := v, lseq := seq }
  | m => m

/-- Put a unit on the wire once. -/
def wireOnce (s : State) (n : Nat) (m : Msg) : State :=
  match m with
  | .unit u => sendWire s n (unitHeader u) u.data
  | m => emit (modPort s n (fun p => { p with txCtr := p.txCtr + 1 })) (.fab n m)

/-- Put a unit on the wire; timed units leave twice (R259). -/
def wirePut (s : State) (n v : Nat) (m : Msg) : State :=
  if v = 20 || v = 21 then wireOnce (wireOnce s n m) n m else wireOnce s n m

/-- A waiting unit may leave: the port is UP, a credit is held, and the replay buffer has room (R252, R256). -/
def mayLeave (p : Port) (v : Nat) (m : Msg) : Bool :=
  portUp p && (getVc p v).credits != 0 && decide (replayBytes p + unitBytes m ≤ 131072)

/-- Send the waiting units of a VC while they may leave. -/
def vcPump : Nat → State → Nat → Nat → State
  | 0, s, _, _ => s
  | k + 1, s, n, v =>
    let c := getVc (getPort s n) v
    match c.txq with
    | [] => s
    | m :: t =>
      if !mayLeave (getPort s n) v m then s
      else
        let m1 := stampUnit m v c.txSeq
        vcPump k (wirePut (modVc s n v (fun c => { c with
          txq := t, credits := c.credits - 1, txSeq := (c.txSeq + 1) % 4096, replay := c.replay ++ [(c.txSeq, m1)] })) n v m1) n v

/-- Send whatever may leave on every VC of a port. -/
def portPump (s : State) (n : Nat) : State :=
  (List.range 24).foldl (fun s v => vcPump (getVc (getPort s n) v).txq.length s n v) s

/-- Replay holds every port, and outbound units are discarded (R409). -/
def fabHeld (s : State) : Bool := fld (getReg s R.DBG_STATUS) 3 2 = 1

/-- Send a unit on VC `v` of a port: at once when a credit is held, else in order as credits return. -/
def portTx (s : State) (n v : Nat) (m : Msg) : State :=
  if fabHeld s then s
  else
    let s1 := modVc s n v (fun c => { c with txq := c.txq ++ [m] })
    vcPump (getVc (getPort s1 n) v).txq.length s1 n v

/-- VC of a message of the fabric block or the engines. -/
def msgVc : Msg → Nat
  | .unit u => u.vc
  | .ident _ => 23 | .wiring _ => 23 | .linkDown _ _ _ => 23 | .linkUp _ _ _ => 23 | .rekey _ => 23
  | .e2eAck _ _ _ _ => 18 | .mcastAck _ _ => 18 | .gcredit _ _ _ _ => 18
  | _ => 22

/-- Destination of a message that is routed; none for hop-local ones. -/
def msgDst : Msg → Option Nat
  | .unit u => some u.dst
  | .e2eAck d _ _ _ => some d
  | .reserve m => some m.dst | .release m => some m.dst | .grant m => some m.src | .refuse m => some m.src
  | .sealing d _ _ _ => some d
  | _ => none

/-- Route a message on: `lastDim` is the dimension of the link it came by, on VC `v`; a message to an unreachable destination is discarded
(R253). -/
def fabPass (s : State) (v : Nat) (lastDim : Option Nat) (m : Msg) : State :=
  match msgDst m with
  | some d =>
    (match routePort s d 0 with
      | some n => portTx s n (nextVc s v lastDim n) m
      | none => s)
  | none => s

/-- Route a message from this module. -/
def fabSend (s : State) (m : Msg) : State := fabPass s (msgVc m) none m

/-- A message for module `dst` arrives on VC `v` of a port (R253): the fabric block takes it in, and sends it on as a new one when it is another
module's. The second component says that it is for this module. -/
def hopIn (s : State) (n v dst : Nat) (m : Msg) : State × Bool :=
  let s1 := took s n v
  if dst = ownAddr s then (s1, true) else (fabPass s1 v (some (roleDim (roleOf s n))) m, false)

/-- A hop-local message back over a link on VC18 or VC19, or over the other link of its direction when that one is down (R253, R255). -/
def hopBack (s : State) (n : Nat) (m : Msg) : State :=
  let to_ := if portUp (getPort s n) then some n else (dirUp s (roleDim (roleOf s n)) (rolePlus (roleOf s n))).head?
  match to_ with
  | some k => portTx s k (nextVc s 18 none k) m
  | none => s

/-- Flood a notice on every port that routes, but the one it came by. -/
def fabFlood (s : State) (except : Option Nat) (m : Msg) : State :=
  eachPort s (fun s n => if portUp (getPort s n) && except != some n then portTx s n 23 m else s)

/-! ## CONTROL units (R248) -/

/-- Number of a list of 12-bit fields, the first lowest. -/
def ackNat (l : List Nat) : Nat := l.foldr (fun a n => a % 4096 + 4096 * n) 0

/-- NAK as its 24 bits. -/
def nakNat : Option (Nat × Nat) → Nat
  | some k => 1 + 2 * (k.1 % 32) + 64 * (k.2 % 4096)
  | none => 0

/-- The 64 bytes of a CONTROL unit: ACK, CREDIT, NAK. -/
def ctrlBytes (c : CtrlUnit) : List Byte :=
  natLe (ackNat c.ack) 36 ++ fitTo 24 (c.credit.map (BitVec.ofNat 8)) ++ natLe (nakNat c.nak) 3 ++ [0]

/-- A CONTROL unit from its payload. -/
def ctrlParse (b : List Byte) : CtrlUnit :=
  let k := leAt b 60 3
  { ack := (List.range 24).map (fun v => leAt b 0 36 / 4096 ^ v % 4096)
    credit := (List.range 24).map (fun v => leAt b (36 + v) 1)
    nak := if nbit k 0 then some (bits k 5 1, bits k 17 6) else none }

/-- Acknowledged LSEQ by VC. -/
def ackVec (p : Port) : List Nat := (List.range 24).map (fun v => (getVc p v).rxSeq)

/-- Send a CONTROL unit (R248, R252): the shared pool is lent anew, at most 255 credits a VC go back, and the rest wait for the next one. -/
def ctrlSend (s : State) (n : Nat) (nak : Option (Nat × Nat)) : State :=
  let s1 := (List.range 18).foldl (fun s v => modPort s n (fun p => setVc p v (lendVc p v))) s
  let p := getPort s1 n
  let u : CtrlUnit := { ack := ackVec p, credit := (List.range 24).map (fun v => min 255 (getVc p v).owed), nak := nak }
  let s2 := (List.range 24).foldl (fun s v => modVc s n v (fun c => { c with owed := c.owed - min 255 c.owed })) s1
  sendWire s2 n ctrlHeader (ctrlBytes u)

/-! ## Codes (R266, R267) -/

/-- Log a fabric event at a port. -/
def fabLog (s : State) (code port : Nat) : State := log s { code := code, loc := port, payload := 2 ^ 43 * (port % 16) }

/-! ## Timed slots (R259, R260) -/

/-- Free slots of a port: at most four reserved of its thirty-two. -/
def freeSlots (p : Port) : List Nat := if 4 ≤ p.slots.length then [] else ((List.range 32).filter (fun i => !p.slots.contains i)).take (4 - p.slots.length)

/-- The port of a direction that can hold `k` slots: primary link first, then the second; or the reason why none can. -/
def slotPort (s : State) (dst k : Nat) : Sum Nat Nat :=
  match routeDir s dst with
  | none => .inr 1
  | some dp =>
    let up := (dirUp s dp.1 dp.2).filter (fun n => (getPort s n).timedOk)
    match up.find? (fun n => decide (k ≤ (freeSlots (getPort s n)).length)) with
    | some n => .inl n
    | none => if up.isEmpty then .inr 2 else .inr 1

/-- Hold slots at a port. -/
def holdSlots (s : State) (n k : Nat) (m : AdmMsg) (fromPort : Option Nat) : State :=
  let sl := (freeSlots (getPort s n)).take k
  let s1 := modPort s n (fun p => { p with slots := p.slots ++ sl })
  { s1 with fab := { s1.fab with holds := s1.fab.holds ++ [(n, ⟨m, fromPort, sl, s.clk.time, false, false⟩)] } }

/-- Release a hold and its slots. -/
def dropHold (s : State) (h : Nat × Hold) : State :=
  let s1 := modPort s h.1 (fun p => { p with slots := p.slots.filter (fun i => !h.2.slots.contains i) })
  { s1 with fab := { s1.fab with holds := s1.fab.holds.filter (fun x => decide (x ≠ h)) } }

/-- The hold of an admission at this module. -/
def findHold (s : State) (m : AdmMsg) : Option (Nat × Hold) :=
  s.fab.holds.find? (fun h => h.2.adm.res = m.res && h.2.adm.src = m.src)

/-- FAB_ADMIT_STATUS (R267): code, hop, reason of the last admission. -/
def admitStatus (s : State) (code hop reason : Nat) : State :=
  setReg s R.FAB_ADMIT_STATUS (at_ code 32 ||| at_ (hop % 32) 8 ||| at_ reason 0)

end Sys2Proof.Machine
end

