-- ==== Sys2Proof/Machine/Stack.lean ====
section
/-! DEFINITION. Reading and writing the stack and the shared region: addresses, partition checks, poison, shared cache (08). -/

namespace Sys2Proof.Machine

/-- Two ranges share a byte. -/
def overlap (a n b m : Nat) : Bool := decide (a < b + m) && decide (b < a + n)

/-- Stack column of an address (R192). -/
def saColumn (sa : Nat) : Nat := sa / 256 % 64

/-- A partition-relative offset as a stack address (R198). -/
def relToSa (s : State) (p off : Nat) : Option Nat :=
  if off < regionSize s p then some (regionBase s p + off)
  else if 0x800000000 ≤ off && off < 0x800000000 + windowSize s && p < partCount s then
    some (windowBase s p + lessBy off 0x800000000)
  else none

/-- Is a range mapped, decided over every byte it covers; an empty range counts as its first byte (R198). -/
def relMapped (s : State) (p off len : Nat) : Bool :=
  let n := if len = 0 then 1 else len
  decide (off + n ≤ regionSize s p) ||
  (decide (0x800000000 ≤ off) && decide (off + n ≤ 0x800000000 + windowSize s) && decide (p < partCount s))

/-- Does a stack range lie in partition `p`'s region or window (R199). -/
def saAllowed (s : State) (p sa len : Nat) : Bool :=
  (decide (regionBase s p ≤ sa) && decide (sa + len ≤ regionBase s p + regionSize s p)) ||
  (decide (p < partCount s) && decide (windowBase s p ≤ sa) && decide (sa + len ≤ windowBase s p + windowSize s))

/-- Is a stack address in the shared region (R197). -/
def saShared (s : State) (sa : Nat) : Bool := decide (sharedBase s ≤ sa) && decide (sa < residueBase s)

def isPoison (s : State) (sector : Nat) : Bool := tget (fun _ => false) s.stack.poison sector
def setPoison (s : State) (sector : Nat) (b : Bool) : State :=
  { s with stack := { s.stack with poison := tset (fun _ => false) s.stack.poison sector b } }

/-- Is the column of an address fenced (R214). -/
def saFenced (s : State) (sa : Nat) : Bool := (getCol s (saColumn sa)).fenced

/-- Sectors that a range touches. -/
def sectorsOfRange (sa len : Nat) : List Nat :=
  if len = 0 then [] else (List.range ((sa + len - 1) / 32 - sa / 32 + 1)).map (fun i => sa / 32 + i)

/-- Does any byte of a range read as poisoned (R196, R214). -/
def rangePoison (s : State) (sa len : Nat) : Bool :=
  (sectorsOfRange sa len).any (fun k => isPoison s k || saFenced s (k * 32))

/-- Poison after a write of a range: full sectors are clean, partly written sectors keep theirs (R196). -/
def writePoison (s : State) (sa len : Nat) : State :=
  (sectorsOfRange sa len).foldl (fun s k =>
    if sa ≤ k * 32 && k * 32 + 32 ≤ sa + len && isPoison s k then setPoison s k false else s) s

/-! ## Slots of the column ports (R193, R194, R202) -/

/-- Granules numbered below `g` that lie in column `c` (R192). -/
def granulesBelow (g c : Nat) : Nat := (g + 63 - c) / 64

/-- Whole granules of a range in column `c`: one wide access each. -/
def wholeIn (sa n c : Nat) : Nat := granulesBelow ((sa + n) / 256) c - granulesBelow ((sa + 255) / 256) c

/-- The pieces of a range that do not cover a whole granule. -/
def partPieces (sa n : Nat) : List (Nat × Nat) :=
  let e := sa + n
  (if n = 0 || (sa % 256 = 0 && 256 ≤ n) then [] else [(sa, min n (256 - sa % 256))]) ++
  (if e % 256 = 0 || e / 256 = sa / 256 then [] else [(256 * (e / 256), e % 256)])

/-- Sectors of a range that it covers only in part. -/
def partSectors (sa n : Nat) : List Nat :=
  (sectorsOfRange sa n).filter (fun k => decide (32 * k < sa) || decide (sa + n < 32 * k + 32))

/-- Key of the slots that a partition's accesses have yet to take at a column, in the write or the read direction. -/
def owedKey (col : Nat) (write : Bool) (p : Nat) : Nat := 32 * col + 16 * b2n write + p

/-- `n` more slots to take (R202). -/
def oweSlots (s : State) (col : Nat) (write : Bool) (p n : Nat) : State :=
  if n = 0 || 16 ≤ p then s
  else { s with stack := { s.stack with owed := tmod (fun _ => 0) s.stack.owed (owedKey col write p) (· + n) } }

/-- The slots of an access in one direction: one for each whole granule, and one for each sector that another piece touches (R193, R194). -/
def chargeDir (s : State) (write : Bool) (p sa n : Nat) : State :=
  let s1 := (partPieces sa n).foldl (fun s x => oweSlots s (saColumn x.1) write p (sectorsOfRange x.1 x.2).length) s
  if n < 256 then s1 else (List.range 64).foldl (fun s c => oweSlots s c write p (wholeIn sa n c)) s1

def chargeRead (s : State) (p sa n : Nat) : State := chargeDir s false p sa n

/-- A write, and a read for each sector that it covers only in part (R194). -/
def chargeWrite (s : State) (p sa n : Nat) : State :=
  (partSectors sa n).foldl (fun s k => oweSlots s (saColumn (32 * k)) false p 1) (chargeDir s true p sa n)

/-! ## Errors that reads meet (R196, R199, R216) -/

/-- Who sends a request to a column port or a slice, as SOURCE of STK_FAULT tells them apart; the stream engine counts as the host (R216). -/
inductive Asker where
  | core | host | engine | grx | cache | swap | zeroise
  deriving DecidableEq, Repr

def Asker.code : Asker → Nat
  | .core => 0 | .host => 1 | .engine => 1 | .grx => 2 | .cache => 3 | .swap => 4 | .zeroise => 5

/-- Fields of STK_FAULT below VALID (R216). -/
def stkPayload (w : Asker) (p sa : Nat) : Nat := 2 ^ 41 * (saColumn sa) + 2 ^ 37 * (p % 16) + 2 ^ 34 * w.code + sa % 2 ^ 34

/-- STACK_PARTITION (0x0801) (R199). -/
def logPartition (s : State) (w : Asker) (p sa : Nat) : State :=
  log s { code := 0x801, part := p, loc := saColumn sa, payload := stkPayload w p sa }

/-- The uses of a column's bond lanes (R211). -/
inductive LaneUse where
  | readData | writeData | readCheck | writeCheck | control | spare
  deriving DecidableEq, Repr

/-- Use of lane `n` of 4,800. -/
def laneUse (n : Nat) : LaneUse :=
  if n < 2048 then .readData else if n < 4096 then .writeData else if n < 4352 then .readCheck
  else if n < 4608 then .writeCheck else if n < 4672 then .control else .spare

/-- A lane of a column counts one more corrected bit, and is the suspect when none has more (R213). -/
def countLane (k : Col) (lane : Nat) : Col :=
  let n := tget (fun _ => 0) k.corrected lane + 1
  let best := match k.suspect with | some l => tget (fun _ => 0) k.corrected l | none => 0
  { k with corrected := tset (fun _ => 0) k.corrected lane n, suspect := if best < n then some lane else k.suspect }

/-- A read meets an error (R196): counted, logged, the sector marked poisoned; it stands no longer. -/
def eccEvent (s : State) (w : Asker) (p : Nat) (e : Ecc) : State :=
  match e with
  | .ok => s
  | .corrected k lane =>
    let c := saColumn (32 * k)
    let s1 := modReg s (R.STK_COL_ECC c) (fun w => setFld w 31 0 (satAt (2 ^ 32 - 1) (fld w 31 0 + 1)))
    logMerged (modCol s1 c (fun x => countLane x lane.val)) { code := 0x802, part := 0xFF, loc := c, payload := stkPayload w p (32 * k) } 1000000000
  | .uncorrectable k =>
    let c := saColumn (32 * k)
    let s1 := modReg s (R.STK_COL_ECC c) (fun w => setFld w 63 32 (satAt (2 ^ 32 - 1) (fld w 63 32 + 1)))
    log (setPoison s1 k true) { code := 0x803, part := p, loc := c, payload := stkPayload w p (32 * k) }

/-- The sector of an error. -/
def eccSector : Ecc → Option Nat
  | .ok => none
  | .corrected k _ => some k
  | .uncorrectable k => some k

/-- An error that a command reports comes to stand in the stack until a read meets it or a write replaces its sector. -/
def latent (s : State) (e : Ecc) : State :=
  match eccSector e with
  | some k => { s with stack := { s.stack with errs := tset (fun _ => .ok) s.stack.errs k e } }
  | none => s

/-- Reads of sectors meet the errors that stand in them; a fenced column answers nothing of its own (R214). -/
def meetErrs (s : State) (w : Asker) (p : Nat) (ks : List Nat) : State :=
  let hit (k : Nat) : Bool := ks.contains k && !saFenced s (32 * k)
  let es := s.stack.errs.filter (fun e => hit e.1)
  if es.isEmpty then s
  else es.foldl (fun s e => eccEvent s w p e.2) { s with stack := { s.stack with errs := s.stack.errs.filter (fun e => !hit e.1) } }

/-- A write replaces whole sectors, with the errors that stand in them. -/
def dropErrs (s : State) (sa len : Nat) : State :=
  { s with stack := { s.stack with errs := s.stack.errs.filter (fun e => !(decide (sa ≤ 32 * e.1) && decide (32 * e.1 + 32 ≤ sa + len))) } }

/-! ## Shared cache (R204, R207) -/

def getLine (s : State) (g : Nat) : Option Line := tget (fun _ => none) s.stack.lines g
def setLine (s : State) (g : Nat) (l : Option Line) : State :=
  { s with stack := { s.stack with lines := tset (fun _ => none) s.stack.lines g l } }

/-- Bytes of the stack itself; a fenced column's bytes are whatever they are (log 14). -/
def rawRead (s : State) (sa n : Nat) : List Byte :=
  (List.range n).map (fun i =>
    if saFenced s (sa + i) then Config.lostByte (sa + i) else memGet s.stack.bytes (sa + i))

/-- Write the stack itself; writes to a fenced column are discarded (R214). -/
def rawWrite (s : State) (sa : Nat) (bs : List Byte) : State :=
  { s with stack := { s.stack with
      bytes := bs.zipIdx.foldl (fun m b => if saFenced s (sa + b.2) then m else memSet m (sa + b.2) b.1) s.stack.bytes } }

/-- Write a line back when it is dirty: a wide access of the line's partition (R202). -/
def lineBack (s : State) (g : Nat) : State :=
  match getLine s g with
  | some l =>
    if l.dirty then setLine (rawWrite (chargeWrite s l.part (256 * g) 256) (256 * g) l.data) g (some { l with dirty := false }) else s
  | none => s

/-- Least recently used line of a set that holds sixteen (R204). -/
def lruVictim (s : State) (g : Nat) : Option Nat :=
  let set := s.stack.lines.filter (fun e => decide (e.1 % 8192 = g % 8192))
  if set.length < 16 then none
  else (set.foldl (fun (a : Option (Nat × Nat)) e =>
    match e.2, a with
    | some l, some b => if l.lru < b.2 then some (e.1, l.lru) else some b
    | some l, none => some (e.1, l.lru)
    | none, a => a) none).map Prod.fst

/-- Bring a line in for partition `p`: hit or miss is counted, the victim is written back, and the fill is a wide read (R202, R204). -/
def lineIn (s : State) (p g : Nat) : State :=
  let s0 := { s with stack := { s.stack with lruClock := s.stack.lruClock + 1 } }
  match getLine s0 g with
  | some l => setLine (modReg s0 R.STK_SC_HITS (· + 1)) g (some { l with lru := s0.stack.lruClock })
  | none =>
    let s1 := match lruVictim s0 g with | some v => setLine (lineBack s0 v) v none | none => s0
    let s2 := meetErrs (chargeRead s1 p (256 * g) 256) .cache p (sectorsOfRange (256 * g) 256)
    setLine (modReg s2 R.STK_SC_MISSES (· + 1)) g (some ⟨p, false, rawRead s2 (256 * g) 256, s2.stack.lruClock⟩)

/-- Granules that a range touches. -/
def granules (sa len : Nat) : List Nat :=
  if len = 0 then [] else (List.range ((sa + len - 1) / 256 - sa / 256 + 1)).map (fun i => sa / 256 + i)

/-- One byte of the shared region as the cache holds it. -/
def cacheByte (s : State) (sa : Nat) : Byte :=
  match getLine s (sa / 256) with
  | some l => l.data.getD (sa % 256) 0
  | none => 0

/-- Replace bytes of cached lines. -/
def cacheWrite (s : State) (sa : Nat) (bs : List Byte) : State :=
  bs.zipIdx.foldl (fun s b =>
    let g := (sa + b.2) / 256
    match getLine s g with
    | some l => setLine s g (some { l with dirty := true, data := l.data.set ((sa + b.2) % 256) b.1 })
    | none => s) s

/-! ## One access of a partition (R194 to R199) -/

/-- Read a stack range: bytes, whether poisoned, and the state after the port's or the cache's work. -/
def saRead (s : State) (w : Asker) (p sa n : Nat) : List Byte × Bool × State :=
  if saShared s sa then
    let s1 := (granules sa n).foldl (fun s g => lineIn s p g) s
    ((List.range n).map (fun i => cacheByte s1 (sa + i)), rangePoison s1 sa n, s1)
  else
    let s1 := meetErrs (chargeRead s p sa n) w p (sectorsOfRange sa n)
    (rawRead s1 sa n, rangePoison s1 sa n, s1)

/-- Write a stack range: a sector written in part is read first (R194, R196). -/
def saWrite (s : State) (w : Asker) (p sa : Nat) (bs : List Byte) : State :=
  let n := bs.length
  if saShared s sa then
    let s1 := (granules sa n).foldl (fun s g => lineIn s p g) s
    cacheWrite (writePoison s1 sa n) sa bs
  else
    let s1 := meetErrs (chargeWrite s p sa n) w p (partSectors sa n)
    rawWrite (writePoison (dropErrs s1 sa n) sa n) sa bs

/-- The stack address that a request of partition `p` for a relative offset carries, mapped or not (R198; log 109). -/
def relSa (s : State) (p off : Nat) : Nat :=
  if off < 0x800000000 then regionBase s p + off else windowBase s p + lessBy off 0x800000000

/-- The value of a partition-relative range; zeros where it is not mapped (R199). -/
def relBytes (s : State) (p off n : Nat) : List Byte :=
  if relMapped s p off n then
    let sa := relSa s p off
    if saShared s sa then (List.range n).map (fun i => if (getLine s ((sa + i) / 256)).isSome then cacheByte s (sa + i) else (rawRead s (sa + i) 1).headD 0)
    else rawRead s sa n
  else List.replicate n 0

/-- Read a partition-relative range; the port refuses one that is not mapped wholly (R198, R199). -/
def relReadBy (w : Asker) (s : State) (p off n : Nat) : List Byte × Bool × State :=
  if n = 0 then ([], false, s)
  else if relMapped s p off n then saRead s w p (relSa s p off) n
  else (List.replicate n 0, true, logPartition s w p (relSa s p off))

/-- Write a partition-relative range. -/
def relWriteBy (w : Asker) (s : State) (p off : Nat) (bs : List Byte) : State :=
  if bs.length = 0 then s
  else if relMapped s p off bs.length then saWrite s w p (relSa s p off) bs
  else logPartition s w p (relSa s p off)

/-- Accesses of the stream engine, the step scheduler and the firmware. -/
def relRead (s : State) (p off n : Nat) : List Byte × Bool × State := relReadBy .engine s p off n
def relWrite (s : State) (p off : Nat) (bs : List Byte) : State := relWriteBy .engine s p off bs

/-- The state after a read whose value `relBytes` gives. -/
def relTouch (s : State) (p off n : Nat) : State := (relRead s p off n).2.2

/-! ## Zeroise writes (R56, R196, R202) -/

/-- Write areas of the stack to zero for partition `p`: whole sectors, which lose poison and errors; a fenced column discards its part, and the
first one is logged (R214). Scale Table entries of the areas leave their cache. -/
def zeroAreas (s : State) (p : Nat) (as : List (Nat × Nat)) : State :=
  let hit (a : Nat) : Bool := as.any (fun x => decide (x.1 ≤ a) && decide (a < x.1 + x.2)) && !saFenced s a
  let s1 := as.foldl (fun s a => chargeDir s true p a.1 a.2) s
  let s2 := { s1 with
    grx := { s1.grx with cacheDirty := s1.grx.cacheDirty.filter (fun e => !hit (scaleBase s + 4 * e.1)) }
    stack := { s1.stack with
      bytes := tclear s1.stack.bytes hit
      poison := tclear s1.stack.poison (fun k => hit (k * 32))
      errs := tclear s1.stack.errs (fun k => hit (k * 32)) } }
  match (List.range 64).find? (fun c => (getCol s c).fenced && as.any (fun a => decide (0 < wholeIn a.1 a.2 c))) with
  | some c => log s2 { code := 0x806, part := p, loc := c, payload := stkPayload .zeroise p (256 * c) }
  | none => s2

end Sys2Proof.Machine
end

