-- ==== Sys2Proof/Machine/StmOps.lean ====
section
/-! DEFINITION. What the stream engine's commands share: table entries, contexts, descriptors, completions, journals, sealing (09, 12, 15). -/

namespace Sys2Proof.Machine

/-! ## Table entries (R228, R230) -/

/-- The 128 bytes of an entry. -/
def entBytes (e : StrEnt) : List Byte :=
  [natLe e.ring 8, natLe e.compl 8, natLe e.producer 4, natLe e.accepted 4, natLe e.completed 4, natLe e.consumed 4,
   natLe e.gen 2, natLe e.log2 1, natLe e.cls 1, natLe e.kind 1, natLe e.flags 1, natLe e.prefetch 1, natLe e.vc 1,
   natLe e.key 4, natLe e.oldLimit 4, natLe e.shRing 8, natLe e.shCompl 8, natLe e.shLog2 1, [0], natLe e.vector 2,
   natLe e.peer 2, natLe e.mcast 2, natLe e.peerStream 4, natLe e.timedRes 4, natLe e.txSeq 8, natLe e.rxSeq 8,
   natLe e.journal 8, natLe e.bytesDone 8, List.replicate 16 0].flatten

/-- The entry that 128 bytes hold. -/
def entParse (b : List Byte) : StrEnt :=
  { ring := leAt b 0 8, compl := leAt b 8 8, producer := leAt b 16 4, accepted := leAt b 20 4, completed := leAt b 24 4
    consumed := leAt b 28 4, gen := leAt b 32 2, log2 := leAt b 34 1, cls := leAt b 35 1, kind := leAt b 36 1, flags := leAt b 37 1
    prefetch := leAt b 38 1, vc := leAt b 39 1, key := leAt b 40 4, oldLimit := leAt b 44 4, shRing := leAt b 48 8
    shCompl := leAt b 56 8, shLog2 := leAt b 64 1, vector := leAt b 66 2, peer := leAt b 68 2, mcast := leAt b 70 2
    peerStream := leAt b 72 4, timedRes := leAt b 76 4, txSeq := leAt b 80 8, rxSeq := leAt b 88 8, journal := leAt b 96 8
    bytesDone := leAt b 104 8 }

/-- Entry flags (R230). -/
def eEnabled (e : StrEnt) : Bool := nbit e.flags 0
def eOut (e : StrEnt) : Bool := nbit e.flags 1
def eRingStack (e : StrEnt) : Bool := nbit e.flags 2
def eCoreProd (e : StrEnt) : Bool := nbit e.flags 3
def eCoreCons (e : StrEnt) : Bool := nbit e.flags 4
def eJournal (e : StrEnt) : Bool := nbit e.flags 5
def eShadow (e : StrEnt) : Bool := nbit e.flags 6
def eClosed (e : StrEnt) : Bool := nbit e.flags 7
def eSealed (e : StrEnt) : Bool := nbit e.cls 0
def eTimed (e : StrEnt) : Bool := nbit e.cls 1 || e.kind = 4
def eFabric (e : StrEnt) : Bool := e.kind = 1 || e.kind = 4

/-- Set or clear flag bit `i`. -/
def setFlag (f i : Nat) (b : Bool) : Nat := f - b2n (nbit f i) * 2 ^ i + b2n b * 2 ^ i

/-- Index arithmetic modulo 2^32 (R231). -/
def m32 (n : Nat) : Nat := n % 2 ^ 32
def sub32 (a b : Nat) : Nat := (a + 2 ^ 32 - b % 2 ^ 32) % 2 ^ 32

/-- Partition of a stream, 16 when no range holds it. -/
def strPart (s : State) (idx : Nat) : Nat := (partOfIdx s idx).getD 16

/-- A stream of a partition under recovery (R309). -/
def recovers (s : State) (idx : Nat) : Bool := fld (getReg s R.STM_RECOVER_STATUS) 1 0 != 0 && s.stm.recParts.contains (strPart s idx)

/-- Is a partition's table in the stack (R228). -/
def tabInStack (s : State) (p : Nat) : Bool := (getReg s (R.STM_PART_TABLE p)).getLsbD 0

/-- Address of an entry in its table's space. -/
def tabAddr (s : State) (p idx : Nat) : Nat :=
  4096 * ((getReg s (R.STM_PART_TABLE p)).toNat / 4096) + 128 * (idx - (strRange s p).1)

/-- The table's copy of an entry: in the stack, or in host memory as the engine last wrote it. -/
def tableGet (s : State) (idx : Nat) : StrEnt :=
  match partOfIdx s idx with
  | some p =>
    if tabInStack s p then entParse (relBytes s p (tabAddr s p idx) 128) else tget (fun _ => {}) s.stm.table idx
  | none => {}

/-- Write the table's copy. -/
def tableSet (s : State) (idx : Nat) (e : StrEnt) : State :=
  match partOfIdx s idx with
  | some p =>
    if tabInStack s p then relWrite s p (tabAddr s p idx) (entBytes e)
    else hostWrite { s with stm := { s.stm with table := tset (fun _ => {}) s.stm.table idx e } } (p + 1) (tabAddr s p idx) (entBytes e)
  | none => s

/-- The authoritative copy: the context, or else the table entry (R311). -/
def entryOf (s : State) (idx : Nat) : StrEnt :=
  match getCtx s idx with | some c => c.ent | none => tableGet s idx

def setCtx (s : State) (idx : Nat) (c : Option Ctx) : State :=
  { s with stm := { s.stm with ctxs := tset (fun _ => none) s.stm.ctxs idx c } }

/-- Change an entry: the context becomes VALID and dirty; without one the table is written. -/
def modEntry (s : State) (idx : Nat) (f : StrEnt → StrEnt) : State :=
  match getCtx s idx with
  | some c => setCtx s idx (some { c with ent := f c.ent, st := .valid, dirty := true })
  | none => tableSet s idx (f (tableGet s idx))

/-! ## Streams of a partition -/

/-- Indexes of a partition whose entry may differ from zeros: all of a table in the stack, whose bytes programs can write too. -/
def partIdx (s : State) (p : Nat) : List Nat :=
  let r := strRange s p
  if tabInStack s p then (List.range r.2).map (fun i => r.1 + i) else (knownIdx s).filter (inRange r)

/-- Accepted work of a partition not yet completed (R53). -/
def streamsBusy (s : State) (p : Nat) : Bool := (partIdx s p).any (fun i => (entryOf s i).accepted != (entryOf s i).completed)

/-- A partition is idle (R53). -/
def partIdle (s : State) (p : Nat) : Bool :=
  (getPart s p).progs.all (fun e => e.2.isNone) && (getPart s p).loading.isNone && !streamsBusy s p

def moduleIdle (s : State) : Bool := (List.range 16).all (partIdle s)

/-! ## The context cache (R241, R242) -/

def isPending (s : State) (idx : Nat) : Bool := tget (fun _ => false) s.stm.pending idx
def setPending (s : State) (idx : Nat) (b : Bool) : State :=
  { s with stm := { s.stm with pending := tset (fun _ => false) s.stm.pending idx b } }

/-- A core queue request of the stream is in progress. -/
def coreUses (s : State) (idx : Nat) : Bool :=
  s.cores.any (fun k => k.2.fq.any (fun q => q.2.reqs.any (fun r => decide (r.stream = some idx) && !r.arrived)) ||
    k.2.pq.any (fun q => q.2.reqs.any (fun r => decide (r.dst = .stream idx))))

/-- A VALID context that is never chosen for eviction. -/
def ctxPinned (s : State) (idx : Nat) (c : Ctx) : Bool :=
  decide (c.ent.accepted ≠ c.ent.completed) || eShadow c.ent || eTimed c.ent || coreUses s idx ||
  (match s.stm.cmd with | some k => k.idx = idx | none => false)

/-- A FREE context exists. -/
def ctxFree (s : State) : Bool := decide (s.stm.ctxs.length < s.stm.capacity)

/-- Least recently used VALID context that is not pinned. -/
def lruCtx (s : State) : Option Nat :=
  (s.stm.ctxs.foldl (fun (a : Option (Nat × Nat)) e =>
    match e.2 with
    | some c =>
      if c.st = .valid && !ctxPinned s e.1 c then
        (match a with | some b => if c.lru < b.2 then some (e.1, c.lru) else some b | none => some (e.1, c.lru))
      else a
    | none => a) none).map Prod.fst

/-- The engine reads a stream's entry from its table in the stack (R204). -/
def tableTouch (s : State) (idx : Nat) : State :=
  match partOfIdx s idx with
  | some p => if tabInStack s p then relTouch s p (tabAddr s p idx) 128 else s
  | none => s

/-- Load a context from an entry; its pending bit is cleared. -/
def ctxPut (s : State) (idx : Nat) (e : StrEnt) : State :=
  let s1 := setPending (tableTouch s idx) idx false
  let s2 := { s1 with stm := { s1.stm with lruClock := s1.stm.lruClock + 1 } }
  setCtx s2 idx (some ⟨e, .valid, false, s2.stm.lruClock⟩)

/-- A context becomes FREE: the lowest-numbered pending stream is loaded (R242). -/
def ctxDrop (s : State) (idx : Nat) : State :=
  let s1 := setCtx s idx none
  match (s1.stm.pending.find? (fun e => e.2)).map Prod.fst with
  | some n => ctxPut s1 n (tableGet s1 n)
  | none => s1

/-- Begin an eviction: a dirty context writes back first (R241). -/
def ctxEvict (s : State) (idx : Nat) : State :=
  match getCtx s idx with
  | some c =>
    if c.dirty then tableSet (setCtx s idx (some { c with st := .evicting, dirty := false })) idx c.ent
    else ctxDrop s idx
  | none => s

/-- A FREE context, once clean ones have been evicted and pending streams have taken theirs (R241, R242). -/
def ctxRoom : Nat → State → Option State
  | 0, _ => none
  | n + 1, s =>
    if ctxFree s then some s
    else match lruCtx s with
      | some v => (match getCtx s v with | some c => if c.dirty then none else ctxRoom n (ctxDrop s v) | none => none)
      | none => none

/-- Use a stream's context; none when the requester must wait (R241, R242). -/
def ctxUse (s : State) (idx : Nat) : Option State :=
  match getCtx s idx with
  | some c =>
    let s1 := { s with stm := { s.stm with lruClock := s.stm.lruClock + 1 } }
    some (setCtx s1 idx (some { c with st := .valid, lru := s1.stm.lruClock }))
  | none =>
    (ctxRoom (s.stm.pending.length + 2) s).map (fun s1 => if (getCtx s1 idx).isSome then s1 else ctxPut s1 idx (tableGet s1 idx))

/-- A requester that must wait has the least recently used context evicted, unless an eviction is under way (R241). -/
def ctxWant (s : State) : State :=
  if s.stm.ctxs.any (fun e => match e.2 with | some c => c.st = .evicting | none => false) then s
  else match lruCtx s with | some v => ctxEvict s v | none => s

/-- An internal producer's use: the eviction's write-back is over before it goes on; with every context pinned the entry stays in its table. -/
def ctxNow (s : State) (idx : Nat) : State :=
  match ctxUse s idx with
  | some s1 => s1
  | none =>
    match lruCtx s with
    | some v => (match ctxUse (ctxDrop (ctxEvict s v) v) idx with | some s1 => s1 | none => s)
    | none => s

/-! ## Codes (R243, R244) -/

/-- Log a stream event: SOURCE 0 doorbell, 1 command, 2 descriptor, 3 core queue, 4 fabric, 5 mesh. -/
def stmLog (s : State) (code src idx : Nat) : State :=
  let p := strPart s idx
  log s { code := code, part := (if p < 16 then p else 0xFF), stream := idx,
          payload := 2 ^ 43 * (p % 16) + 2 ^ 40 * src + idx % 2 ^ 20 }

/-- Log a fabric event of a stream, at the port that it concerns, if any (R267, R398). -/
def fabStream (s : State) (code : Nat) (port : Option Nat) (idx : Nat) : State :=
  let p := strPart s idx
  log s { code := code, part := (if p < 16 then p else 0xFF), loc := port.getD 0xFFFF, stream := idx,
          payload := 2 ^ 43 * (port.getD 0 % 16) + idx % 2 ^ 20 }

/-! ## Descriptors (R232, R233) -/

def descParse (b : List Byte) : Desc :=
  { host := leAt b 0 8, stack := leAt b 8 8, len := leAt b 16 4, flags := leAt b 20 2, codec := leAt b 22 2, tag := leAt b 24 8 }

def descBytes (d : Desc) : List Byte :=
  natLe d.host 8 ++ natLe d.stack 8 ++ natLe d.len 4 ++ natLe d.flags 2 ++ natLe d.codec 2 ++ natLe d.tag 8

def dInt (d : Desc) : Bool := nbit d.flags 0
def dFence (d : Desc) : Bool := nbit d.flags 1
/-- CODEC, which every KIND 3 descriptor has (R392). -/
def dCodec (e : StrEnt) (d : Desc) : Bool := nbit d.flags 2 || e.kind = 3
def dAlgo (d : Desc) : Nat := if nbit d.flags 2 then d.codec % 256 else 0
def dLevel (d : Desc) : Nat := max 1 (bits d.codec 11 8)
/-- OUT_LOG2 counts only with CODEC set: without it a KIND 3 descriptor is a COPY of LENGTH bytes. -/
def dOutBytes (d : Desc) : Nat := 2 ^ (bits d.codec 15 12 + 12)

/-- Ring slot of index `i`. -/
def slotOf (e : StrEnt) (i : Nat) : Nat := i % 2 ^ e.log2

/-- The descriptor of index `i`: from the ring in the stack, or the host's bytes. -/
def ringDesc (s : State) (p : Nat) (e : StrEnt) (i : Nat) (hostData : List Byte) : Desc :=
  if eRingStack e then descParse (relBytes s p (e.ring + 32 * slotOf e i) 32) else descParse hostData

/-- Bytes of the stack that a descriptor's buffer covers (R233, R393). -/
def descSpan (e : StrEnt) (d : Desc) : Nat :=
  if nbit d.flags 2 && !eOut e && (e.kind = 0 || e.kind = 3) then dOutBytes d else d.len

/-- The vault of a locked partition: offset in its region (R366). -/
def vaultOf (s : State) (p : Nat) : Option Nat := (s.flash.locks.find? (fun l => l.1 = p)).map (fun l => l.2.vault)

/-- Most bytes of a timed descriptor (R261, R308, R374): 16 less with an encrypted link on the path or a journal, 16 less sealed. -/
def timedLimit (s : State) (e : StrEnt) : Nat :=
  256 - 16 * b2n (eJournal e || s.fab.holds.any (fun h => h.2.fromPort.isNone && h.2.adm.res = bits e.timedRes 23 8 && h.2.adm.crypt)) -
    16 * b2n (eSealed e)

/-- A descriptor that completes at once without data (R233, R261, R308, R366, R393). -/
def descInvalid (s : State) (p : Nat) (e : StrEnt) (d : Desc) : Bool :=
  bits d.flags 15 3 != 0 || d.len = 0 || decide (16777216 < d.len) ||
  !relMapped s p d.stack (descSpan e d) ||
  (e.kind = 2 && (d.host != 0)) ||
  (nbit d.flags 2 && !(e.kind = 0 || e.kind = 3)) ||
  (nbit d.flags 2 && (decide (2 < d.codec % 256) || (eOut e && bits d.codec 15 12 != 0))) ||
  (e.kind = 4 && eOut e && decide (timedLimit s e < d.len)) ||
  (isLocked s p && !eSealed e && d.host != 0) ||
  (isLocked s p && (match vaultOf s p with | some v => overlap d.stack (descSpan e d) v 131072 | none => false))

/-! ## Sealing (R369 to R376) -/

def getSlot (s : State) (n : Nat) : KeySlot := tget (fun _ => {}) s.sec.slots n

/-- LABEL of a stream (R372). -/
def labelOf (s : State) (e : StrEnt) (idx : Nat) : List Byte :=
  let own := (getReg s R.FAB_MOD_ADDR).toNat % 65536
  if eFabric e then
    if eOut e then natLe own 2 ++ natLe idx 4 ++ [1, 0] else natLe e.peer 2 ++ natLe (e.peerStream % 2 ^ 20) 4 ++ [1, 0]
  else natLe own 2 ++ natLe idx 4 ++ [if eOut e then 1 else 0, 0]

/-- The stream key (R372). -/
def streamKey (s : State) (e : StrEnt) (idx : Nat) : List Byte :=
  hkdfExpand (getSlot s (e.key % 4096)).secret (ascii "MFY2-ST" ++ labelOf s e idx ++ natLe (e.key / 4096) 4) 32

/-- The AAD (R374). -/
def sealAad (s : State) (e : StrEnt) (idx len : Nat) : List Byte := labelOf s e idx ++ natLe len 4 ++ natLe e.kind 1 ++ [0, 0, 0]

/-- Nonces (R374). -/
def hostNonce (e : StrEnt) (i : Nat) : Nat := 2 ^ 32 * e.gen + i
def fabNonce (seq : Nat) : Nat := seq % 2 ^ 64

/-! ## Interrupts of streams (R237) -/

/-- The message of a vector follows the completion records of function `fn`: while those wait at the host port it waits behind them. -/
def raiseBehind (s : State) (fn v : Nat) : State :=
  let e := getMsix s v
  if fnLive s (fnOfVec v) && e.unmasked && s.host.wait.any (fun w => w.1 = fn) then
    { s with host := { s.host with wait := s.host.wait ++ [(fn, .msix v e.addr e.data)] } }
  else raiseVec s v

/-- Raise a stream's vector: within 1,000 ns of its previous interrupt it is merged. -/
def raiseStream (s : State) (fn vec : Nat) : State :=
  if (match (getMsix s vec).lastSent with | some t => decide (s.clk.time < t + 1000) | none => false) then
    modMsix s vec (fun e => { e with merge := true, behind := fn })
  else modMsix (raiseBehind s fn vec) vec (fun e => { e with lastSent := some s.clk.time })

/-! ## Completion records (R237) -/

def complBytes (i gen status bytes tag time : Nat) : List Byte :=
  natLe i 4 ++ natLe gen 2 ++ natLe status 2 ++ natLe bytes 4 ++ natLe 0 4 ++ natLe tag 8 ++ natLe time 8

/-- Write a record into slot i of the completion ring. -/
def complPut (s : State) (idx i status bytes tag time : Nat) (int : Bool) : State :=
  let e := entryOf s idx
  let p := strPart s idx
  let a := e.compl + 32 * slotOf e i
  let r := complBytes i e.gen status bytes tag time
  let s1 := if eRingStack e then relWrite s p a r else hostWrite s (p + 1) a r
  if int then raiseStream s1 (p + 1) e.vector else s1

/-- A new generation takes effect (R240). -/
def newGen (e : StrEnt) (ring log2 compl : Nat) : StrEnt :=
  { e with ring := ring, log2 := log2, compl := compl, gen := (e.gen + 1) % 65536, producer := 0, accepted := 0, completed := 0,
           consumed := 0, oldLimit := 0, shRing := 0, shCompl := 0, shLog2 := 0, flags := setFlag (setFlag e.flags 6 false) 7 false }

/-- The switch when COMPLETED reaches OLD_LIMIT (R240). -/
def genSwitch (s : State) (idx : Nat) : State :=
  let e := entryOf s idx
  if eClosed e && e.completed = e.oldLimit then
    let s1 := raiseStream (complPut (stmLog s 0x50D 2 idx) idx e.oldLimit 0x50D 0 0 s.clk.time false) (strPart s idx + 1) e.vector
    modRt (modEntry s1 idx (fun e => newGen e e.shRing e.shLog2 e.shCompl)) idx
      (fun r => { r with pre := [], jrn := { r.jrn with recDone := 0 } })
  else s

/-- The fault record of a descriptor that completes with a code (R243, R398): class 05 in STM_FAULT with SOURCE 2, class 06 in FAB_FAULT. -/
def complLog (s : State) (idx : Nat) (f : Flight) : State :=
  let p := strPart s idx
  let pl := if f.status / 256 = 5 then 2 ^ 43 * (p % 16) + 2 ^ 40 * 2 + idx % 2 ^ 20 else idx % 2 ^ 20
  if f.status = 0 then s
  else log s { code := f.status, part := (if p < 16 then p else 0xFF), stream := idx, tag := f.desc.tag % 2 ^ 32, payload := pl }

/-- COMPLETED passes the oldest descriptor in flight, which is finished: its fault record, its record, its interrupt (R231, R237). -/
def complOne (s : State) (idx : Nat) (f : Flight) : State :=
  let s1 := modRt s idx (fun r => { r with flights := r.flights.drop 1 })
  let s2 := modEntry s1 idx (fun e => { e with
    completed := m32 (e.completed + 1), consumed := (getRt s1 idx).flights.head?.elim 0 Flight.used, bytesDone := (e.bytesDone + f.bytes) % 2 ^ 64 })
  genSwitch (complPut (complLog s2 idx f) idx f.idx f.status f.bytes f.desc.tag f.time (dInt f.desc)) idx

/-- The records of two descriptors that complete together make one packet to the stack, one request saved (R226): consecutive slots of one 256 B
granule. -/
def complMerge (s : State) (idx : Nat) (fs : List Flight) : State :=
  let e := entryOf s idx
  match fs with
  | f :: g :: _ =>
    let a := e.compl + 32 * slotOf e f.idx
    if g.fin && eRingStack e && slotOf e g.idx = slotOf e f.idx + 1 && (a + 32) / 256 = a / 256 then modReg s R.STM_MERGED (· + 1) else s
  | _ => s

/-- Every finished descriptor at the head completes. -/
def complAll : Nat → State → Nat → State
  | 0, s, _ => s
  | n + 1, s, idx =>
    match (getRt s idx).flights with
    | f :: fs => if f.fin then complAll n (complOne (complMerge s idx (f :: fs)) idx f) idx else s
    | [] => s

/-! ## The journal (R305 to R307) -/

/-- SEQ that a journal write with COMPLETED `comp` carries: a sender's first unit of that descriptor, or RX_SEQ after the last whole message (R306,
R307). -/
def jrnSeq (s : State) (idx comp : Nat) : Nat :=
  let e := entryOf s idx
  if !eFabric e then 0
  else if eOut e then
    (match (getRt s idx).flights.find? (fun f => f.idx = comp && (f.fin || f.landed || f.del != 0)) with | some f => f.seq0 | none => e.txSeq)
  else if (getRt s idx).msg.isEmpty then e.rxSeq else (getRt s idx).msgSeq

/-- A journal record (R306). -/
def jrnBytes (s : State) (idx : Nat) (acc comp count : Nat) : List Byte :=
  let e := entryOf s idx
  let r := getRt s idx
  let side := if eFabric e then (if eOut e then 2 else 4) else 0
  let last := if r.jrn.recDone = comp then none else r.flights.head?
  let on := comp != e.completed
  let cons := if on then ((r.flights ++ r.pend).drop 1).head?.elim 0 Flight.used else e.consumed
  let moved := if on then (e.bytesDone + r.flights.head?.elim 0 Flight.bytes) % 2 ^ 64 else e.bytesDone
  let b := natLe e.gen 2 ++ natLe (1 + side) 2 ++ natLe acc 4 ++ natLe comp 4 ++ natLe r.jrn.recDone 4 ++ natLe cons 4 ++
    natLe (last.elim 0 Flight.status) 2 ++ [0, 0] ++ natLe (jrnSeq s idx comp) 8 ++ natLe moved 8 ++ natLe count 8 ++
    natLe s.clk.time 8 ++ natLe (last.elim 0 Flight.bytes) 4
  b ++ natLe (crc32c b) 4

/-- Start a journal write with everything that has changed, or leave the change for the next write. -/
def jrnWrite (s : State) (idx : Nat) : State :=
  let e := entryOf s idx
  let r := getRt s idx
  if !eJournal e then s
  else if r.jrn.writing then modRt s idx (fun r => { r with jrn := { r.jrn with dirty := true } })
  else
    let acc := m32 (e.accepted + r.pend.length)
    let head := (r.flights ++ r.pend).head?
    let comp := if r.jrn.recDone = e.completed && (match head with | some f => f.fin | none => false) then m32 (e.completed + 1) else e.completed
    let n := r.jrn.count + 1
    let p := strPart s idx
    let b := jrnBytes s idx acc comp n
    let s1 := relWrite (relWrite s p (e.journal + 64 * (n % 2)) b) p (e.journal + 256 + 64 * (n % 2)) b
    modRt s1 idx (fun r => { r with jrn := { r.jrn with
      count := n, writing := true, dirty := false, wAccepted := acc, wCompleted := comp, wSeq := jrnSeq s idx comp } })

/-- A descriptor has finished: completions follow, through the journal where there is one (R231, R307). -/
def finished (s : State) (idx : Nat) : State :=
  if eJournal (entryOf s idx) then jrnWrite s idx else complAll (getRt s idx).flights.length s idx

/-- Change a flight by index. -/
def modFlight (s : State) (idx i : Nat) (f : Flight → Flight) : State :=
  modRt s idx (fun r => { r with
    flights := r.flights.map (fun x => if x.idx = i then f x else x)
    pend := r.pend.map (fun x => if x.idx = i then f x else x) })

/-- A flight finishes with a status and a byte count. -/
def flightEnd (s : State) (idx i status bytes : Nat) : State :=
  finished (modFlight s idx i (fun f => { f with fin := true, status := status, bytes := bytes, time := s.clk.time })) idx

/-! ## Acceptance (R234, R301) -/

/-- The descriptor of index ACCEPTED enters flight: at once, or after the journal write that records it. -/
def acceptDesc (s : State) (idx : Nat) (f : Flight) : State :=
  if eJournal (entryOf s idx) then jrnWrite (modRt s idx (fun r => { r with pend := r.pend ++ [f] })) idx
  else
    modEntry (modRt s idx (fun r => { r with flights := r.flights ++ [f] })) idx (fun e => { e with accepted := m32 (e.accepted + 1) })

/-- Index of the next descriptor to accept, acceptances that wait for the journal counted. -/
def nextIdx (s : State) (idx : Nat) : Nat := m32 ((entryOf s idx).accepted + (getRt s idx).pend.length)

/-! ## Pieces of the stack that a stream moves -/

/-- Read a buffer: its bytes, and how many precede the first poisoned sector (R233). -/
def bufRead (s : State) (p a n : Nat) : List Byte × Nat × State :=
  let r := relRead s p a n
  if r.2.1 then
    let sa := relSa s p a
    (r.1, ((List.range n).takeWhile (fun i => !(isPoison r.2.2 ((sa + i) / 32) || saFenced s (sa + i)))).length, r.2.2)
  else (r.1, n, r.2.2)

end Sys2Proof.Machine
end

