-- ==== Sys2Proof/Machine/Stash.lean ====
section
/-! DEFINITION. Stash blocks of a partition and the reservations that STASH_FLOW streams count (R137 to R139, R447). -/

namespace Sys2Proof.Machine

/-- Slot entry by table index. -/
def slotEnt (g : Prog) (i : Nat) : Option SlotEnt := g.sched.slots[i]?

/-- Blocks reserved under a slot of the main sequence. -/
def stashOf (st : Step) (i : Nat) : List Nat := (st.held.find? (fun h => h.1 = i)).elim [] Prod.snd

/-- Every block held. -/
def stashHeld (st : Step) : List Nat := st.held.flatMap Prod.snd

/-- Free blocks, lowest first. -/
def stashFree (g : Prog) (st : Step) : List Nat := (List.range g.sched.stashBlocks).filter (fun b => !(stashHeld st).contains b)

/-- The blocks of a reservation: the first run of `n` free blocks in a row, else the `n` lowest free ones (log 29). -/
def stashPick (free : List Nat) (n : Nat) : List Nat :=
  match free.find? (fun b => (List.range n).all (fun i => free.contains (b + i))) with
  | some b => (List.range n).map (fun i => b + i)
  | none => free.take n

/-- The partition's STASH_FLOW stream: the lowest enabled one (log 29). -/
def stashStream (s : State) (p : Nat) : Option Nat :=
  let r := strRange s p
  ((List.range r.2).map (fun i => r.1 + i)).find? (fun i => eEnabled (entryOf s i) && (entryOf s i).kind = 2)

/-- The stash controller produces a reservation's descriptor, and the engine accepts it at once (R447). -/
def stashProduce (s : State) (p i : Nat) (g : Prog) (blocks : List Nat) : State :=
  match stashStream s p, blocks with
  | some idx, b :: _ =>
    let s := ctxNow s idx
    let e := entryOf s idx
    if 2 ^ e.log2 ≤ sub32 e.producer e.completed then s
    else
      let d : Desc := { host := 0, stack := g.sched.stashBase + 65536 * b, len := 65536 * blocks.length, flags := 0, codec := 0, tag := i }
      let a := e.ring + 32 * slotOf e e.producer
      let s1 := if eRingStack e then relWrite s p a (descBytes d) else hostWrite s (p + 1) a (descBytes d)
      let s2 := modEntry s1 idx (fun e => { e with producer := m32 (e.producer + 1) })
      let n := nextIdx s2 idx
      let s3 := acceptDesc s2 idx { idx := n, desc := d }
      if descInvalid s3 p e d then flightEnd s3 idx n 0x506 0 else s3
  | _, _ => s

/-- The engine finishes the descriptor of a freed reservation: its BYTES are its LENGTH (R447). -/
def stashFinish (s : State) (p i : Nat) : State :=
  match stashStream s p with
  | some idx =>
    (match (getRt s idx).flights.find? (fun f => !f.fin && f.desc.tag = i) with
      | some f => flightEnd s idx f.idx 0 f.desc.len
      | none => s)
  | none => s

/-- The controller can produce a descriptor: the ring of its stream is not full (R231, R447; log 111). -/
def stashRoom (s : State) (p : Nat) : Bool :=
  match stashStream s p with
  | some idx => decide (sub32 (entryOf s idx).producer (entryOf s idx).completed < 2 ^ (entryOf s idx).log2)
  | none => true

/-- Reserve `n` blocks under slot `i`, all or none (R138); the peak follows (R148). -/
def stashReserve (s : State) (p i n : Nat) (g : Prog) : Option State :=
  let st := (getPart s p).step
  let free := stashFree g st
  if n = 0 then some s
  else if free.length < n || !stashRoom s p then none
  else
    let bl := stashPick free n
    some (stashProduce (modStep s p (fun x => { x with
      held := x.held ++ [(i, bl)], peak := max x.peak ((stashHeld x).length + n) })) p i g bl)

/-- Free the blocks of slot `i` (R138). -/
def stashRelease (s : State) (p i : Nat) : State :=
  if (stashOf (getPart s p).step i).isEmpty then s
  else stashFinish (modStep s p (fun x => { x with held := x.held.filter (fun h => h.1 != i) })) p i

/-- Free every block of the partition (R139, R142). -/
def stashClear (s : State) (p : Nat) : State :=
  ((getPart s p).step.held.map Prod.fst).foldl (fun s i => stashRelease s p i) s

end Sys2Proof.Machine
end

