-- ==== Sys2Proof/Machine/CoreOps.lean ====
section
/-! DEFINITION. What the commands of a core share: registers, faults, step aborts, fences, scoreboard, queues, mesh requests (07). -/

namespace Sys2Proof.Machine

/-! ## Registers of a core (R164) -/

def gr (k : Core) (n : Nat) : W64 := if n = 0 then 0 else tget (fun _ => 0) k.gr n
/-- GR0 discards writes (R164). -/
def setGr (k : Core) (n : Nat) (v : W64) : Core := if n = 0 then k else { k with gr := tset (fun _ => 0) k.gr n v }
def vreg (k : Core) (n : Nat) : BitVec 8192 := tget (fun _ => 0) k.vr n
def setVreg (k : Core) (n : Nat) (v : BitVec 8192) : Core := { k with vr := tset (fun _ => 0) k.vr n v }
def stSlot (k : Core) (n : Nat) : W64 := tget (fun _ => 0) k.st n
def setSt (k : Core) (n : Nat) (v : W64) : Core := { k with st := tset (fun _ => 0) k.st n v }
def lcOf (k : Core) (n : Nat) : Nat := tget (fun _ => 0) k.lc n
def setLc (k : Core) (n v : Nat) : Core := { k with lc := tset (fun _ => 0) k.lc n v }
def fqOf (k : Core) (q : Nat) : FQ := tget (fun _ => {}) k.fq q
def setFq (k : Core) (q : Nat) (f : FQ) : Core := { k with fq := tset (fun _ => {}) k.fq q f }
def pqOf (k : Core) (q : Nat) : PQ := tget (fun _ => {}) k.pq q
def setPq (k : Core) (q : Nat) (f : PQ) : Core := { k with pq := tset (fun _ => {}) k.pq q f }
def uqOf (k : Core) (u : Nat) : List QEnt := tget (fun _ => []) k.uq u
def feedOf (k : Core) (u : Nat) : List Byte := tget (fun _ => []) k.feed u
/-- The value of an operand (R175). -/
def opnd (k : Core) (o : Opnd) : Nat := (o.base + (gr k o.reg).toNat * o.scale) % 2 ^ 64

/-- SLOT code of a unit (R189). -/
def slotNo : UnitId → Nat | .a0 => 0 | .a1 => 1 | .m => 2 | .v => 3 | .x => 4 | .c => 5
/-- The A slot of array `a`. -/
def unitOfArr (a : Fin 2) : UnitId := if a = 0 then .a0 else .a1
/-- Global number of array `a` of core `c` (R8). -/
def arrOf (c : Fin 256) (a : Fin 2) : Nat := 2 * c.val + a.val

/-- A core that carries out commands of its program: powered, not fused, in RUN, WAIT or STALL (R189). -/
def coreRuns (s : State) (c : Nat) : Bool :=
  onDie s && !halting s && !isFused s c &&
  (match (getCore s c).run with | .run => true | .wait => true | .stall => true | _ => false)

/-- Bundle of the instruction at the head of a unit queue. -/
def headBundle (k : Core) (u : UnitId) : Nat := ((uqOf k (slotNo u)).head?.map QEnt.pc).getD k.pc

/-- A core after a unit has executed the head of its queue: it runs, and the head is gone with what it took (R166, R172). -/
def retired (k : Core) (u : UnitId) : Core :=
  { k with
    run := .run
    uq := tset (fun _ => []) k.uq (slotNo u) ((uqOf k (slotNo u)).drop 1)
    feed := tset (fun _ => []) k.feed (slotNo u) [] }

/-- A unit has executed the head of its queue. -/
def retire (s : State) (c : Nat) (u : UnitId) : State := modCore s c (fun k => retired k u)

/-- The command waits and keeps its place (R166, R173, R176): cause 0 a false WAIT or WAITP, 1 the scoreboard, 2 a full unit queue, 3 a full
queue or ring. COR_STALL of the cause (R189) counts one for each attempt, cycles being out of scope (log 96). -/
def hold (s : State) (c cause : Nat) : State :=
  traceEv (modReg (modCore s c (fun k => { k with run := if cause = 0 then .wait else .stall })) (R.COR_STALL c cause) (fun w => w + 1))
    c (if cause = 0 then 0 else 1) 0

/-! ## Stash reservations (R138, R177) -/

/-- Blocks of window `w` of the running slot: its own reservation, or its PAIR's (R177). -/
def windowBlocks (s : State) (p w : Nat) : List Nat :=
  match curProg s p, (getPart s p).step.run with
  | some g, some r =>
    if w = 0 then stashOf (getPart s p).step r.1
    else match slotEnt g r.2 with | some e => stashOf (getPart s p).step e.pair | none => []
  | _, _ => []

/-! ## Aborting a step (R142, R148) -/

/-- TIME spent with a FWD slot waiting for blocks, up to now (R148). -/
def stallTotal (s : State) (st : Step) : Nat := st.stallNs + (if st.waiting.isSome then s.clk.time - st.waitSince else 0)

/-- Contexts of which a fallback variant ran: main slots issued in another form (R148). -/
def fallbackMask (g : Option Prog) (st : Step) : Nat :=
  (List.range 64).foldl (fun a c =>
    if st.issued.any (fun e => e.1 != e.2 && (match g.bind (fun g => slotEnt g e.1) with
      | some x => x.typ = 1 && x.ctx = c
      | none => false)) then a + 2 ^ c else a) 0

/-- The step status block (R148). -/
def stepBlock (s : State) (p outcome : Nat) : List Byte :=
  let st := (getPart s p).step
  natLe (stepNo s p) 8 ++ natLe st.epoch0 8 ++ natLe outcome 2 ++ [0, 0] ++ natLe st.peak 4 ++ natLe (fallbackMask (curProg s p) st) 8 ++
    natLe (stallTotal s st) 8 ++ natLe st.faultSlot 4 ++ natLe st.issuedCount 4 ++ natLe s.clk.time 8 ++ List.replicate 8 0

/-- Write the step status block at STATUS, a partition-relative address (log 17). -/
def writeStatus (s : State) (p outcome : Nat) : State :=
  match curProg s p with
  | some g => relWrite s p g.sched.status (stepBlock s p outcome)
  | none => s

/-- An interval between steps begins: DRONE_FLOOR as it is now is in force through it (R54, R348). -/
def betweenNow (s : State) (p : Nat) : State := modPart s p (fun q => { q with betweenSteps := true, floorPct := s.tun.cur.droneFloor })

/-- Abort the running step of a partition once (R142): slots stop, READY will say failed, every block is free, the status block
carries the code. -/
def abortStep (s : State) (p code slot : Nat) : State :=
  let st := (getPart s p).step
  if !st.active || st.ready || st.aborted.isSome then s else
  writeStatus (stashClear (modStep (betweenNow s p) p (fun x => { x with
    aborted := some code, faultSlot := slot, run := none, stallNs := stallTotal s x, waiting := none, deadT0 := none,
    dlHeld := false, wdHeld := false, outcome := code })) p) p code

/-- Table index of the running slot, or none (R148). -/
def runIndex (s : State) (p : Nat) : Nat := match (getPart s p).step.run with | some r => r.2 | none => 0xFFFFFFFF

/-- The running step of a partition touches a range of the stack: in a fenced column it aborts (R214). -/
def touchColumn (s : State) (p sa len : Nat) : State :=
  if len != 0 && (List.range 64).any (fun c => (getCol s c).fenced && decide (granulesBelow (sa / 256) c < granulesBelow ((sa + len - 1) / 256 + 1) c)) then abortStep s p 0x806 (runIndex s p) else s

/-- The same for a partition-relative range. -/
def touchRel (s : State) (p off len : Nat) : State := if relMapped s p off len then touchColumn s p (relSa s p off) len else s

/-- TAG of the running slot, as fault records show it (R144, R398). -/
def runTag (s : State) (p : Nat) : Nat :=
  match curProg s p, (getPart s p).step.run with
  | some g, some r => (slotEnt g r.2).elim 0 SlotEnt.tag
  | _, _ => 0

/-! ## Faults of a core (R178) -/

/-- What a fault record names beside its code: the String and fret for the codes of 03. -/
structure FaultAt where
  loc : Nat
  payload : Nat
  deriving DecidableEq, Repr

/-- COR_FAULT fields (R189): TENANT, SLOT, BUNDLE. -/
def corPayload (k : Core) (u : UnitId) (bundle : Nat) : Nat := 2 ^ 45 * (k.tenant % 4) + 2 ^ 42 * (slotNo u) + bundle % 4096

/-- A core fault (R178): issue stops, queued operations are discarded, COR_FAULT and the log take the code, the step aborts. -/
def coreFaultB (s : State) (c : Nat) (u : UnitId) (bundle code : Nat) (at' : Option FaultAt) : State :=
  let pl := corPayload (getCore s c) u bundle
  let s1 := modCore s c (fun k => { k with run := .fault, uq := [], feed := [] })
  let s2 := firstFault s1 (R.COR_FAULT c) code pl
  let p := partOfCore s c
  let s3 := log (traceEv s2 c 4 code) { code := code, part := p.getD 0xFF, tag := p.elim 0 (runTag s2), loc := (at'.map FaultAt.loc).getD c, payload := (at'.map FaultAt.payload).getD pl }
  match p with
  | some p => abortStep s3 p code (runIndex s3 p)
  | none => s3

/-- A fault of the instruction at the head of a unit's queue. -/
def coreFaultAt (s : State) (c : Nat) (u : UnitId) (code : Nat) (at' : Option FaultAt) : State :=
  coreFaultB s c u (headBundle (getCore s c) u) code at'

def coreFault (s : State) (c : Nat) (u : UnitId) (code : Nat) : State := coreFaultAt s c u code none

/-- Trap codes of flags NAN, SAT, LONG, CANCEL, DIVZERO whose mask bit is set, lowest first (R120, R157). -/
def trapCode (mask : Nat) (flags : List Bool) : Option Nat :=
  ((flags.zipIdx.filter (fun f => f.1 && nbit mask f.2)).head?).map (fun f => 0x401 + f.2)

/-- Raise the lowest trapped flag of an operation that bundle `b` started. -/
def trapIf (s : State) (c : Nat) (u : UnitId) (b : Nat) (flags : List Bool) : State :=
  match trapCode (getCore s c).trap flags with
  | some code => coreFaultB s c u b code none
  | none => s

/-! ## Core store (R173, R174, R177) -/

/-- Base and size of the running tenant's allocation (R177). -/
def csAlloc (k : Core) : Nat × Nat :=
  match tget (fun _ => none) k.tens k.tenant with
  | some t => (t.base, t.size)
  | none => (0, 0)

/-- Inside the allocation. -/
def inFence (k : Core) (off len : Nat) : Bool := decide (off + len ≤ (csAlloc k).2)

/-- Bytes of core store at an offset of the running tenant. -/
def csRead (k : Core) (off n : Nat) : List Byte := memRead k.store ((csAlloc k).1 + off) n
def csWrite (k : Core) (off : Nat) (bs : List Byte) : Core := { k with store := memWrite k.store ((csAlloc k).1 + off) bs }

/-- Ring bytes that hold arrived, unreleased data: requests of `f` cover ring offset `i`. -/
def ringHas (f : FQ) (i : Nat) : Bool :=
  f.reqs.any (fun r => r.arrived && decide ((i + f.size - r.off % f.size) % f.size < r.len))

/-- A program read that touches ring bytes which have not arrived (R173). -/
def ringMiss (k : Core) (off n : Nat) : Bool :=
  k.fq.any (fun e =>
    let f := e.2
    f.size != 0 && overlap off n f.base f.size &&
    (List.range n).any (fun i =>
      decide (f.base ≤ off + i) && decide (off + i < f.base + f.size) && !ringHas f (off + i - f.base)))

/-- A program write into a fetch queue's ring (R174). -/
def ringHit (k : Core) (off n : Nat) : Bool := k.fq.any (fun e => e.2.size != 0 && overlap off n e.2.base e.2.size)

/-- A read finds an earlier pending write (R173). -/
def hazRead (k : Core) (off n : Nat) : Bool := k.ranges.any (fun r => r.write && overlap off n r.lo r.len)
/-- A write finds an earlier pending access (R173). -/
def hazWrite (k : Core) (off n : Nat) : Bool := k.ranges.any (fun r => overlap off n r.lo r.len)

/-! ## Elements (R95 to R101) -/

/-- Format of an R79 code. -/
def fmtOf : Nat → Option Fmt
  | 0 => some .e2m1 | 1 => some .e4m3 | 2 => some .e5m2 | 3 => some .int8 | 4 => some .fp16 | 5 => some .bf16
  | 6 => some .bs4 | 7 => some .bs8 | 8 => some .fp32 | _ => none

/-- R79 code of a format. -/
def fmtCode : Fmt → Nat
  | .e2m1 => 0 | .e4m3 => 1 | .e5m2 => 2 | .int8 => 3 | .fp16 => 4 | .bf16 => 5 | .bs4 => 6 | .bs8 => 7 | .fp32 => 8

/-- A layer of the running program, at its stack address (R136). -/
def layerAddr (s : State) (p layer : Nat) : Option Nat :=
  match curProg s p with
  | some g => if layer < g.sched.layers then some (g.sched.layerTable + 32 * layer) else none
  | none => none

/-! ## Gradient statistics (R133) -/

/-- Statistics of one step: 64 bins, ZERO, NONFINITE, BLOCKS, WIDE. -/
structure GStats where
  bins : List Nat
  zero : Nat
  nonfin : Nat
  blocks : Nat
  wide : Nat
  deriving DecidableEq, Repr

/-- Bin of an exponent (R133). -/
def binOf (e : Int) : Nat := if e ≤ -48 then 0 else if 15 ≤ e then 63 else (e + 48).toNat

def sat32 (n : Nat) : Nat := satAt 4294967295 n

/-- Add one value. -/
def GStats.add (g : GStats) (v : Num) : GStats :=
  if !v.isFin then { g with nonfin := sat32 (g.nonfin + 1) }
  else match ilog v with
    | none => { g with zero := sat32 (g.zero + 1) }
    | some e => { g with bins := g.bins.set (binOf e) (sat32 (g.bins.getD (binOf e) 0 + 1)) }

/-- A block whose smallest nonzero magnitude is below 2^-6 of its largest (R133). -/
def isWide (b : List Num) : Bool :=
  let fs := b.filter (fun v => v.isFin && !v.isZero)
  let hi := amax fs
  fs.any (fun v => match v with | .fin _ m e => !magLe hi (m, e + 6) | _ => false)

/-- Add a row of values, in blocks of 32 along its entries. -/
def GStats.addRow (g : GStats) (row : List Num) : GStats :=
  let bs := chunks 32 row
  let g1 := row.foldl GStats.add g
  { g1 with blocks := sat32 (g1.blocks + bs.length), wide := sat32 (g1.wide + (bs.filter isWide).length) }

/-- The record's 288 bytes (R136). -/
def GStats.bytes (g : GStats) : List Byte :=
  g.bins.flatMap (fun n => natLe n 4) ++ natLe g.zero 4 ++ natLe g.nonfin 4 ++ natLe g.blocks 4 ++ natLe g.wide 4 ++ List.replicate 16 0

def GStats.ofBytes (b : List Byte) : GStats :=
  { bins := (List.range 64).map (fun i => leAt b (4 * i) 4)
    zero := leAt b 256 4, nonfin := leAt b 260 4, blocks := leAt b 264 4, wide := leAt b 268 4 }

/-- Where the record of a step at epoch `e` stands: entry `e mod 16` of the ring at STATS_ADDR, so that a repeated step writes over the
records of the aborted one (R135, R136). -/
def statsAddr (s : State) (p layer e : Nat) : Option Nat :=
  (layerAddr s p layer).map (fun a => leNat (relBytes s p (a + 24) 8) + 288 * (e % 16))

/-- Epoch in force of the running program. -/
def epochNow (s : State) (p : Nat) : Nat := match curProg s p with | some g => g.epoch | none => 0

/-- Statistics with nothing counted. -/
def GStats.empty : GStats := { bins := List.replicate 64 0, zero := 0, nonfin := 0, blocks := 0, wide := 0 }

/-- Gradient values of a layer enter its record before conversion (R133); the first write of a step begins the record. -/
def gradStats (s : State) (p : Nat) (layer : Option Nat) (rows : List (List Num)) : State :=
  match layer with
  | none => s
  | some l =>
    match statsAddr s p l (epochNow s p) with
    | none => s
    | some a =>
      let g := if (getPart s p).step.stats.contains l then GStats.ofBytes (relBytes s p a 288) else GStats.empty
      modStep (relWrite (if (getPart s p).step.stats.contains l then relTouch s p a 288 else s) p a ((rows.foldl GStats.addRow g).bytes)) p (fun st => { st with stats := (st.stats ++ [l]).eraseDups })

/-! ## Fetch queues (R172) -/

def round32 (n : Nat) : Nat := (n + 31) / 32 * 32

/-- Ring bytes taken by the requests of a queue. -/
def fqUsed (f : FQ) : Nat := f.reqs.foldl (fun a r => a + round32 r.len) 0

/-- Room for one more request (R172, R173). -/
def fqRoom (f : FQ) (len : Nat) : Bool := decide (f.reqs.length < 64) && decide (fqUsed f + round32 len ≤ f.size)

/-- Take ring space for a request. -/
def fqPush (f : FQ) (len : Nat) (stream : Option Nat) : FQ :=
  { f with
    nextId := f.nextId + 1
    nextOff := (f.nextOff + round32 len) % f.size
    reqs := f.reqs ++ [{ id := f.nextId, off := f.nextOff, len := len, got := 0, taken := 0, arrived := false, stream := stream }] }

/-- Arrived requests not yet released, which stand first. -/
def fqArrived (f : FQ) : List FReq := f.reqs.takeWhile FReq.arrived

/-- Bytes that a hardware consumer can take. -/
def fqAvail (f : FQ) : Nat := (fqArrived f).foldl (fun a r => a + (r.len - r.taken)) 0

/-- Take bytes in request order; a request whose last byte is taken is released (R172). -/
def takeFrom (rd : Nat → Byte) : List FReq → Nat → List Byte × List FReq
  | [], _ => ([], [])
  | r :: rs, n =>
    if n = 0 || !r.arrived then ([], r :: rs)
    else
      let m := min n (r.len - r.taken)
      let bs := (List.range m).map (fun i => rd (r.off + r.taken + i))
      if r.taken + m = r.len then (bs ++ (takeFrom rd rs (n - m)).1, (takeFrom rd rs (n - m)).2)
      else (bs, { r with taken := r.taken + m } :: rs)

/-- Physical core-store address of ring offset `i`. -/
def ringAddr (k : Core) (f : FQ) (i : Nat) : Nat := (csAlloc k).1 + f.base + i % f.size

/-! ## The mesh as a core uses it (R218 to R222) -/

def absDiff (a b : Nat) : Nat := (a - b) + (b - a)
/-- Hops between two routers. -/
def hops (a b : Nat) : Nat := absDiff (coreRow a) (coreRow b) + absDiff (coreCol a) (coreCol b)

/-- The router of a list that is nearest to `src`, the lower number breaking ties (R219). -/
def nearest (src : Nat) : List Nat → Nat
  | [] => src
  | [a] => a
  | a :: b :: t => let r := nearest src (b :: t); if hops src a < hops src r || (hops src a = hops src r && decide (a ≤ r)) then a else r

/-- The four routers of a column port's block (R218). -/
def colRouters (c : Nat) : List Nat :=
  let r := 2 * (c / 8)
  let k := 2 * (c % 8)
  [r * 16 + k, r * 16 + k + 1, (r + 1) * 16 + k, (r + 1) * 16 + k + 1]

/-- The three routers of a fabric port (R218). -/
def portRouters (n : Nat) : List Nat :=
  match n with
  | 0 => [1, 2, 3] | 1 => [5, 6, 7] | 2 => [8, 9, 10] | 3 => [12, 13, 14]
  | 4 => [31, 47, 63] | 5 => [111, 127, 143] | 6 => [191, 207, 223]
  | 7 => [252, 253, 254] | 8 => [241, 242, 243]
  | 9 => [176, 192, 208] | 10 => [96, 112, 128] | _ => [16, 32, 48]

/-- South-east router of a column's block. -/
def sliceRouter (c : Nat) : Nat := (2 * (c / 8) + 1) * 16 + 2 * (c % 8) + 1

/-- Attach routers of endpoint `n` of a kind: the core's own router, a column port, a slice, a fabric port, the host port with the stream engine and
the management core, the step scheduler (R218, R221). -/
def attachRouters (kind n : Nat) : List Nat :=
  match kind with
  | 0 => [n]
  | 1 => colRouters n
  | 2 => [sliceRouter n]
  | 3 => portRouters n
  | 7 => [119]
  | _ => [246, 247, 248, 249]

/-- Source and destination routers of a packet between two endpoints: each end takes its router nearest the other (R219). -/
def routeEnds (src dst : List Nat) : Nat × Nat :=
  let d (a : Nat) : Nat := nearest a dst
  let a := src.foldl (fun b x => if hops x (d x) < hops b (d b) || (hops x (d x) = hops b (d b) && decide (x < b)) then x else b) (src.headD 0)
  (a, d a)

/-- Endpoint kind and router that serve a stack address for a requester at router `src` (R204, R218). -/
def saEnd (s : State) (src sa : Nat) : Nat × Nat :=
  let c := saColumn sa
  if saShared s sa then (2, sliceRouter c) else (1, nearest src (attachRouters 1 c))

/-- Pieces of a range that do not cross a 256 B boundary (R220). -/
def cut256 (fuel sa len : Nat) : List (Nat × Nat) :=
  match fuel with
  | 0 => []
  | f + 1 =>
    if len = 0 then [] else
    let n := min len (256 - sa % 256)
    (sa, n) :: cut256 f (sa + n) (len - n)

def cutSa (sa len : Nat) : List (Nat × Nat) := cut256 (len / 256 + 2) sa len

/-- Key of a core's outstanding request by tag. -/
def tagKey (c tag : Nat) : Nat := 1024 * c + tag

/-- Lowest free tag of a core. -/
def freeTag (s : State) (c : Nat) : Option Nat :=
  match (List.range (s.mesh.length + 1)).find? (fun t => !s.mesh.any (fun e => e.1 = tagKey c t)) with
  | some t => if t < 1024 then some t else none
  | none => none

/-- A request credit of core `c` for an endpoint: every endpoint grants it two, and one is out while its request has not been taken (R222, log 110). -/
def hasCredit (s : State) (c : Nat) (dst : Nat × Nat) : Bool :=
  decide ((s.mesh.filter (fun e => e.2.core = c && e.2.dst = dst && !e.2.taken)).length < 2)

/-- Place of the next request of core `c` in issue order. -/
def nextOrd (s : State) (c : Nat) : Nat := s.mesh.foldl (fun n e => if e.2.core = c then max n (e.2.ord + 1) else n) 0

/-- The endpoint that a packet names. -/
def dstOf (pk : Packet) : Nat × Nat := (pk.dstEp, pk.dstRouter)

/-- A request enters the mesh: it has a free tag and a credit; otherwise none. -/
def meshGo (s : State) (c : Nat) (pk : Packet) (m : MeshReq) : Option State :=
  if hasCredit s c (dstOf pk) then
    (freeTag s c).map (fun t =>
      let m' : MeshReq := { m with dst := dstOf pk, line := if pk.dstEp = 2 then some (pk.addr / 256) else none, ord := nextOrd s c, taken := false }
      emit { s with mesh := tput s.mesh (tagKey c t) m' } (.mesh { pk with tag := t }))
  else none

/-- Send a request, or keep it at the requester, behind those that wait there for the same endpoint (R222). -/
def meshSend (s : State) (c : Nat) (pk : Packet) (m : MeshReq) : State :=
  match (if (getCore s c).mwait.any (fun w => dstOf w.1 = dstOf pk) then none else meshGo s c pk m) with
  | some s1 => s1
  | none => modCore s c (fun k => { k with mwait := k.mwait ++ [(pk, m)] })

/-- Two atomics that one request may hold (R205, R226): one operation and type, not CAS, in one sector. -/
def atomsMerge (pk w : Packet) (a b : Option AtomSpec) : Bool :=
  match a, b with
  | some x, some y => decide (x = y) && decide (x.op ≠ .cas) && (pk.addr / 32 = (w.addr + w.len) / 32)
  | _, _ => false

/-- Two waiting requests make one packet (R226): one TYPE, one endpoint, consecutive addresses, within one 256 B granule. -/
def mergeable (pk w : Packet) (a b : Option AtomSpec) : Bool :=
  pk.typ = w.typ && (decide (pk.typ ≤ 1) || pk.typ = 6 || (pk.typ = 2 && atomsMerge pk w a b)) &&
  pk.dstEp = w.dstEp && pk.dstRouter = w.dstRouter && pk.part = w.part && w.addr = pk.addr + (pk.len + 1) && (w.addr + w.len) / 256 = pk.addr / 256

/-- The packet about to leave takes up the requests of its queue that wait behind it, in their order, while they continue it. -/
def mergeWait (pk : Packet) (m : MeshReq) : List (Packet × MeshReq) → Packet × MeshReq × List (Packet × MeshReq)
  | [] => (pk, m, [])
  | w :: ws =>
    if w.2.put = m.put && w.2.q = m.q && decide (m.q < 16) then
      if mergeable pk w.1 m.spec w.2.spec then
        mergeWait { pk with len := pk.len + (w.1.len + 1), data := pk.data ++ w.1.data }
          { m with more := m.more ++ [(w.2.id, w.2.off, w.2.len)] } ws
      else (pk, m, w :: ws)
    else ((mergeWait pk m ws).1, (mergeWait pk m ws).2.1, w :: (mergeWait pk m ws).2.2)

/-- The first waiting request whose endpoint has a credit for the core: those before it, itself, those after it. -/
def firstCredit (s : State) (c : Nat) : List (Packet × MeshReq) → Option (List (Packet × MeshReq) × (Packet × MeshReq) × List (Packet × MeshReq))
  | [] => none
  | w :: ws =>
    if hasCredit s c (dstOf w.1) then some ([], w, ws)
    else (firstCredit s c ws).map (fun r => (w :: r.1, r.2.1, r.2.2))

/-- Waiting requests of a core go while tags and credits last, with those that merge with them (R222, R226). -/
def meshPump : Nat → State → Nat → State
  | 0, s, _ => s
  | n + 1, s, c =>
    match firstCredit s c (getCore s c).mwait with
    | none => s
    | some x =>
      let r := mergeWait x.2.1.1 x.2.1.2 x.2.2
      match meshGo s c r.1 r.2.1 with
      | some s1 => meshPump n (modCore s1 c (fun k => { k with mwait := x.1 ++ r.2.2 })) c
      | none => s

/-- A response frees a tag. -/
def meshFree (s : State) (c tag : Nat) : State := meshPump 2 { s with mesh := tdel s.mesh (tagKey c tag) } c

/-- A packet is addressed to a fused core's own port, where it is discarded and completes as an unmapped access (R16, R219). -/
def fusedPort (s : State) (pk : Packet) : Bool := pk.dstEp = 0 && isFused s pk.dstRouter

/-- A request that no requester holds. -/
def noReq : MeshReq := { core := 0, put := false, q := 16, id := 0, off := 0, len := 0 }

/-- A destination takes a request out of its input buffer: a core's credit is back (R222). -/
def meshTaken (s : State) (pk : Packet) : State :=
  if pk.srcEp = 0 && s.mesh.any (fun e => e.1 = tagKey pk.srcRouter pk.tag) then
    let m := { tget (fun _ => noReq) s.mesh (tagKey pk.srcRouter pk.tag) with taken := true }
    meshPump 2 { s with mesh := tput s.mesh (tagKey pk.srcRouter pk.tag) m } pk.srcRouter
  else s

/-- A request at a slice waits for the earlier ones of its queue to the same line (R206). -/
def lineTurn (s : State) (pk : Packet) : Bool :=
  match (if pk.srcEp = 0 then s.mesh.find? (fun e => e.1 = tagKey pk.srcRouter pk.tag) else none) with
  | none => true
  | some e => e.2.line.isNone || !s.mesh.any (fun x =>
      x.2.core = e.2.core && x.2.put = e.2.put && x.2.q = e.2.q && decide (x.2.q < 16) && x.2.line = e.2.line && !x.2.taken && decide (x.2.ord < e.2.ord))

/-- A request packet of core `c`. -/
def corePacket (s : State) (c typ sa : Nat) (data : List Byte) (len : Nat) : Packet :=
  let e := saEnd s c sa
  { poison := false, addr := sa, tag := 0, part := (partOfCore s c).getD 0, len := len - 1, typ := typ, srcEp := 0, srcRouter := c,
    dstEp := e.1, dstRouter := e.2, data := data }

/-- READ requests for the pieces of a fetch; `off` counts bytes of the request. -/
def sendReads (s : State) (c q id : Nat) : List (Nat × Nat) → Nat → State
  | [], _ => s
  | (sa, n) :: t, off =>
    sendReads (meshSend s c (corePacket s c 0 sa [] n) { core := c, put := false, q := q, id := id, off := off, len := n }) c q id t (off + n)

/-- WRITE requests for the pieces of a put. -/
def sendWrites (s : State) (c q id : Nat) : List (Nat × Nat) → List Byte → State
  | [], _ => s
  | (sa, n) :: t, bs =>
    sendWrites (meshSend s c (corePacket s c 1 sa (bs.take n) n) { core := c, put := true, q := q, id := id, off := 0, len := n }) c q id t (bs.drop n)

/-! ## Where FETCH and PUT may go (R177) -/

/-- A checked stack end: a fault code, or the stack pieces in order. -/
inductive XRes where
  | fault (code : Nat)
  | sas (l : List (Nat × Nat))
  deriving DecidableEq, Repr

/-- Pieces of a partition-relative range. -/
def relPieces (s : State) (p off len : Nat) : List (Nat × Nat) :=
  match relToSa s p off with | some sa => cutSa sa len | none => []

/-- Pieces of a stash window, block by block. -/
def stashPieces (s : State) (p base : Nat) (bl : List Nat) (fuel off len : Nat) : List (Nat × Nat) :=
  match fuel with
  | 0 => []
  | f + 1 =>
    if len = 0 then [] else
    let n := min len (65536 - off % 65536)
    relPieces s p (base + 65536 * (bl.getD (off / 65536) 0) + off % 65536) n ++ stashPieces s p base bl f (off + n) (len - n)

/-- A stash window access (R138, R177). -/
def stashEnd (s : State) (p w off len : Nat) (write : Bool) : XRes :=
  let bl := windowBlocks s p w
  if (write && decide (w = 1)) || decide (65536 * bl.length < off + len) then .fault 0xB04
  else match curProg s p with
    | some g => .sas (stashPieces s p g.sched.stashBase bl (len / 65536 + 2) off len)
    | none => .fault 0xB04

/-- The segment that holds a range wholly (R177). -/
def segOf (g : Prog) (addr len : Nat) : Option Segment :=
  g.segs.find? (fun x => decide (x.base ≤ addr) && decide (addr + len ≤ x.base + 65536 * x.size))

/-- A window named as such: the STASH segment's access must allow it too (R177). -/
def stashForm (s : State) (p w off len : Nat) (write : Bool) : XRes :=
  match (curProg s p).bind (fun g => g.segs.find? (fun x => x.kind = 2)) with
  | none => .fault 0xA03
  | some x => if x.access < (if write then 2 else 1) then .fault 0xA03 else stashEnd s p w off len write

/-- Check a stack address of FETCH, PUT or ATOM; an address in the STASH segment is an offset into window 0 (log 18). -/
def memEnd (s : State) (p addr len : Nat) (write : Bool) : XRes :=
  match curProg s p with
  | none => .fault 0xA03
  | some g =>
    match segOf g addr len with
    | none => .fault 0xA03
    | some x =>
      if x.access < (if write then 2 else 1) then .fault 0xA03
      else if x.kind = 2 then stashEnd s p 0 (addr - x.base) len write
      else if relMapped s p addr len then .sas (relPieces s p addr len) else .fault 0xA03

/-! ## Puts into REMOTE queues (R172) -/

/-- Physical core and tenant of a virtual core of the program that core `c` runs. -/
def vcoreAt (s : State) (p v : Nat) : Option VCore := match curProg s p with | some g => g.vcores[v]? | none => none

/-- Virtual core that core `c` runs. -/
def vcoreOf (s : State) (c : Nat) : Option Nat :=
  match tget (fun _ => none) (getCore s c).tens (getCore s c).tenant with | some t => some t.vcore | none => none

/-- QUEUE_DATA packets of a put: the address is the ring's byte in the consumer's core store. -/
def sendQueue (s : State) (c q id dst rq : Nat) : List (Nat × Nat) → List Byte → State
  | [], _ => s
  | (off, n) :: t, bs =>
    let k := getCore s dst
    let b := bs.take n
    let pk : Packet :=
      { poison := false, addr := ringAddr k (fqOf k rq) off, tag := 0, part := (partOfCore s c).getD 0, len := n - 1, typ := 6,
        srcEp := 0, srcRouter := c, dstEp := 0, dstRouter := dst, data := b }
    sendQueue (meshSend s c pk { core := c, put := true, q := q, id := id, off := 0, len := n }) c q id dst rq t (bs.drop n)

/-- Send a waiting put to a REMOTE queue whose ring has room: it takes the ring space and its packets leave. -/
def remoteGo (s : State) (c q : Nat) (r : PReq) (dst rq : Nat) : State :=
  let f := fqOf (getCore s dst) rq
  let s1 := modCore s dst (fun k => setFq k rq (fqPush f r.len none))
  let s2 := modCore s1 c (fun k => setPq k q { pqOf k q with
    reqs := (pqOf k q).reqs.map (fun x => if x.id = r.id then { x with waiting := false, data := [] } else x) })
  sendQueue s2 c q r.id dst rq (cutSa f.nextOff r.len) r.data

/-- First waiting put of core `c` to queue `rq` of core `dst`. -/
def waitingPut (s : State) (c dst rq : Nat) : Option (Nat × PReq) :=
  ((getCore s c).pq.filterMap (fun e =>
    (e.2.reqs.find? (fun r => r.waiting && decide (r.dst = .remote dst rq))).map (fun r => (e.1, r)))).head?

/-- After ring space is released: the producer's waiting puts go while they fit. -/
def wakeRemote : Nat → State → Nat → Nat → State
  | 0, s, _, _ => s
  | n + 1, s, dst, rq =>
    match (fqOf (getCore s dst) rq).remote with
    | none => s
    | some v =>
      match partOfCore s dst with
      | none => s
      | some p =>
        match vcoreAt s p v with
        | none => s
        | some vc =>
          match waitingPut s vc.phys dst rq with
          | none => s
          | some w =>
            if fqRoom (fqOf (getCore s dst) rq) w.2.len then wakeRemote n (remoteGo s vc.phys w.1 w.2 dst rq) dst rq else s

/-- A hardware consumer takes `n` bytes of a queue (R172). -/
def fqTake (s : State) (c q n : Nat) : List Byte × State :=
  let k := getCore s c
  let f := fqOf k q
  let r := takeFrom (fun i => memGet k.store (ringAddr k f i)) f.reqs n
  (r.1, wakeRemote 64 (modCore s c (fun k => setFq k q { f with reqs := r.2 })) c q)

/-- A request of a put queue that the arrays or the Bridge make (R69, R88). -/
def pushUnnamed (s : State) (c q : Nat) (bs : List Byte) : State :=
  modCore s c (fun k =>
    let p := pqOf k q
    setPq k q { nextId := p.nextId + 1, reqs := p.reqs ++ [⟨p.nextId, bs.length, .unnamed, false, bs⟩] })

end Sys2Proof.Machine
end

