-- ==== Sys2Proof/Machine/SlotOps.lean ====
section
/-! DEFINITION. Slot instructions as a core's units see them: the bundle word, the registers and core-store bytes that an instruction touches,
program order, and the one rule by which a unit executes the head of its queue (R165 to R173). -/

namespace Sys2Proof.Machine

/-! ## The bundle word (R165, R169) -/

/-- Every slot, in slot order (R168). -/
def allSlots : List UnitId := [.a0, .a1, .m, .v, .x, .c]

/-- The bits of a slot in its bundle. -/
def slotBits (w : Nat) : UnitId → Nat
  | .a0 => bits w 31 0
  | .a1 => bits w 63 32
  | .m => bits w 103 64
  | .v => bits w 151 104
  | .x => bits w 199 152
  | .c => bits w 247 200

/-- VALID of a slot. -/
def slotValid (w : Nat) (u : UnitId) : Bool := nbit w (248 + slotNo u)

/-- WB as its 32 bits give it (R169); none when a reserved bit is set or OUT_FMT is reserved. -/
def decodeWb (b : Nat) : Option SlotOp :=
  if bits b 9 0 ≠ 0 then none
  else (fmtOf (bits b 23 20)).map (fun f =>
    .wb (Fin.ofNat 8 (bits b 26 24)) (if nbit b 14 then .queue (Fin.ofNat 16 (bits b 18 15)) else .store (Fin.ofNat 32 (bits b 19 15))) f
      (Fin.ofNat 16 (bits b 13 10)))

/-- OPCODE of WB in an A slot. -/
def isWbBits (b : Nat) : Bool := decide (bits b 31 27 = 5)

/-- An instruction that is WB. -/
def isWb : SlotOp → Bool | .wb _ _ _ _ => true | _ => false

/-- What the command says of a slot agrees with the slot's bits, as far as the manual gives them: the WB layout. -/
def slotAgrees (w : Nat) (x : Slot) : Bool :=
  match x.unit with
  | .a0 | .a1 => if isWbBits (slotBits w x.unit) then decide (x.op = decodeWb (slotBits w x.unit)) else !(x.op.any isWb)
  | _ => true

/-- The slots of a command are the valid slots of the word, each once. -/
def slotsMatch (w : Nat) (slots : List Slot) : Bool :=
  allSlots.all (fun u => decide ((slots.filter (fun x => x.unit = u)).length = b2n (slotValid w u))) && slots.all (slotAgrees w)

/-! ## What an instruction touches -/

/-- The slot that an instruction belongs to: an A slot, M, V, X or C (R169). -/
def opFits (u : UnitId) : SlotOp → Bool
  | .lds .. | .col .. | .swap | .pre .. | .wb .. | .spl .. | .bow .. => u = .a0 || u = .a1
  | .mv .. => u = .m
  | .vadd .. | .vmul .. | .vfma .. | .vmin .. | .vmax .. | .vcmp .. | .vsel .. | .vsfn .. | .vred .. | .vld .. | .vst .. | .vstat .. => u = .v
  | .fetch .. | .put .. | .pop .. | .lmove .. | .atom .. => u = .x
  | .wait .. | .waitp .. | .qcfg .. | .add .. | .sub .. | .and .. | .or .. | .xor .. | .shl .. | .shr .. | .movi .. | .br .. | .brc .. |
    .loop .. | .strd .. | .timerd .. | .nop => u = .c

/-- Registers that an operand reads; GR0 is never pending (R164). -/
def opndRegs (o : Opnd) : List RegRef := if o.reg = 0 then [] else [.gr o.reg]
def srcRegs : Src → List RegRef | .store o => opndRegs o | .queue _ => []
def endRegs : XEnd → List RegRef | .mem a => opndRegs a | .stash _ o => opndRegs o | _ => []
def aluReg : AluSrc → List RegRef | .reg n => [.gr n] | .imm _ => []

/-- Registers that a light-path operand names: general registers hold 8 bytes each, from GRn upward (log 27). -/
def lRegs (pl : LPlace) (len : Nat) : List RegRef :=
  match pl with
  | .store _ => []
  | .gr n => (List.range (cdiv len 8)).map (fun i => .gr (n + i))
  | .vr n _ => [.vr n]
/-- Registers of a light-path operand's address. -/
def lAddr : LPlace → List RegRef | .store o => opndRegs o | _ => []

/-- Registers that an instruction writes, at its end or later (R168, R173). -/
def opWrites : SlotOp → List RegRef
  | .wb _ _ _ st | .bow _ st | .mv _ st | .vstat st => [.st st]
  | .vadd _ d _ _ | .vmul _ d _ _ | .vfma _ d _ _ _ | .vmin _ d _ _ | .vmax _ d _ _ | .vcmp _ _ d _ _ | .vsel _ d _ _ _ | .vsfn _ d _ _ |
    .vred _ _ d _ _ | .vld d _ _ _ _ => [.vr d]
  | .lmove dst _ len => lRegs dst len
  | .add d _ _ | .sub d _ _ | .and d _ _ | .or d _ _ | .xor d _ _ | .shl d _ _ | .shr d _ _ | .movi d _ | .strd d _ | .timerd d => [.gr d]
  | _ => []

/-- Registers that an instruction reads. -/
def opReads : SlotOp → List RegRef
  | .lds src _ _ mask base _ _ => srcRegs src ++ opndRegs mask ++ opndRegs base
  | .col _ src _ _ _ _ _ | .pre _ src _ _ => srcRegs src
  | .wb _ (.store r) _ _ => [.gr r]
  | .bow o _ | .mv o _ => opndRegs o
  | .vadd _ _ a b | .vmul _ _ a b | .vmin _ _ a b | .vmax _ _ a b | .vcmp _ _ _ a b | .vsfn _ _ a b => [.vr a, .vr b]
  | .vfma _ _ a b e | .vsel _ _ a b e => [.vr a, .vr b, .vr e]
  | .vred _ _ d a n => .vr d :: (List.range n).map (fun i => .vr (a + i))
  | .vld _ a b _ _ => opndRegs a ++ opndRegs b
  | .vst r a b _ _ _ => .vr r :: (opndRegs a ++ opndRegs b)
  | .fetch _ src len => endRegs src ++ opndRegs len
  | .put _ src dst len => opndRegs src ++ endRegs dst ++ opndRegs len
  | .lmove dst src len => lRegs src len ++ lRegs dst len ++ lAddr src ++ lAddr dst
  | .atom _ _ a b _ _ => opndRegs a ++ opndRegs b
  | .add _ a b | .sub _ a b | .and _ a b | .or _ a b | .xor _ a b | .shl _ a b | .shr _ a b => .gr a :: aluReg b
  | .brc r _ => [.gr r]
  | .strd _ st => [.st st]
  | _ => []

/-- Ranges that an asynchronous operation holds in the range table while it is in flight (R173). -/
def opRanges : SlotOp → Nat
  | .wb _ (.store _) _ _ | .mv _ _ | .vst .. => 2
  | .pre _ (.store _) _ _ | .put .. | .lmove .. => 1
  | _ => 0

/-- A core-store access of the running tenant. -/
structure Acc where
  off : Nat
  len : Nat
  write : Bool
  deriving DecidableEq, Repr

def rd (off len : Nat) : Acc := ⟨off, len, false⟩
def wr (off len : Nat) : Acc := ⟨off, len, true⟩

/-- Bytes of a column-mode tile: 96 rows of `cols` elements, then their scale codes; a block format holds 96 depths of each column in turn, in
three blocks (R100, R101, log 19). -/
def colElems (fmt : Fmt) (cols : Nat) : Nat := if fIsBlock fmt then cols * rowBytes fmt 96 else 96 * rowBytes fmt cols
def colScales (fmt : Fmt) (cols : Nat) : Nat := if fIsBlock fmt then 3 * cols else 0
def colBytes (fmt : Fmt) (cols : Nat) : Nat := colElems fmt cols + colScales fmt cols

/-- Bytes of a preload: 96 rows of N elements (R68). -/
def preBytes (fmt : Fmt) (n : Nat) : Nat := 96 * rowBytes fmt n

/-- The matrix-vector descriptor of 48 bytes at an offset of the tenant: the manual gives its parameters and no layout (log 97). -/
def mvBytes : Nat := 48
def mvParse (b : List Byte) : MvDesc :=
  { mode := leAt b 0 1 % 2 + leAt b 0 1 / 8 * 8, shape := leAt b 1 1, vectors := leAt b 2 1, rows := leAt b 8 4, depth := leAt b 12 4
    matFmt := leAt b 4 1, vecFmt := leAt b 5 1
    src := if nbit (leAt b 0 1) 2 then .queue (leAt b 3 1) else .store (leAt b 16 4)
    matScale := leAt b 20 4, vecAddr := leAt b 24 4, vecStride := leAt b 28 4, cont := nbit (leAt b 0 1) 1
    outFmt := leAt b 6 1, outAddr := leAt b 32 4, outScale := leAt b 36 4 }

/-- AXPY mode (R158). -/
def mvAxpy (d : MvDesc) : Bool := decide (d.mode = 1)
/-- Outputs per vector, and elements of one vector. -/
def mvN (d : MvDesc) : Nat := if mvAxpy d then d.depth else d.rows
def mvLen (d : MvDesc) : Nat := if mvAxpy d then d.rows else d.depth
def mvMatFmt (d : MvDesc) : Fmt := (fmtOf d.matFmt).getD .e4m3
def mvVecFmt (d : MvDesc) : Fmt := (fmtOf d.vecFmt).getD .e4m3
def mvOutFmt (d : MvDesc) : Fmt := (fmtOf d.outFmt).getD .fp32
/-- Bytes of one matrix row: elements, then scale codes (log 19). -/
def mvRowElems (d : MvDesc) : Nat := planeBytes (mvMatFmt d) d.depth
def mvRowScales (d : MvDesc) : Nat := if fIsBlock (mvMatFmt d) then d.depth / 32 else 0
def mvMatBytes (d : MvDesc) : Nat := d.rows * (mvRowElems d + mvRowScales d)
def mvVecBytes (d : MvDesc) : Nat := planeBytes (mvVecFmt d) (mvLen d)
def mvOutBytes (d : MvDesc) : Nat := rowBytes (mvOutFmt d) (mvN d)
def mvOutScales (d : MvDesc) : Nat := scaleBytes (mvOutFmt d) (mvN d)

/-- Ranges that an operation writes: the element rows and the scale rows of its vectors. -/
def mvOutAccs (d : MvDesc) : List Acc :=
  if d.cont then [] else
  [wr d.outAddr (d.vectors * mvOutBytes d)] ++ (if mvOutScales d = 0 then [] else [wr d.outScale (d.vectors * mvOutScales d)])

/-- Every access of an operation. -/
def mvAccs (d : MvDesc) : List Acc :=
  (List.range d.vectors).map (fun v => rd (d.vecAddr + v * d.vecStride) (mvVecBytes d)) ++
  (match d.src with
    | .store off => rd off (d.rows * mvRowElems d) :: (if mvRowScales d = 0 then [] else [rd d.matScale (d.rows * mvRowScales d)])
    | .queue _ => []) ++ mvOutAccs d

/-- Operand bytes of an atomic: CAS brings two words (R205). -/
def atomOperand (op : AtomOp) (len : Nat) : Nat := match op with | .cas => 2 * len | _ => len

/-- Bytes that a VLD reads: elements and scale codes, or slope codes of four bits (R100, R128, R151). -/
def vldAccs (k : Core) (addr scaleAddr : Opnd) (mode : VldMode) (n : Nat) : List Acc :=
  match mode with
  | .plain f => rd (opnd k addr) (planeBytes f n) :: (if fIsBlock f then [rd (opnd k scaleAddr) (n / 32)] else [])
  | .slope => [rd (opnd k addr) (n / 2)]

/-- Bytes that a VST writes. -/
def vstAccs (k : Core) (addr scaleAddr : Opnd) (fmt : Fmt) (mode : VstMode) (n : Nat) : List Acc :=
  match mode with
  | .plain => wr (opnd k addr) (planeBytes fmt n) :: (if fIsBlock fmt then [wr (opnd k scaleAddr) (n / 32)] else [])
  | _ => [wr (opnd k addr) (n / 2)]

/-- Elements of a vector register (R151). -/
def vLanes : VFmt → Nat | .fp32 => 256 | _ => 512

/-- Elements, mask bytes and scale codes of an LDS window: every group that the load may take. -/
def ldsHull (k : Core) (src : Src) (d : Nat) (fmt : Fmt) (mask base : Opnd) (groups : Nat) : List Acc :=
  rd (opnd k mask) groups :: (match src with
    | .store off =>
      let eb := rowBytes fmt d
      let sb := scaleBytes fmt d
      [rd (opnd k off + opnd k base * eb) (8 * groups * eb),
       rd (opnd k off + (opnd k base + 8 * groups) * eb + opnd k base * sb) (8 * groups * sb)]
    | .queue _ => [])

/-- Bytes of one side of a light-path move. -/
def lAcc (k : Core) (pl : LPlace) (len : Nat) (write : Bool) : List Acc := match pl with | .store o => [⟨opnd k o, len, write⟩] | _ => []

/-- Core-store bytes that an instruction waiting in a queue may touch; none when they are not known before it starts: a write-back's follow from
its group. -/
def opHull (k : Core) : SlotOp → Option (List Acc)
  | .lds src depth fmt mask base groups _ => some (ldsHull k src (depthOf depth) fmt mask base groups)
  | .col _ (.store o) slices _ fmt _ _ => some [rd (opnd k o) (colBytes fmt (4 * slices))]
  | .pre _ (.store o) n fmt => some [rd (opnd k o) (preBytes fmt n)]
  | .wb _ (.store _) _ _ => none
  | .bow o _ => some [rd (opnd k o) 16]
  | .mv o _ =>
    if hazRead k (opnd k o) mvBytes then none else some (rd (opnd k o) mvBytes :: mvAccs (mvParse (csRead k (opnd k o) mvBytes)))
  | .vld _ a b mode t => some (vldAccs k a b mode (vLanes t))
  | .vst _ a b fmt t mode => some (vstAccs k a b fmt mode (vLanes t))
  | .put _ o _ len => some [rd (opnd k o) (opnd k len)]
  | .lmove dst src len => some (lAcc k src len false ++ lAcc k dst len true)
  | .atom op _ _ o len _ => some [rd (opnd k o) (atomOperand op len)]
  | _ => some []

/-! ## Program order (R173) -/

/-- Queued instructions of the other units that stand before instruction `h` of unit `u` in program order: bundle order, then slot order. -/
def earlier (k : Core) (u : UnitId) (h : QEnt) : List QEnt :=
  k.uq.flatMap (fun q => if q.1 = slotNo u then [] else q.2.filter (fun e =>
    decide (e.seq < h.seq) || (decide (e.seq = h.seq) && decide (q.1 < slotNo u))))

/-- A register that a write-back, a matrix-vector operation or a sum Bow in flight will write. -/
def busyReg (k : Core) (r : RegRef) : Bool := k.apend.contains r

/-- The head of unit `u` must wait for a register: one that it reads or writes has an earlier write pending, at issue or in flight, or one that it
writes has an earlier read in a queue (R173, log 98). -/
def regHaz (k : Core) (u : UnitId) (op : SlotOp) : Bool :=
  let regs := opReads op ++ opWrites op
  regs.any (busyReg k) || (match (uqOf k (slotNo u)).head? with
    | some h => (earlier k u h).any (fun e => regs.any (fun r => (opWrites e.op).contains r) || (opWrites op).any (fun r => (opReads e.op).contains r))
    | none => false)

/-- Two accesses that must keep their order. -/
def accClash (a b : Acc) : Bool := (a.write || b.write) && overlap a.off a.len b.off b.len

/-- An operand of a queued instruction is not known yet. -/
def opUnknown (k : Core) (e : QEnt) : Bool :=
  (opReads e.op).any (fun r => busyReg k r || k.uq.any (fun q => q.2.any (fun f => decide (f.seq ≤ e.seq) && decide (f ≠ e) && (opWrites f.op).contains r)))

/-- The head of unit `u` would touch bytes before an earlier queued instruction has (R168, R173). -/
def ordHeld (k : Core) (u : UnitId) (accs : List Acc) : Bool :=
  match (uqOf k (slotNo u)).head? with
  | none => false
  | some h => !accs.isEmpty && (earlier k u h).any (fun e => match opHull k e.op with
    | none => true
    | some l => !l.isEmpty && (opUnknown k e || l.any (fun a => accs.any (accClash a))))

/-! ## Checked accesses (R173, R174, R177) -/

/-- Outcome of checking core-store accesses. -/
inductive Chk where
  | ok
  | stall
  | fault (code : Nat)
  deriving DecidableEq, Repr

/-- One access: its fence, a write into a ring, then earlier operations in flight and ring bytes that have not arrived. -/
def chkAcc (k : Core) (a : Acc) : Chk :=
  if !inFence k a.off a.len then .fault 0xA02
  else if a.write then (if ringHit k a.off a.len then .fault 0xA05 else if hazWrite k a.off a.len then .stall else .ok)
  else if hazRead k a.off a.len || ringMiss k a.off a.len then .stall else .ok

/-- Both checks: a fault of either comes before a stall. -/
def Chk.and : Chk → Chk → Chk
  | .fault a, _ => .fault a
  | _, .fault b => .fault b
  | .stall, _ => .stall
  | _, .stall => .stall
  | .ok, .ok => .ok

/-- Every access of an instruction at the head of unit `u`, with its place in program order. -/
def chkAccs (k : Core) (u : UnitId) (accs : List Acc) : Chk :=
  (accs.foldl (fun (c : Chk) a => c.and (chkAcc k a)) .ok).and (if ordHeld k u accs then .stall else .ok)

/-- Carry out an operation of a unit behind the checks of its accesses. -/
def checked (s : State) (c : Nat) (u : UnitId) (accs : List Acc) (go : State) : State :=
  match chkAccs (getCore s c) u accs with
  | .ok => go
  | .stall => hold s c 1
  | .fault code => coreFault s c u code

/-! ## Asynchronous operations (R173, R178) -/

/-- An operation in flight on a faulted core: its result is discarded (R178). -/
def coreFaulted (s : State) (c : Nat) : Bool := decide ((getCore s c).run = .fault)

/-- Kinds of the range table's entries: write-backs by array, the matrix-vector unit, preloads by array, puts by queue and request. -/
def wbKind (a : Fin 2) : Nat := a.val
def mvKind : Nat := 2
def preKind (a : Fin 2) : Nat := 3 + a.val
def putKind (q id : Nat) : Nat := 16 + (16 * id + q)

/-- Ranges that enter the table. -/
def holdRanges (k : Core) (accs : List Acc) (kind : Nat) : Core :=
  { k with ranges := k.ranges ++ accs.map (fun a => ⟨a.off, a.len, a.write, kind⟩) }

/-- Ranges of an operation that has ended leave the table (R173). -/
def dropRanges (k : Core) (kind : Nat) : Core := { k with ranges := k.ranges.filter (fun x => x.kind != kind) }

/-! ## A unit executes its queue in order (R166) -/

/-- The instruction stands at the head of its unit's queue. -/
def atHead (k : Core) (u : UnitId) (op : SlotOp) : Bool := match (uqOf k (slotNo u)).head? with | some h => decide (h.op = op) | none => false

/-- A command that says that a unit executes an instruction: nothing happens on a core that does not run, or when another instruction stands at
the head of the unit's queue; a pending register holds the unit (R166, R173). -/
def onUnit (s : State) (c : Nat) (u : UnitId) (op : SlotOp) (f : State → State) : Res :=
  .next (if coreRuns s c && atHead (getCore s c) u op then (if regHaz (getCore s c) u op then hold s c 1 else f s) else s)

/-! ## Queue bytes taken as a stream (R172) -/

/-- A hardware consumer at the head of unit `u` takes what has arrived of the `n` bytes that it needs, releasing requests as it goes; with all of
them it goes on, else it waits for more. -/
def fed (s : State) (c : Nat) (u : UnitId) (q n : Nat) (go : List Byte → State → State) : State :=
  let k := getCore s c
  let got := feedOf k (slotNo u)
  let m := min (fqAvail (fqOf k q)) (n - got.length)
  let t := fqTake s c q m
  if got.length + m < n then hold (modCore t.2 c (fun k => { k with feed := tset (fun _ => []) k.feed (slotNo u) (got ++ t.1) })) c 1
  else go (got ++ t.1) t.2

end Sys2Proof.Machine
end

