-- ==== Sys2Proof/Machine/StrOps.lean ====
section
/-! DEFINITION. What the commands of arrays and Strings share: tiles, groups, tile status, String faults (03, 04). -/

namespace Sys2Proof.Machine

def getGroup (a : Arr) (g : Nat) : Group := tget (fun _ => {}) a.groups g
def setGroup (a : Arr) (g : Nat) (x : Group) : Arr := { a with groups := tset (fun _ => {}) a.groups g x }

/-- CLOSED, and no preload under way (R67). -/
def grpClosed (a : Arr) (g : Nat) : Bool :=
  decide ((getGroup a g).st = .closed) && (match a.pre with | some o => o.group != g | none => true)

/-- Same window base and entries (R72). -/
def sameMap (a b : RowMap) : Bool := decide (a.base = b.base) && decide (a.entries = b.entries)

/-- Output row of a cell row, or none when it is gated or masked (R71). -/
def mapRow (m : RowMap) (cell : Nat) : Option Nat :=
  match m.entries[cell / 8]? with
  | some (some e) => if nbit e.1 (cell % 8) then some (m.base + 8 * e.2 + cell % 8) else none
  | _ => none

/-! ## Stationary tiles (R64, R70) -/

/-- Source groups of a window that load, and the next valid group beyond the twelve (R70). -/
def validGroups (masks : List Nat) : List (Nat × Nat) × Option Nat :=
  let v := masks.zipIdx.filter (fun m => m.1 != 0)
  (v.take 12, (v[12]?).map Prod.snd)

/-- The row map of a load. -/
def loadMap (base : Nat) (masks : List Nat) : RowMap :=
  { base := base, groups := masks.length
    entries := (List.range 12).map (fun e => (validGroups masks).1[e]?) }

/-- Cell rows of a tile: element codes of valid rows, empty for gated ones. `elem r` gives the bytes of source row r of the window. -/
def tileRows (f : Fmt) (d : Nat) (gs : List (Nat × Nat)) (elem : Nat → Nat → List Byte) : List (List Nat) :=
  gs.zipIdx.flatMap (fun ge => (List.range 8).map (fun i =>
    if nbit ge.1.1 i then (List.range d).map (planeElem f (elem (8 * ge.1.2 + i) (8 * ge.2 + i))) else []))

/-- Scale codes by cell row. -/
def tileScales (gs : List (Nat × Nat)) (sc : Nat → Nat → List Byte) : List (List Nat) :=
  gs.zipIdx.flatMap (fun ge => (List.range 8).map (fun i => (sc (8 * ge.1.2 + i) (8 * ge.2 + i)).map BitVec.toNat))

/-- Operand value at a cell; a gated row holds none. -/
def cellNum (t : Tile) (m k : Nat) : Option Num :=
  match t.rows[m]? with
  | some (e :: es) => some (unpackElem t.fmt ((e :: es).getD k 0) ((t.scales.getD m []).getD (k / 32) 0))
  | _ => none

/-! ## Accumulator entries (R109, R113, R116) -/

def entKey (row e : Nat) : Nat := 1024 * row + e
def entVal (g : Group) (row e : Nat) : A40 := tget (fun _ => 0) g.vals (entKey row e)
def entPeak (g : Group) (row e : Nat) : Nat := tget (fun _ => 0) g.peaks (entKey row e)

/-- Write an entry's value and raise its peak. -/
def setEnt (g : Group) (row e : Nat) (v : A40) : Group :=
  { g with
    vals := tset (fun _ => 0) g.vals (entKey row e) v
    peaks := tset (fun _ => 0) g.peaks (entKey row e) (max (entPeak g row e) (a40X v)) }

/-- Add one group sum into an entry (R109). -/
def addEnt (g : Group) (row e : Nat) (sum : Num) : Group := setEnt g row e (a40Add (entVal g row e) sum)

/-- One row-mode column into every valid row of a group (R61, R107). -/
def addColumn (t : Tile) (g : Group) (e : Nat) (col : List Num) : Group :=
  (List.range t.rows.length).foldl (fun g m =>
    match cellNum t m 0 with
    | none => g
    | some _ => addEnt g m e (groupSum (col.zipIdx.map (fun x => mulNum ((cellNum t m x.2).getD .zero) x.1)))) g

/-- A group as it opens: from zero, or from its preload, whose peaks start at the preloaded values (R110, R113, R116). -/
def openGroup (g : Group) (pre : Bool) (m : Option RowMap) (column : Bool) : Group :=
  if pre then { g with st := .open_, map := m, column := column, closing := false, bow := false }
  else { st := .open_, map := m, column := column }

/-! ## Tile status (R117, R119, R120) -/

/-- The status word of rows of entry flags; rows carry their number. -/
def statusWord (group : Nat) (rows : List (Nat × List EFlags)) : W64 :=
  let all := rows.flatMap (fun r => r.2.zipIdx.map (fun e => (r.1, e.2, e.1)))
  let first := all.find? (fun x => x.2.2.cancel)
  let gap := all.foldl (fun a x => max a x.2.2.gap) 0
  at_ gap 40 ||| at_ ((first.map Prod.fst).getD 0) 33 ||| at_ ((first.map (fun x => x.2.1)).getD 0) 21 ||| at_ group 8 |||
    at_ (b2n (all.any (fun x => x.2.2.cancel))) 3 ||| at_ (b2n (all.any (fun x => x.2.2.long))) 2 |||
    at_ (b2n (all.any (fun x => x.2.2.sat))) 1 ||| at_ (b2n (all.any (fun x => x.2.2.nan))) 0

/-- Flags of a status word in trap order: NAN, SAT, LONG, CANCEL. -/
def wordFlags (w : W64) : List Bool := [w.getLsbD 0, w.getLsbD 1, w.getLsbD 2, w.getLsbD 3]

/-- One row of entries as it leaves: element bytes, scale bytes, flags (R117, R121). -/
structure OutRow where
  row : Nat
  elems : List Byte
  scales : List Byte
  flags : List EFlags
  vals : List Num
  deriving DecidableEq, Repr

/-- Convert a row of accumulator entries with their peaks and term count. -/
def outRow (f : Fmt) (row : Nat) (es : List (A40 × Nat)) (count : Nat) : OutRow :=
  let vs := es.map (fun e => a40Num e.1)
  let r := packRow f vs
  { row := row, elems := r.1, scales := r.2.1, vals := vs
    flags := es.zipIdx.map (fun e => entryFlags e.1.1 e.1.2 count (r.2.2.getD e.2 {})) }

/-- Entries 0 to N - 1 of a row of a group. -/
def groupRow (g : Group) (row n : Nat) : List (A40 × Nat) := (List.range n).map (fun e => (entVal g row e, entPeak g row e))

/-- Cell rows that a write-back writes, with their output rows: the row map's; in column mode the depths that the tile gates are left out too
(R63, R69, log 102). -/
def wbRows (g : Group) : List (Nat × Nat) :=
  (List.range 96).filterMap (fun m =>
    if g.column && decide (g.depth ≤ m) then none
    else match g.map with
      | some rm => (mapRow rm m).map (fun o => (m, o))
      | none => some (m, m))

/-- Rows of the destination's element plane: to the end of the row map's window (log 19). -/
def wbPlaneRows (g : Group) : Nat :=
  match g.map with | some rm => rm.base + 8 * rm.groups | none => 96

/-! ## String faults (R91, R93, R94) -/

/-- Flag bit of a code in STR_FAULT_n. -/
def strFlag (code : Nat) : Nat := match code with | 0xA20 => 0 | 0xA22 => 2 | 0xA23 => 3 | 0xA25 => 4 | _ => 1

/-- Set a fault flag; CODE and FRET are of the first fault since the flags were clear. -/
def flagString (s : State) (n code fret : Nat) : State :=
  modReg s (R.STR_FAULT n) (fun w =>
    (if fld w 4 0 = 0 then setFld (setFld w 63 48 code) 47 40 fret else w) ||| at_ 1 (strFlag code))

def bowBits (d hi lo : Nat) : Nat := bits d hi lo
def bowSum (d : Nat) : Bool := nbit d 95
def bowBase (d : Nat) : Nat := bits d 100 98

/-- The last slice of a Bow's tile with CLOSE has yet to commit (R67, R91). -/
def inFlight (g : Group) : Bool := g.closing && g.bow

/-- Groups that Bows in flight have touched: that of the Bow in progress once it has begun, and those whose last slice has yet to commit. A Bow
without CLOSE is out of flight when its last slice leaves the Nut (log 103). -/
def touchedGroups (s : State) (n : Nat) : List Nat :=
  let frets := match strGeom s n with | some g => g.frets | none => []
  (List.range 8).filter (fun g =>
    (match (getStr s n).cur with
      | some c => c.started && decide (g = bowBase c.ent.desc + c.bow)
      | none => false) ||
    frets.any (fun a => inFlight (getGroup (getArr s a) g)))

/-- Descriptors that a Nut holds. -/
def heldBows (x : Str) : List BowEnt := x.waiting ++ (match x.cur with | some c => [c.ent] | none => [])

/-- The String's own part of a fault (R91, R311): descriptors and slices discarded, and with a sum Bow its pending status slot; touched groups
CLOSED, tokens and shadows discarded, STATE FAULT. -/
def strStop (s : State) (n code fret : Nat) : State :=
  let ts := touchedGroups s n
  let frets := match strGeom s n with | some g => g.frets | none => []
  let s1 := frets.foldl (fun s a => modArr s a (fun x =>
    { (ts.foldl (fun x g => setGroup x g {}) x) with shadow := none, sh := .free })) s
  let s2 := (heldBows (getStr s n)).foldl (fun s e =>
    if bowSum e.desc then modCore s e.core (fun k => { k with apend := k.apend.erase (.st (Fin.ofNat 16 e.st)) }) else s) s1
  let s3 := modStr s2 n (fun x => { x with run := .fault, cause := 0, waiting := [], cur := none, wrap := [], prevMode := none })
  flagString s3 n code fret

/-- A fault that the String raises (R91): stopped, logged, the step aborts. -/
def strFault (s : State) (n code fret : Nat) : State :=
  let s1 := strStop s n code fret
  let p := partOfStr s n
  let s2 := log s1 { code := code, part := p.getD 0xFF, loc := n, tag := (getStr s n).tag, payload := 2 ^ 40 * fret }
  match p with
  | some p => abortStep s2 p code (runIndex s2 p)
  | none => s2

/-- A fault that an array instruction raises by R67, R68 or R72: the String stops (R91) and so does the core (R178). -/
def arrFault (s : State) (c : Nat) (u : UnitId) (arr code : Nat) : State :=
  match fretOf s arr with
  | some nf => coreFaultAt (strStop s nf.1 code nf.2) c u code (some ⟨nf.1, 2 ^ 40 * nf.2⟩)
  | none => coreFaultAt s c u code (some ⟨0xFFFF, 0⟩)

/-! ## A String's idleness -/

/-- Drained: no Bow in progress and none whose last slice has yet to commit (R83, R85). -/
def strDrained (s : State) (n : Nat) : Bool :=
  (getStr s n).cur.isNone &&
  (match strGeom s n with
    | some g => g.frets.all (fun a => (List.range 8).all (fun k => !inFlight (getGroup (getArr s a) k)))
    | none => true)

/-- A String with nothing left to do is IDLE (R94). -/
def strSettle (s : State) (n : Nat) : State :=
  if (getStr s n).run != .fault && strDrained s n && (getStr s n).waiting.isEmpty then
    modStr s n (fun x => { x with run := .idle, cause := 0 })
  else s

end Sys2Proof.Machine
end

