-- ==== Sys2Proof/Machine/Arrays.lean ====
section
/-! DEFINITION. The commands of the A slots and the events of an array (R60 to R72, R169). -/

namespace Sys2Proof.Machine

/-- Stationary formats and DEPTH codes that LDS accepts (R79, R102, R170). -/
def ldsLegal (depth : Nat) (fmt : Fmt) (groups : Nat) : Bool :=
  decide (depth ≤ 3) && decide (fmt ≠ .fp32) && decide (groups ≤ 64) && !(decide (depth = 2) && fIsBlock fmt)

/-- A tile from a tensor in core store: rows from its start, the scale plane after the window's last row (R100, log 19). -/
def ldsStore (k : Core) (off base groups depth : Nat) (fmt : Fmt) (masks : List Nat) : Tile :=
  let d := depthOf depth
  let eb := rowBytes fmt d
  let sb := scaleBytes fmt d
  let plane := off + (base + 8 * groups) * eb
  let gs := (validGroups masks).1
  { fmt := fmt, depth := depth, map := loadMap base masks
    rows := tileRows fmt d gs (fun r _ => csRead k (off + (base + r) * eb) eb)
    scales := tileScales gs (fun r _ => csRead k (plane + (base + r) * sb) sb) }

/-- A tile from a queue: the loaded groups' element bytes, then their scale bytes (R172, log 19). -/
def ldsQueue (bs : List Byte) (base depth : Nat) (fmt : Fmt) (masks : List Nat) : Tile :=
  let d := depthOf depth
  let eb := rowBytes fmt d
  let sb := scaleBytes fmt d
  let gs := (validGroups masks).1
  { fmt := fmt, depth := depth, map := loadMap base masks
    rows := tileRows fmt d gs (fun _ c => (bs.drop (c * eb)).take eb)
    scales := tileScales gs (fun _ c => (bs.drop (gs.length * 8 * eb + c * sb)).take sb) }

/-- Core-store bytes of a load: the mask bytes, and the element and scale rows of the groups that it takes (R70). -/
def ldsAccs (off base groups depth : Nat) (fmt : Fmt) (masks : List Nat) : List Acc :=
  let d := depthOf depth
  let eb := rowBytes fmt d
  let sb := scaleBytes fmt d
  let plane := off + (base + 8 * groups) * eb
  (validGroups masks).1.flatMap (fun g =>
    rd (off + (base + 8 * g.2) * eb) (8 * eb) :: (if sb = 0 then [] else [rd (plane + (base + 8 * g.2) * sb) (8 * sb)]))

/-- The shadow slot takes a tile; the next valid group is reported (R64, R70): the array keeps it, and a load that continues begins there
(log 99). -/
def putShadow (s : State) (arr : Nat) (t : Tile) (next : Option Nat) : State :=
  modArr s arr (fun a => { a with shadow := some t, sh := .loading, nextGroup := next })

/-- Mask bytes of a load; one that continues skips the groups before the one that the last load reported (R70, log 99). -/
def maskBytes (k : Core) (x : Arr) (addr groups : Nat) (cont : Bool) : List Nat :=
  let ms := (csRead k addr groups).map BitVec.toNat
  if cont then ms.zipIdx.map (fun m => if m.2 < x.nextGroup.getD groups then 0 else m.1) else ms

/-- LDS (R64, R70, R71): starts only when the shadow slot is free; compacts rows by the mask bytes. -/
def execLds (c : Fin 256) (a : Fin 2) (src : Src) (depth : Nat) (fmt : Fmt) (mask base : Opnd) (groups : Nat) (s : State) (cont : Bool := false) : Res :=
  onUnit s c (unitOfArr a) (.lds src depth fmt mask base groups cont) (fun s =>
    let u := unitOfArr a
    let k := getCore s c
    let arr := arrOf c a
    let b := opnd k base
    let masks := maskBytes k (getArr s arr) (opnd k mask) groups cont
    let gs := validGroups masks
    let mr := rd (opnd k mask) groups
    if !ldsLegal depth fmt groups then coreFault s c u 0xA01
    else if (getArr s arr).sh ≠ .free then hold s c 1
    else match src with
      | .store off =>
        checked s c u (mr :: ldsAccs (opnd k off) b groups depth fmt masks)
          (retire (putShadow s arr (ldsStore k (opnd k off) b groups depth fmt masks) gs.2) c u)
      | .queue q =>
        checked s c u [mr] (fed s c u q (gs.1.length * 8 * (rowBytes fmt (depthOf depth) + scaleBytes fmt (depthOf depth)))
          (fun bs s => retire (putShadow s arr (ldsQueue bs b depth fmt masks) gs.2) c u)))

/-- SHADOW_LOAD_DONE (R64): the slot is loaded and its ready token stands at the Nut (R76, R92); on a faulted core the load is
discarded (R178). -/
def execShadowLoadDone (c : Fin 256) (a : Fin 2) (s : State) : Res :=
  .next (if onDie s && decide ((getArr s (arrOf c a)).sh = .loading) then
    modArr s (arrOf c a) (fun x =>
      if coreFaulted s c then { x with sh := .free, shadow := none } else { x with sh := .loaded })
  else s)

/-- A new stationary tile against the maps latched by OPEN groups (R72): SWAP names no group, so every OPEN group counts (DESIGN CHOICE,
log 100). -/
def mapClash (a : Arr) (t : Option Tile) : Bool :=
  (List.range 8).any (fun g =>
    let x := getGroup a g
    decide (x.st = .open_) && (match x.map, t with | some m, some t => !sameMap m t.map | _, _ => false))

/-- SWAP (R65): in column mode the shadow becomes active; waits for a running load; without a load it is illegal; a map that differs
from an OPEN group's faults (R72). -/
def execSwap (c : Fin 256) (a : Fin 2) (s : State) : Res :=
  onUnit s c (unitOfArr a) .swap (fun s =>
    let u := unitOfArr a
    let arr := arrOf c a
    let x := getArr s arr
    match x.sh with
    | .free => coreFault s c u 0xA01
    | .loading => hold s c 1
    | .loaded =>
      if mapClash x x.shadow then arrFault s c u arr 0xA22
      else retire (modArr s arr (fun x => { x with active := x.shadow, shadow := none, sh := .free })) c u)

/-- The active tile, or an array of gated rows. -/
def activeTile (a : Arr) (f : Fmt) : Tile :=
  match a.active with | some t => t | none => { fmt := f, depth := 0, rows := [], scales := [], map := ⟨0, 0, List.replicate 12 none⟩ }

/-- One column of a column-mode tile: the sums over rows of every depth enter row k of the group (R61, R111). -/
def addColumnMode (t : Tile) (g : Group) (e : Nat) (col : Nat → Num) : Group :=
  (List.range (depthOf t.depth)).foldl (fun g k =>
    addEnt g k e (groupSum ((List.range 96).map (fun m =>
      match cellNum t m k with | some v => mulNum v (col m) | none => .zero)))) g

/-- Element of row m, column j of a column-mode tile's bytes: a block covers 32 rows of one column (R101). -/
def colElem (fmt : Fmt) (cols : Nat) (bs : List Byte) (m j : Nat) : Num :=
  if fIsBlock fmt then
    unpackElem fmt (planeElem fmt bs (96 * j + m)) ((bs.getD (colElems fmt cols + 3 * j + m / 32) 0).toNat)
  else unpackElem fmt (planeElem fmt ((bs.drop (m * rowBytes fmt cols)).take (rowBytes fmt cols)) j) 0

/-- The tile added into its group (R61, R113): columns 0 to cols - 1 enter entries from `first`. A tile with CLOSE closes the group when it
commits, and a later tile without CLOSE does not take that back (R67). -/
def colApply (a : Arr) (g : Nat) (fmt : Fmt) (cols first : Nat) (opn cls : Bool) (bs : List Byte) : Arr :=
  let t := activeTile a fmt
  let x0 := getGroup a g
  let x := if opn then { openGroup x0 false (some t.map) true with depth := depthOf t.depth } else x0
  let y := (List.range cols).foldl (fun x j => addColumnMode t x (first + j) (fun m => colElem fmt cols bs m j)) x
  setGroup a g { y with count := termAdd y.count 96, used := max y.used (first + cols), closing := x.closing || cls }

/-- Streamed formats that COL accepts: a block format at DEPTH 2 of the stationary tile is not legal (R103, R170, log 101). -/
def colLegal (x : Arr) (fmt : Fmt) (group slices cols first : Nat) : Bool :=
  decide (fmt ≠ .fp32) && decide (slices ≠ 0) && decide (group < splitGroups x.split) && decide (first + cols ≤ splitEntries x.split) &&
  !(decide ((activeTile x fmt).depth = 2) && fIsBlock fmt)

/-- COL (R61, R67): one column-mode tile into a group that OPEN finds CLOSED, or that stands OPEN. -/
def execCol (c : Fin 256) (a : Fin 2) (group : Fin 8) (src : Src) (slices first : Nat) (fmt : Fmt) (opn cls : Bool) (s : State) : Res :=
  onUnit s c (unitOfArr a) (.col group src slices first fmt opn cls) (fun s =>
    let u := unitOfArr a
    let k := getCore s c
    let arr := arrOf c a
    let x := getArr s arr
    let cols := slices * colsPerCycle (activeTile x fmt).fmt fmt
    if !(if opn then grpClosed x group else decide ((getGroup x group).st = .open_)) then arrFault s c u arr 0xA21
    else if !colLegal x fmt group slices cols first then coreFault s c u 0xA01
    else match src with
      | .store o =>
        checked s c u [rd (opnd k o) (colBytes fmt cols)]
          (retire (setArr s arr (colApply x group fmt cols first opn cls (csRead k (opnd k o) (colBytes fmt cols)))) c u)
      | .queue q =>
        fed s c u q (colBytes fmt cols) (fun bs s => retire (setArr s arr (colApply (getArr s arr) group fmt cols first opn cls bs)) c u))

/-- Preload values: 96 rows of N elements in FP32 or BF16 become A40 exactly (R68, R121). -/
def preVals (fmt : Fmt) (n : Nat) (bs : List Byte) : List (List A40) :=
  (List.range 96).map (fun r => (List.range n).map (fun e =>
    toA40 (unpackElem fmt (planeElem fmt ((bs.drop (r * rowBytes fmt n)).take (rowBytes fmt n)) e) 0)))

/-- Formats and sizes that PRE accepts (R68). -/
def preLegal (group n : Nat) (fmt : Fmt) : Bool :=
  (decide (fmt = .fp32) || decide (fmt = .bf16)) && decide (1 ≤ n) && decide (n ≤ 1024) && decide (group = 0)

/-- PRE (R67, R68): SPLIT 0 only, a CLOSED group only; waits for the preload path. -/
def execPre (c : Fin 256) (a : Fin 2) (group : Fin 8) (src : Src) (n : Nat) (fmt : Fmt) (s : State) : Res :=
  onUnit s c (unitOfArr a) (.pre group src n fmt) (fun s =>
    let u := unitOfArr a
    let k := getCore s c
    let arr := arrOf c a
    let x := getArr s arr
    let go (bs : List Byte) (s : State) : State :=
      retire (modArr s arr (fun x => { x with pre := some ⟨group, preVals fmt n bs⟩ })) c u
    if x.split ≠ 0 then arrFault s c u arr 0xA24
    else if !grpClosed x group then arrFault s c u arr 0xA21
    else if !preLegal group n fmt then coreFault s c u 0xA01
    else if x.wb.isSome || x.pre.isSome then hold s c 1
    else match src with
      | .store o =>
        let r := rd (opnd k o) (preBytes fmt n)
        checked s c u [r] (modCore (go (csRead k (opnd k o) (preBytes fmt n)) s) c (fun k => holdRanges k [r] (preKind a)))
      | .queue q => fed s c u q (preBytes fmt n) go)

/-- The group as a preload leaves it: PRELOADED, one term, peaks at the values (R67, R113, R116). -/
def preGroup (vals : List (List A40)) : Group :=
  let n := (vals.headD []).length
  let g0 : Group := { st := .preloaded, count := 1, used := n }
  vals.zipIdx.foldl (fun g r => r.1.zipIdx.foldl (fun g e => setEnt g r.2 e.2 e.1) g) g0

/-- PRELOAD_DONE (R67): the group becomes PRELOADED; on a faulted core the result is discarded. -/
def execPreloadDone (c : Fin 256) (a : Fin 2) (s : State) : Res :=
  match (getArr s (arrOf c a)).pre with
  | some o =>
    .next (if onDie s then
      modCore (modArr s (arrOf c a) (fun x =>
        if coreFaulted s c then { x with pre := none } else { setGroup x o.group (preGroup o.vals) with pre := none })) c
        (fun k => dropRanges k (preKind a))
    else s)
  | none => .next s

/-- Core-store ranges that a write-back writes: element plane hull, scale plane hull (R69, R173). -/
def wbAccs (g : Group) (off : Nat) (fmt : Fmt) : List Acc :=
  let eb := rowBytes fmt g.used
  let sb := scaleBytes fmt g.used
  let outs := (wbRows g).map Prod.snd
  let lo := outs.foldl min (outs.headD 0)
  let hi := outs.foldl max 0 + 1
  if outs.isEmpty then [] else
  [wr (off + lo * eb) ((hi - lo) * eb)] ++ (if sb = 0 then [] else [wr (off + wbPlaneRows g * eb + lo * sb) ((hi - lo) * sb)])

/-- Destination of a write-back: the offset that DEST's register holds, or a put queue (R169). -/
def wbTo (k : Core) : WbDst → WbTo | .store r => .store (gr k r).toNat | .queue q => .queue q

/-- WB (R67, R69): starts the write-back of a DONE group; its status slot is pending until it completes (R173). -/
def execWb (c : Fin 256) (a : Fin 2) (group : Fin 8) (dst : WbDst) (fmt : Fmt) (st : Fin 16) (grad : Option Nat) (s : State) : Res :=
  onUnit s c (unitOfArr a) (.wb group dst fmt st) (fun s =>
    let u := unitOfArr a
    let k := getCore s c
    let arr := arrOf c a
    let x := getArr s arr
    let g := getGroup x group
    let rs := match wbTo k dst with | .store off => wbAccs g off fmt | .queue _ => []
    if g.st ≠ .done then arrFault s c u arr 0xA21
    else if x.wb.isSome || x.pre.isSome then hold s c 1
    else
      checked s c u rs
        (retire (modCore (setArr s arr { setGroup x group { g with st := .draining } with
            wb := some ⟨group, wbTo k dst, fmt, st, grad, headBundle k u⟩ }) c
          (fun k => holdRanges { k with apend := k.apend ++ [.st st] } rs (wbKind a))) c u))

/-- Every row that a write-back writes, converted. -/
def wbOut (g : Group) (fmt : Fmt) : List (OutRow × Nat) :=
  (wbRows g).map (fun r => (outRow fmt r.1 (groupRow g r.1 g.used) g.count, r.2))

/-- Write the rows into core store. -/
def wbStore (k : Core) (g : Group) (off : Nat) (fmt : Fmt) (rows : List (OutRow × Nat)) : Core :=
  let eb := rowBytes fmt g.used
  let sb := scaleBytes fmt g.used
  rows.foldl (fun k r =>
    csWrite (csWrite k (off + r.2 * eb) r.1.elems) (off + wbPlaneRows g * eb + r.2 * sb) r.1.scales) k

/-- End of an asynchronous operation: its register and ranges are no longer pending (R173). -/
def endAsync (k : Core) (r : RegRef) (kind : Nat) : Core := dropRanges { k with apend := k.apend.erase r } kind

/-- WRITEBACK_DONE (R69, R119, R120): the rows are written, the group is CLOSED, the status word delivered, trapped flags fault; on a
faulted core only the group closes (R178). -/
def execWritebackDone (c : Fin 256) (a : Fin 2) (s : State) : Res :=
  let arr := arrOf c a
  let x := getArr s arr
  match x.wb with
  | none => .next s
  | some o =>
    let g := getGroup x o.group
    let s1 := setArr s arr { setGroup x o.group {} with wb := none }
    if !onDie s then .next s
    else if coreFaulted s c then .next (modCore s1 c (fun k => endAsync k (.st o.st) (wbKind a)))
    else
      let rows := wbOut g o.fmt
      let w := statusWord o.group (rows.map (fun r => (r.1.row, r.1.flags)))
      let s2 := modCore s1 c (fun k => setSt (endAsync k (.st o.st) (wbKind a)) o.st w)
      let s3 := match o.dst with
        | .store off => modCore s2 c (fun k => wbStore k g off o.fmt rows)
        | .queue q => pushUnnamed s2 c q (rows.flatMap (fun r => r.1.elems) ++ rows.flatMap (fun r => r.1.scales))
      let s4 := gradStats s3 ((partOfCore s c).getD 16) o.grad (rows.map (fun r => r.1.vals))
      .next (trapIf (traceEv s4 c 3 a.val) c (unitOfArr a) o.bundle (wordFlags w))

/-- SPL (R67): legal only while every group of the array is CLOSED. -/
def execSpl (c : Fin 256) (a : Fin 2) (code : Nat) (s : State) : Res :=
  onUnit s c (unitOfArr a) (.spl code) (fun s =>
    let u := unitOfArr a
    let arr := arrOf c a
    let x := getArr s arr
    if !(List.range 8).all (fun g => grpClosed x g) then arrFault s c u arr 0xA21
    else if 3 < code then coreFault s c u 0xA01
    else retire (modArr s arr (fun x => { x with split := code })) c u)

end Sys2Proof.Machine
end

