-- ==== Sys2Proof/Machine/Control.lean ====
section
/-! DEFINITION. Issue of bundles and the instructions of the C slot (R164 to R176). -/

namespace Sys2Proof.Machine

/-! ## Issue (R165, R166, R168, R170) -/

/-- Whether two slots write the same register (R168). -/
def writesClash : List RegRef → Bool
  | [] => false
  | r :: t => t.contains r || writesClash t

/-- A valid slot whose instruction is not defined, has a reserved bit set, or belongs to another slot (R170). -/
def slotBad (x : Slot) : Bool := match x.op with | some op => !opFits x.unit op | none => true

/-- Registers that a slot writes. -/
def slotWrites (x : Slot) : List RegRef := x.op.elim [] opWrites

/-- A bundle that faults at issue with CORE_ILLEGAL (R165, R168, R170): its reserved bit, bits of a slot that is not valid, an illegal slot, or two
slots that write one register. -/
def bundleIllegal (w : Nat) (slots : List Slot) : Bool :=
  nbit w 255 || allSlots.any (fun u => !slotValid w u && slotBits w u != 0) || slots.any slotBad || writesClash (slots.flatMap slotWrites)

/-- The unit whose slot a fault at issue names: the first illegal slot, else the first (log 107). -/
def bundleUnit (slots : List Slot) : UnitId :=
  match slots.find? slotBad with
  | some x => x.unit
  | none => (slots.head?.map Slot.unit).getD .c

/-- Arrived requests of FQn not yet released. -/
def fqReady (k : Core) (q : Nat) : Nat := (fqArrived (fqOf k q)).length
/-- Requests of PQn not yet complete. -/
def pqBusy (k : Core) (q : Nat) : Nat := (pqOf k q).reqs.length

/-- A wait condition of the bundle is false (R166, R172). -/
def waitFalse (k : Core) (x : Slot) : Bool :=
  match x.op with
  | some (.wait q n) => decide (fqReady k q < n)
  | some (.waitp q n) => decide (n < pqBusy k q)
  | _ => false

/-- A wait on more than 64 requests (R174). -/
def waitOver (x : Slot) : Bool := match x.op with | some (.wait _ n) => decide (64 < n) | _ => false

/-- A unit queue that the bundle needs is full (R166). -/
def unitFull (k : Core) (slots : List Slot) : Bool := slots.any (fun x => decide (8 ≤ (uqOf k (slotNo x.unit)).length))

/-- The condition register of a branch is pending (R166, R173). -/
def branchPending (k : Core) (x : Slot) : Bool :=
  match x.op with
  | some (.brc r _) => busyReg k (.gr r) || k.uq.any (fun q => q.2.any (fun e => (opWrites e.op).contains (.gr r)))
  | _ => false

/-- Entries of the range table that queued instructions will take. -/
def rangesDue (k : Core) : Nat := (k.uq.flatMap (fun q => q.2.map (fun e => opRanges e.op))).foldl (· + ·) 0

/-- The bundle starts asynchronous operations for which the range table of 64 has no room (R166, R173). -/
def rangesFull (k : Core) (slots : List Slot) : Bool :=
  let n := slots.foldl (fun a x => a + x.op.elim 0 opRanges) 0
  decide (n ≠ 0) && decide (64 < k.ranges.length + rangesDue k + n)

/-- An instruction after which issue waits for the branch to resolve (R166). -/
def isBranch : SlotOp → Bool | .br _ => true | .brc _ _ => true | .loop _ _ _ => true | _ => false

/-- Every valid slot enters its unit's queue, and the next bundle follows; END ends the slot's code (R165, R166). -/
def issue (k : Core) (w : Nat) (slots : List Slot) : Core :=
  let n := k.seq + 1
  { k with
    run := .run
    seq := n
    pc := (k.pc + 1) % 4096
    ending := nbit w 254
    branching := slots.any (fun x => x.op.any isBranch)
    uq := slots.foldl (fun u x => match x.op with
      | some op => tset (fun _ => []) u (slotNo x.unit) (tget (fun _ => []) u (slotNo x.unit) ++ [⟨n, k.pc, op⟩])
      | none => u) k.uq }

/-- The bundle at the pc. -/
def bundleWord (k : Core) : Nat := (tget (fun _ => 0) k.istore k.pc).toNat

/-- BUNDLE_ISSUE (R165, R166, R168, R170, R174): the bundle at the pc issues whole, is held whole, or faults. A refusal with a code of its own
comes before CORE_ILLEGAL. A command whose slots are not those of the bundle's word changes nothing (log 94). -/
def execBundleIssue (c : Fin 256) (slots : List Slot) (s : State) : Res :=
  .next (if !coreRuns s c then s else
    let k := getCore s c
    let w := bundleWord k
    if k.ended || k.ending || !slotsMatch w slots then s
    else if slots.any waitOver then coreFaultB s c .c k.pc 0xA04 none
    else if bundleIllegal w slots then coreFaultB s c (bundleUnit slots) k.pc 0xA01 none
    else if slots.any (waitFalse k) then hold s c 0
    else if unitFull k slots then hold s c 2
    else if k.branching || slots.any (branchPending k) || rangesFull k slots then hold s c 1
    else modCore s c (fun k => issue k w slots))

/-! ## WAIT, WAITP, QCFG -/

/-- WAIT (R172, R174): holds until FQn has k arrived requests; consumes nothing. -/
def execWait (c : Fin 256) (q : Fin 16) (k : Nat) (s : State) : Res :=
  onUnit s c .c (.wait q k) (fun s =>
    if 64 < k then coreFault s c .c 0xA04
    else if fqReady (getCore s c) q < k then hold s c 0
    else retire s c .c)

/-- WAITP (R172): holds until PQn has at most k requests not yet complete. -/
def execWaitp (c : Fin 256) (q : Fin 16) (k : Nat) (s : State) : Res :=
  onUnit s c .c (.waitp q k) (fun s => if k < pqBusy (getCore s c) q then hold s c 0 else retire s c .c)

/-- Two virtual cores of one unit (R182): the same virtual String, or the same solo core. -/
def sameUnit (s : State) (p a b : Nat) : Bool :=
  match vcoreAt s p a, vcoreAt s p b with
  | some x, some y => decide (x.unit = y.unit) && (decide (x.unit ≠ 0xFF) || decide (a = b))
  | _, _ => false

/-- QCFG (R172, R174, R177): mode 0 is LOCAL, mode v + 1 REMOTE, fed by virtual core v of the same unit. -/
def execQcfg (c : Fin 256) (isPut : Bool) (q : Fin 16) (base size mode : Nat) (s : State) : Res :=
  onUnit s c .c (.qcfg isPut q base size mode) (fun s =>
    let k := getCore s c
    if (if isPut then !(pqOf k q).reqs.isEmpty else !(fqOf k q).reqs.isEmpty) then coreFault s c .c 0xA04
    else if isPut then retire s c .c
    else if !inFence k base size then coreFault s c .c 0xA02
    else if base % 4096 ≠ 0 || size % 4096 ≠ 0 ||
        (mode ≠ 0 && !sameUnit s ((partOfCore s c).getD 16) ((vcoreOf s c).getD 256) (mode - 1)) then coreFault s c .c 0xA01
    else
      retire (modCore s c (fun k => setFq k q
        { base := base, size := size, remote := if mode = 0 then none else some (mode - 1) })) c .c)

/-! ## Integer arithmetic (R169): modulo 2^64, no traps -/

/-- Second operand. -/
def aluVal (k : Core) : AluSrc → W64 | .reg n => gr k n | .imm v => v
/-- An integer instruction. -/
def aluOp (s : State) (c : Nat) (op : SlotOp) (d a : Nat) (b : AluSrc) (f : W64 → W64 → W64) : Res :=
  onUnit s c .c op (fun s =>
    retire (modCore s c (fun k => setGr k d (f (gr k a) (aluVal k b)))) c .c)

/-- ADD (R169). -/
def execAdd (c : Fin 256) (d a : Fin 32) (b : AluSrc) (s : State) : Res := aluOp s c (.add d a b) d a b (fun x y => x + y)
/-- SUB (R169). -/
def execSub (c : Fin 256) (d a : Fin 32) (b : AluSrc) (s : State) : Res := aluOp s c (.sub d a b) d a b (fun x y => x - y)
/-- AND (R169). -/
def execAnd (c : Fin 256) (d a : Fin 32) (b : AluSrc) (s : State) : Res := aluOp s c (.and d a b) d a b (fun x y => x &&& y)
/-- OR (R169). -/
def execOr (c : Fin 256) (d a : Fin 32) (b : AluSrc) (s : State) : Res := aluOp s c (.or d a b) d a b (fun x y => x ||| y)
/-- XOR (R169). -/
def execXor (c : Fin 256) (d a : Fin 32) (b : AluSrc) (s : State) : Res := aluOp s c (.xor d a b) d a b (fun x y => x ^^^ y)

/-- The result of a shift by 64 or more is not stated: a free value (log 23). -/
def shiftOr (x y z : W64) : W64 := if y.toNat < 64 then z else Config.bigShift x y

/-- SHL (R169). -/
def execShl (c : Fin 256) (d a : Fin 32) (b : AluSrc) (s : State) : Res :=
  aluOp s c (.shl d a b) d a b (fun x y => shiftOr x y (x <<< y.toNat))
/-- SHR (R169): logical (log 23). -/
def execShr (c : Fin 256) (d a : Fin 32) (b : AluSrc) (s : State) : Res :=
  aluOp s c (.shr d a b) d a b (fun x y => shiftOr x y (x >>> y.toNat))
/-- MOVI (R169). -/
def execMovi (c : Fin 256) (d : Fin 32) (v : W64) (s : State) : Res :=
  onUnit s c .c (.movi d v) (fun s => retire (modCore s c (fun k => setGr k d v)) c .c)

/-! ## Branches (R166) -/

/-- A branch is resolved; taken, its target issues next. -/
def branchTo (s : State) (c : Nat) (target : Option Nat) : State :=
  retire (modCore s c (fun k => { k with branching := false, pc := match target with | some t => t % 4096 | none => k.pc })) c .c

/-- BR (R166). -/
def execBr (c : Fin 256) (target : Nat) (s : State) : Res :=
  onUnit s c .c (.br target) (fun s => branchTo s c (some target))

/-- BRC (R166): taken when the condition register is not zero (log 23). -/
def execBrc (c : Fin 256) (r : Fin 32) (target : Nat) (s : State) : Res :=
  onUnit s c .c (.brc r target) (fun s => branchTo s c (if gr (getCore s c) r = 0 then none else some target))

/-- LOOP (R164, R166): with a count it opens a loop; without, it closes one, counting down and branching back while the counter is not
zero (log 23). -/
def execLoop (c : Fin 256) (lc : Fin 4) (init : Option Nat) (target : Nat) (s : State) : Res :=
  onUnit s c .c (.loop lc init target) (fun s =>
    match init with
    | some n => branchTo (modCore s c (fun k => setLc k lc (n % 2 ^ 32))) c none
    | none =>
      let n := lcOf (getCore s c) lc - 1
      branchTo (modCore s c (fun k => setLc k lc n)) c (if n = 0 then none else some target))

/-! ## STRD, TIMERD, NOP -/

/-- STRD (R169, R173): a status slot to a general register. -/
def execStrd (c : Fin 256) (d : Fin 32) (st : Fin 16) (s : State) : Res :=
  onUnit s c .c (.strd d st) (fun s => retire (modCore s c (fun k => setGr k d (stSlot k st))) c .c)

/-- Key under which a waiting TIMERD entry stands, by core. -/
def timerdKey (c : Nat) : Nat := 0x800000000 + c

/-- The value that core `c` is about to read, as record mode keeps it (R407). -/
def timerdRec (s : State) (c : Nat) : State :=
  recInput s 8 ((partOfCore s c).getD 16) c (s.clk.time % 2 ^ 32)
    (natLe c 4 ++ natLe (headBundle (getCore s c) .c) 4 ++ natLe s.clk.time 8)

/-- TIMERD (R169, R407, R409): TIME, recorded; under replay the value of the core's next entry, for which it waits. -/
def execTimerd (c : Fin 256) (d : Fin 32) (s : State) : Res :=
  onUnit s c .c (.timerd d) (fun s =>
    let p := (partOfCore s c).getD 16
    if replaying s p then
      match s.dbg.waitData.find? (fun e => e.1 = timerdKey c) with
      | none => hold s c 1
      | some e =>
        let s1 := { s with dbg := { s.dbg with waitData := s.dbg.waitData.erase e, waitSince := none } }
        retire (modCore s1 c (fun k => setGr k d (BitVec.ofNat 64 (leNat e.2)))) c .c
    else
      retire (modCore (timerdRec s c) c (fun k => setGr k d (BitVec.ofNat 64 s.clk.time))) c .c)

/-- NOP (R169). -/
def execNop (c : Fin 256) (s : State) : Res := onUnit s c .c .nop (fun s => retire s c .c)

end Sys2Proof.Machine
end

