-- ==== Sys2Proof/Machine/Curve.lean ====
section
/-! DEFINITION. The curve brainpoolP384r1: ECDSA with SHA-384 and ECDH (15 R358 to R370, 10 R265). -/

namespace Sys2Proof.Machine

def ecP : Nat := 0x8CB91E82A3386D280F5D6F7E50E641DF152F7109ED5456B412B1DA197FB71123ACD3A729901D1A71874700133107EC53
def ecA : Nat := 0x7BC382C63D8C150C3C72080ACE05AFA0C2BEA28E4FB22787139165EFBA91F90F8AA5814A503AD4EB04A8C7DD22CE2826
def ecB : Nat := 0x04A8C7DD22CE28268B39B55416F0447C2FB77DE107DCD2A62E880EA53EEB62D57CB4390295DBC9943AB78696FA504C11
def ecGx : Nat := 0x1D1C64F068CF45FFA2A63A81B7C13F6B8847A3E77EF14FE3DB7FCAFE0CBD10E8E826E03436D646AAEF87B2E247D4AF1E
def ecGy : Nat := 0x8ABE1D7520F9C2A45CB1EB8E95CFD55262B70B29FEEC5864E19C054FF99129280E4646217791811142820341263C5315
def ecN : Nat := 0x8CB91E82A3386D280F5D6F7E50E641DF152F7109ED5456B31F166E6CAC0425A7CF3AB6AF6B7FC3103B883202E9046565

/-- `a ^ e` modulo `m`, over the low `k` bits of `e`. -/
def powModAux (m : Nat) : Nat → Nat → Nat → Nat
  | 0, _, _ => 1
  | k + 1, a, e =>
    let r := powModAux m k (a * a % m) (e / 2)
    if e % 2 = 1 then r * a % m else r

/-- Inverse modulo a prime. -/
def invMod (m a : Nat) : Nat := powModAux m 384 (a % m) (m - 2)

def subMod (m a b : Nat) : Nat := (a + m - b % m) % m

/-- A point in Jacobian coordinates; z = 0 is the point at infinity. -/
structure EcPt where
  x : Nat
  y : Nat
  z : Nat
  deriving DecidableEq, Repr

def ecInf : EcPt := ⟨1, 1, 0⟩

/-- Doubling. -/
def ecDbl (p : EcPt) : EcPt :=
  if p.z = 0 || p.y = 0 then ecInf else
  let yy := p.y * p.y % ecP
  let s := 4 * p.x * yy % ecP
  let zz := p.z * p.z % ecP
  let m := (3 * p.x * p.x + ecA * (zz * zz % ecP)) % ecP
  let x := subMod ecP (m * m) (2 * s)
  let y := subMod ecP (m * subMod ecP s x) (8 * yy * yy)
  ⟨x, y, 2 * p.y * p.z % ecP⟩

/-- Addition. -/
def ecAdd (p q : EcPt) : EcPt :=
  if p.z = 0 then q else if q.z = 0 then p else
  let z1 := p.z * p.z % ecP
  let z2 := q.z * q.z % ecP
  let u1 := p.x * z2 % ecP
  let u2 := q.x * z1 % ecP
  let s1 := p.y * q.z * z2 % ecP
  let s2 := q.y * p.z * z1 % ecP
  if u1 = u2 then (if s1 = s2 then ecDbl p else ecInf) else
  let h := subMod ecP u2 u1
  let r := subMod ecP s2 s1
  let hh := h * h % ecP
  let hhh := h * hh % ecP
  let v := u1 * hh % ecP
  let x := subMod ecP (subMod ecP (r * r) hhh) (2 * v)
  let y := subMod ecP (r * subMod ecP v x) (s1 * hhh)
  ⟨x, y, h * p.z * q.z % ecP⟩

/-- Scalar product over the low `k` bits. -/
def ecMulAux : Nat → Nat → EcPt → EcPt
  | 0, _, _ => ecInf
  | k + 1, e, p =>
    let r := ecMulAux k (e / 2) (ecDbl p)
    if e % 2 = 1 then ecAdd r p else r

def ecMul (e : Nat) (p : EcPt) : EcPt := ecMulAux 384 e p

/-- Affine coordinates; none at infinity. -/
def ecAffine (p : EcPt) : Option (Nat × Nat) :=
  if p.z = 0 then none else
  let i := invMod ecP p.z
  let ii := i * i % ecP
  some (p.x * ii % ecP, p.y * (ii * i % ecP) % ecP)

def ecG : EcPt := ⟨ecGx, ecGy, 1⟩

def ecOnCurve (x y : Nat) : Bool :=
  decide (x < ecP) && decide (y < ecP) && decide (y * y % ecP = (x * x * x + ecA * x + ecB) % ecP)

/-- An uncompressed public key of 97 bytes. -/
def ecParse (k : List Byte) : Option EcPt :=
  let x := beNat ((k.drop 1).take 48)
  let y := beNat ((k.drop 49).take 48)
  if k.length = 97 && k.headD 0 = 4 && ecOnCurve x y then some ⟨x, y, 1⟩ else none

/-- The uncompressed form of a point. -/
def ecBytes (p : EcPt) : List Byte :=
  match ecAffine p with
  | some a => [4] ++ natBe a.1 48 ++ natBe a.2 48
  | none => List.replicate 97 0

/-- Public key of a private scalar. -/
def ecPublic (d : Nat) : List Byte := ecBytes (ecMul d ecG)

/-- ECDSA signature r, s of a digest under private scalar `d` with nonce `k` (96 bytes). -/
def ecdsaSign (d k : Nat) (digest : List Byte) : List Byte :=
  let r := ((ecAffine (ecMul k ecG)).elim 0 Prod.fst) % ecN
  let s := invMod ecN k * (beNat digest + r * d) % ecN
  natBe r 48 ++ natBe s 48

/-- ECDSA verification. -/
def ecdsaOk (pub digest sig : List Byte) : Bool :=
  match ecParse pub with
  | none => false
  | some q =>
    let r := beNat (sig.take 48)
    let s := beNat (sig.drop 48)
    if sig.length ≠ 96 || r = 0 || s = 0 || ecN ≤ r || ecN ≤ s then false else
    let w := invMod ecN s
    let u := beNat digest * w % ecN
    let v := r * w % ecN
    match ecAffine (ecAdd (ecMul u ecG) (ecMul v q)) with
    | some a => decide (a.1 % ecN = r)
    | none => false

/-- The x coordinate of ECDH, 48 bytes; none for a key that is no point of the curve. -/
def ecdh (d : Nat) (pub : List Byte) : Option (List Byte) :=
  match ecParse pub with
  | none => none
  | some q => (ecAffine (ecMul d q)).map (fun a => natBe a.1 48)

end Sys2Proof.Machine
end

