-- ==== Sys2Proof/Machine/SecOps.lean ====
section
/-! DEFINITION. Keys, vault and locks that the security commands, streams and zeroises share (15 R359 to R373). -/

namespace Sys2Proof.Machine

/-! ## Derived keys (R359, R360) -/

/-- The storage key (R360). -/
def storageKey (s : State) : List Byte := hkdf384 [] s.part.seed (ascii "MFY2-SK") 32

/-- The identity scalar (R359): 48 bytes reduced into the curve's group (log 26). -/
def identityKey (s : State) : Nat := beNat (hkdf384 [] s.part.seed (ascii "MFY2-ID") 48) % ecN

/-- A signature by the identity key over a digest; the nonce of ECDSA is free. -/
def signId (s : State) (digest : List Byte) : List Byte × State :=
  let k := Config.signNonce s.free % (ecN - 1) + 1
  (ecdsaSign (identityKey s) k digest, { s with free := s.free + 1 })

/-! ## Key slots and their vault copies (R369, R371) -/

def setSlot (s : State) (n : Nat) (k : KeySlot) : State :=
  { s with sec := { s.sec with slots := tset (fun _ => {}) s.sec.slots n k } }

/-- Owner key of a locked partition. -/
def ownerKey (s : State) (p : Nat) : List Byte :=
  match s.flash.locks.find? (fun l => l.1 = p) with | some l => l.2.owner | none => []

/-- AAD of a vault copy (R371): partition, slot, FLOOR, owner key digest. -/
def vaultAad (s : State) (n floor : Nat) : List Byte :=
  natLe (n / 256) 1 ++ natLe n 2 ++ natLe floor 4 ++ sha384 (ownerKey s (n / 256))

/-- A vault copy of 256 bytes: nonce, FLOOR, wrapped secret, tag; the manual gives no layout (log 26). -/
def vaultBytes (s : State) (n : Nat) (k : KeySlot) : List Byte :=
  let nonce := Config.signNonce s.free % 2 ^ 96
  let w := gcmSeal (storageKey s) nonce (vaultAad s n k.floor) k.secret
  fitTo 256 (natLe nonce 12 ++ natLe k.floor 4 ++ w.1 ++ w.2)

/-- Write both copies of a slot; a FREE slot's copies become zero. -/
def vaultSave (s : State) (n : Nat) : State :=
  match vaultOf s (n / 256) with
  | none => s
  | some v =>
    let k := getSlot s n
    let b := if k.used then vaultBytes s n k else List.replicate 256 0
    let a := v + 512 * (n % 256)
    let s1 := relWrite (relWrite s (n / 256) a b) (n / 256) (a + 256) b
    { s1 with free := s1.free + 1 }

/-- A slot from one copy, when it verifies. -/
def vaultCopy (s : State) (n a : Nat) : Option KeySlot :=
  let r := relRead s (n / 256) a 256
  let b := r.1
  let floor := leAt b 12 4
  if r.2.1 || leAt b 0 256 = 0 then none
  else (gcmOpen (storageKey s) (leAt b 0 12) (vaultAad s n floor) ((b.drop 16).take 48) ((b.drop 64).take 16)).map
    (fun x => { used := true, part := n / 256, secret := x, floor := floor })

/-! ## Refusals of class 09 -/

/-- Log a security event: PARTITION, SLOT, STREAM of SEC_FAULT (R380). -/
def secLog (s : State) (code p slot stream : Nat) : State :=
  log s { code := code, part := p, stream := stream, payload := 2 ^ 43 * (p % 16) + 2 ^ 20 * (slot % 4096) + stream % 2 ^ 20 }

/-! ## Locks that end (R368) -/

/-- Free the key slots of a partition (R56, R368). -/
def dropKeys (s : State) (p : Nat) : State :=
  { s with sec := { s.sec with slots := tclear s.sec.slots (fun k => k / 256 = p) } }

/-- End of a lock: record erased, UNLOCK logged (R363, R368). -/
def endLock (s : State) (p : Nat) (src : Nat) : State :=
  match s.flash.locks.find? (fun e => e.1 = p) with
  | some l => measure { s with flash := { s.flash with locks := tdel s.flash.locks p } } 5 src 0 0 p (sha384 l.2.owner) []
  | none => s

end Sys2Proof.Machine
end

