-- ==== Sys2Proof/Machine/Flows.lean ====
section
/-! DEFINITION. How a stream's data moves: host transfers with codec and seal, fabric messages, fetches and puts of cores (R233 to R236,
R257, R258, R374, R375, R392 to R395). -/

namespace Sys2Proof.Machine

/-! ## Host transfers -/

/-- Decompressed bytes and the status they give, against the buffer's capacity (R393, R395). -/
def decodeBytes (algo cap : Nat) (bs : List Byte) : List Byte × Nat :=
  if algo = 0 then (if cap < bs.length then (bs.take cap, 0x515) else (bs, 0))
  else
    let r := Config.decompress algo bs
    if cap < r.2.length then (r.2.take cap, 0x515)
    else if r.1 then (r.2, 0) else (r.2, 0x514)

/-- Compressed bytes, never more than the bound of R394. -/
def encodeBytes (algo level : Nat) (bs : List Byte) : List Byte :=
  if algo = 0 then bs
  else (Config.compress algo level bs).take (bs.length + 8 * cdiv bs.length 65536 + 64)

/-- Data has landed in a descriptor's buffer: it finishes, or waits for fetches on a CORE_CONSUMER stream (R234). -/
def landed (s : State) (idx i status bytes : Nat) : State :=
  if eCoreCons (entryOf s idx) && bytes != 0 then
    modFlight s idx i (fun f => { f with landed := true, status := status, bytes := bytes, del := bytes })
  else flightEnd s idx i status bytes

/-- Host bytes toward the module: seal, codec, stack (R375, R392, R395). -/
def moveIn (s0 : State) (idx : Nat) (f : Flight) (hostData : List Byte) : State :=
  let e := entryOf s0 idx
  let p := strPart s0 idx
  let d := f.desc
  let s := touchRel s0 p d.stack (descSpan e d)
  let opened := if eSealed e then
      gcmOpen (streamKey s e idx) (hostNonce e f.idx) (sealAad s e idx d.len) (hostData.take d.len) ((hostData.drop d.len).take 16)
    else some (hostData.take d.len)
  match opened with
  | none =>
    let s1 := relWrite s p d.stack (List.replicate (if dCodec e d then 0 else d.len) 0)
    landed (secLog s1 0x906 p (e.key % 4096) idx) idx f.idx 0x50B 0
  | some pt =>
    let r := if nbit d.flags 2 then decodeBytes (dAlgo d) (dOutBytes d) pt else (pt, 0)
    landed (relWrite s p d.stack r.1) idx f.idx r.2 r.1.length

/-- Bytes that have moved when an error ends a descriptor after `n` of them: none of a sealed or a compressed one, whose bytes are not the source's
(R233, R374, R394). -/
def movedBytes (e : StrEnt) (d : Desc) (n : Nat) : Nat := if eSealed e || dAlgo d != 0 then 0 else n

/-- Stack bytes toward the host: codec, seal, host write. -/
def moveOut (s0 : State) (idx : Nat) (f : Flight) : State :=
  let e := entryOf s0 idx
  let p := strPart s0 idx
  let d := f.desc
  let s := touchRel s0 p d.stack d.len
  let r := bufRead s p d.stack d.len
  if r.2.1 < d.len then
    let n := movedBytes e d r.2.1
    flightEnd (if n = 0 then r.2.2 else hostWrite r.2.2 (p + 1) d.host (r.1.take n)) idx f.idx 0x50B n
  else
    let c := encodeBytes (dAlgo d) (dLevel d) r.1
    let bytes := if eSealed e then
        let x := gcmSeal (streamKey s e idx) (hostNonce e f.idx) (sealAad s e idx c.length) c
        x.1 ++ x.2
      else c
    flightEnd (hostWrite r.2.2 (p + 1) d.host bytes) idx f.idx 0 c.length

/-! ## Fabric messages (R257, R308, R374) -/

/-- Message bytes of a send descriptor: LENGTH bytes, sealed with 16 more. -/
def msgBytes (s : State) (idx : Nat) (f : Flight) : List Byte :=
  let e := entryOf s idx
  let pt := relBytes s (strPart s idx) f.desc.stack f.desc.len
  if eSealed e then
    let x := gcmSeal (streamKey s e idx) (fabNonce f.seq0) (sealAad s e idx f.desc.len) pt
    x.1 ++ x.2
  else pt

/-- Bytes per unit: 256; 240 with a journal, or when the link of the next hop or of a timed path is encrypted (R261, R265, R308). -/
def unitSize (s : State) (idx : Nat) (e : StrEnt) : Nat :=
  if eJournal e || (getRt s idx).e2e.crypt then 240
  else match routePort s e.peer e.peerStream with | some n => if (getPort s n).crypt then 240 else 256 | none => 256

/-- Units of a message from sequence number `seq0`. -/
def msgUnits (s : State) (idx : Nat) (f : Flight) : List LinkUnit :=
  let e := entryOf s idx
  let cs := chunks (unitSize s idx e) (msgBytes s idx f)
  cs.zipIdx.map (fun c =>
    { vc := e.vc, mcast := e.mcast != 0xFFFF, last := decide (c.2 + 1 = cs.length), lseq := 0
      dst := if e.mcast = 0xFFFF then e.peer else e.mcast, dstStream := e.peerStream % 2 ^ 20
      eseq := (f.seq0 + c.2) % 65536, data := c.1 })

/-- Send an acknowledgement: the receiver's RX_SEQ, journaled where there is a journal, and its free descriptors (R257, R307). -/
def ackSend (s : State) (idx : Nat) : State :=
  let e := entryOf s idx
  let seq := if eJournal e then (getRt s idx).jrn.jSeq else e.rxSeq
  let free := sub32 e.producer (nextIdx s idx)
  let s1 := fabSend s (.e2eAck e.peer (e.peerStream % 2 ^ 20) seq free)
  modRt s1 idx (fun r => { r with e2e := { r.e2e with got := 0 } })

/-- The next receive descriptor, when the engine has it: from the ring in the stack or the descriptor buffer. -/
def nextRecv (s : State) (idx : Nat) : Option Desc :=
  let e := entryOf s idx
  let i := nextIdx s idx
  if i = e.producer then none
  else if eRingStack e then some (ringDesc s (strPart s idx) e i [])
  else ((getRt s idx).pre.find? (fun x => x.1 = i)).map Prod.snd

/-- A whole message fills one receive descriptor (R257, R375): its flight as it finishes, and the state after the stack write. -/
def fillDesc (s0 : State) (idx : Nat) (d : Desc) (msg : List Byte) (seq0 : Nat) : Flight × State :=
  let e := entryOf s0 idx
  let p := strPart s0 idx
  let i := nextIdx s0 idx
  let s := touchRel s0 p d.stack d.len
  let f : Flight := { idx := i, desc := d, fin := true, time := s.clk.time }
  if descInvalid s p e d then ({ f with status := 0x506 }, s)
  else
    let n := msg.length - 16
    let pt := if eSealed e then gcmOpen (streamKey s e idx) (fabNonce seq0) (sealAad s e idx n) (msg.take n) (msg.drop n) else some msg
    match pt with
    | none => ({ f with status := 0x50B }, secLog (relWrite s p d.stack (List.replicate (min d.len n) 0)) 0x906 p (e.key % 4096) idx)
    | some m =>
      ({ f with status := if d.len < m.length then 0x607 else 0, bytes := min d.len m.length }, relWrite s p d.stack (m.take d.len))

/-- A message has arrived whole: descriptor accepted, data written, index advanced, through the journal where there is one. -/
def recvMsg (s : State) (idx : Nat) (d : Desc) (msg : List Byte) (seq0 : Nat) : State :=
  let e := entryOf s idx
  let r := fillDesc s idx d msg seq0
  let f := if eCoreCons e && r.1.bytes != 0 then { r.1 with fin := false, landed := true, del := r.1.bytes } else r.1
  let s1 := modRt r.2 idx (fun x => { x with msg := [], pre := x.pre.filter (fun y => y.1 != f.idx) })
  finished (acceptDesc s1 idx f) idx

/-- Distance of a unit's sequence number from RX_SEQ: `none` when it lies below (a duplicate), else how far above (R257). -/
def seqAhead (rx eseq : Nat) : Option Nat :=
  let d := (eseq + 65536 - rx % 65536) % 65536
  if d < 32768 then some d else none

/-- Is a unit a duplicate for a receiving stream. -/
def unitOld (s : State) (idx : Nat) (u : LinkUnit) : Bool := (seqAhead (entryOf s idx).rxSeq u.eseq).isNone

/-- A unit for a receiving stream of this module (R257): duplicates are acknowledged again, units above RX_SEQ discarded. -/
def deliverUnit (s : State) (port idx : Nat) (u : LinkUnit) : State :=
  let e := entryOf s idx
  if !eEnabled e || eOut e || !eFabric e || recovers s idx then s else
  match seqAhead e.rxSeq u.eseq with
  | none => ackSend s idx
  | some 0 =>
    let r := getRt s idx
    let first := r.msg.isEmpty
    let seq0 := if first then e.rxSeq else r.msgSeq
    let msg := r.msg ++ u.data
    let s0 := recInput s 4 (strPart s idx) idx (e.rxSeq % 2 ^ 32) (natLe port 4 ++ natLe e.rxSeq 8 ++ natLe (b2n u.last) 1 ++ u.data)
    let adv (s : State) : State := modRt (modEntry s idx (fun e => { e with rxSeq := e.rxSeq + 1 })) idx
      (fun r => { r with msg := msg, msgSeq := seq0, e2e := { r.e2e with got := r.e2e.got + 1 } })
    if !u.last then adv s0
    else match nextRecv s idx with
      | none => s
      | some d => recvMsg (adv s0) idx d msg seq0
  | some _ => s

/-! ## Multicast (R258) -/

def mcastReg (s : State) (g : Nat) : W64 := getReg s (R.FAB_MCAST g)

/-- A branch holds a credit for a unit, and nothing waits before it. -/
def branchFree (s : State) (lastDim : Option Nat) (vc n : Nat) : Bool :=
  let c := getVc (getPort s n) (nextVc s vc lastDim n)
  c.credits != 0 && c.txq.isEmpty

/-- LOCAL_STREAM can take a unit: a receiving stream is enabled and, for the last unit of its next message, a descriptor is free. -/
def localTakes (s : State) (idx : Nat) (u : LinkUnit) : Bool :=
  let e := entryOf s idx
  eEnabled e && !eOut e && eFabric e && !recovers s idx &&
  (!u.last || seqAhead e.rxSeq u.eseq != some 0 || (nextRecv s idx).isSome)

/-- Replicate a unit to every branch port. -/
def branchPut (s : State) (lastDim : Option Nat) (u : LinkUnit) : State :=
  let r := mcastReg s (u.dst % 128)
  eachPort s (fun s n => if r.getLsbD n then portTx s n (nextVc s u.vc lastDim n) (.unit u) else s)

/-- Replicate a unit at this module, to every branch port and into the local stream, when every branch holds a credit and LOCAL_STREAM can take
it (R258); `none`: not yet. A unit that the local stream has already is not delivered again. -/
def mcastTry (s : State) (lastDim : Option Nat) (port : Nat) (u : LinkUnit) : Option State :=
  let r := mcastReg s (u.dst % 128)
  let loc := fld r 39 20
  if !r.getLsbD 63 then some s
  else if !((List.range 12).filter (fun n => r.getLsbD n)).all (branchFree s lastDim u.vc) then none
  else if !r.getLsbD 12 then some (branchPut s lastDim u)
  else match ctxUse s loc with
    | none => none
    | some s1 =>
      if !localTakes s1 loc u then none
      else
        let s2 := branchPut s1 lastDim u
        some (if unitOld s2 loc u then s2 else deliverUnit s2 port loc u)

/-- Send the units of this module's own sources of a group that wait for its branches, in order. -/
def mcastPump : Nat → State → Nat → State
  | 0, s, _ => s
  | k + 1, s, g =>
    match tget (fun _ => []) s.fab.mcastQ g with
    | [] => s
    | u :: us =>
      match mcastTry s none 12 u with
      | none => s
      | some s1 => mcastPump k { s1 with fab := { s1.fab with mcastQ := tset (fun _ => []) s1.fab.mcastQ g us } } g

/-- A unit of one of this module's own sources. -/
def mcastOut (s : State) (u : LinkUnit) : State :=
  let g := u.dst % 128
  let q := tget (fun _ => []) s.fab.mcastQ g ++ [u]
  mcastPump q.length { s with fab := { s.fab with mcastQ := tset (fun _ => []) s.fab.mcastQ g q } } g

/-! ## Sending (R257, R262) -/

/-- Put units of a stream on their way. -/
def unitsOut (s : State) (us : List LinkUnit) : State :=
  us.foldl (fun s u =>
    if u.mcast then mcastOut s u
    else match unitRoute s u with
      | some n => portTx s n (nextVc s u.vc none n) (.unit u)
      | none => s) s

/-- Messages sent, wholly or partly, and not finished. -/
def msgsOpen (s : State) (idx : Nat) : Nat := ((getRt s idx).flights.filter (fun f => !f.fin && (f.landed || f.del != 0))).length

/-- Is the next send descriptor of a stream free to start: the receiver has advertised one more than the messages sent against it (R257). -/
def mayStart (s : State) (idx : Nat) : Bool := decide (msgsOpen s idx < (getRt s idx).e2e.advert)

/-- May a timed stream accept (R262, R264): not suspended, and the receiver has a free descriptor beyond every accepted message, those that wait
for their journal write among them. -/
def timedFree (s : State) (idx : Nat) : Bool :=
  let r := getRt s idx
  !r.e2e.suspended && decide ((r.flights.filter (fun f => !f.fin)).length + r.pend.length < r.e2e.advert)

/-- One descriptor of a sending stream: units leave while fewer than 2^14 are unacknowledged. -/
def sendOne (s : State) (idx : Nat) (f : Flight) : State :=
  let e := entryOf s idx
  let seq0 := if f.del = 0 then e.txSeq else f.seq0
  let f1 := { f with seq0 := seq0 }
  let us := msgUnits s idx f1
  let n := min (us.length - f.del) (16384 - (getRt s idx).held.length)
  let out := (us.drop f.del).take n
  let s1 := modFlight s idx f.idx (fun x => { x with seq0 := seq0, del := f.del + n, landed := decide (f.del + n = us.length) })
  let s2 := modEntry s1 idx (fun e => { e with txSeq := e.txSeq + n })
  let s3 := modRt s2 idx (fun r => { r with
    held := r.held ++ out
    e2e := { r.e2e with lastAdvance := if r.held.isEmpty then some s.clk.time else r.e2e.lastAdvance } })
  unitsOut s3 out

/-- A poisoned source cuts its descriptor to the bytes before the error, which are sent as the message (R233; log 112). -/
def cutFlight (s : State) (idx i n : Nat) : State :=
  modFlight s idx i (fun f => { f with status := 0x50B, desc := { f.desc with len := n } })

/-- A stream with nowhere to send reports FAB_UNREACHABLE, once until a route returns (R255). -/
def peerLost (s : State) (idx : Nat) : State :=
  if (getRt s idx).e2e.told then s
  else fabStream (modRt s idx (fun r => { r with e2e := { r.e2e with told := true } })) 0x606 none idx

/-- Send what may be sent, descriptor by descriptor; a poisoned source ends its descriptor (R233), an unreachable peer holds the stream (R255). -/
def sendPump : Nat → State → Nat → State
  | 0, s, _ => s
  | k + 1, s, idx =>
    let e := entryOf s idx
    match (getRt s idx).flights.find? (fun f => !f.fin && !f.landed) with
    | none => s
    | some f =>
      if f.del = 0 && !mayStart s idx then s
      else if e.mcast = 0xFFFF && (routePort s e.peer e.peerStream).isNone then peerLost s idx
      else
        let r := if f.del = 0 then bufRead (touchRel s (strPart s idx) f.desc.stack f.desc.len) (strPart s idx) f.desc.stack f.desc.len else ([], f.desc.len, s)
        if r.2.1 < f.desc.len then
          sendPump k (if movedBytes e f.desc r.2.1 = 0 then flightEnd r.2.2 idx f.idx 0x50B 0 else cutFlight r.2.2 idx f.idx r.2.1) idx
        else
          let s1 := sendOne r.2.2 idx f
          if (getRt s1 idx).held.length < 16384 then sendPump k s1 idx else s1

/-- Send on a stream. -/
def sendAll (s : State) (idx : Nat) : State := sendPump (2 * (getRt s idx).flights.length + 1) s idx

/-- Sending streams toward fabric peers. -/
def sendingStreams (s : State) : List Nat :=
  (s.stm.ctxs.filter (fun c => match c.2 with | some x => eEnabled x.ent && eFabric x.ent && eOut x.ent | none => false)).map Prod.fst

/-- An acknowledgement reaches a sending stream (R257): units below it are done, descriptors whose last unit it covers finish. -/
def ackTake (s : State) (idx seq free : Nat) : State :=
  let e := entryOf s idx
  if !eEnabled e || !eFabric e || !eOut e then s else
  let r := getRt s idx
  let base := e.txSeq - r.held.length
  let n := min (seq - base) r.held.length
  let s1 := modRt s idx (fun r => { r with
    held := r.held.drop n
    e2e := { r.e2e with
      advert := free
      lastAdvance := if n = 0 then r.e2e.lastAdvance else some s.clk.time
      held := if n = 0 then r.e2e.held else none } })
  let done := (getRt s1 idx).flights.filter (fun f => !f.fin && f.landed && decide (f.seq0 + f.del ≤ base + n))
  let s2 := done.foldl (fun s f => flightEnd s idx f.idx (if f.status ≠ 0 then f.status else if f.late then 0x60B else 0) f.desc.len) s1
  sendAll s2 idx

/-! ## Fetches of a core (R236) -/

/-- Delivered bytes of a CORE_CONSUMER stream that no fetch has taken: descriptors in order while their data has landed. -/
def streamAvail (s : State) (idx : Nat) : Nat :=
  (((getRt s idx).flights.filter (fun f => !f.fin)).takeWhile Flight.landed).foldl (fun a f => a + (f.del - f.used)) 0

/-- Take bytes in descriptor order: the pieces of the stack that they stand in; a descriptor whose last byte is taken is finished. -/
def takeFlights (now : Nat) : List Flight → Nat → List (Nat × Nat) × List Flight
  | [], _ => ([], [])
  | f :: fs, n =>
    if f.fin then let r := takeFlights now fs n; (r.1, f :: r.2)
    else if n = 0 || !f.landed then ([], f :: fs)
    else
      let m := min n (f.del - f.used)
      let x := (f.desc.stack + f.used, m)
      if f.used + m = f.del then
        let r := takeFlights now fs (n - m)
        (x :: r.1, { f with used := f.del, fin := true, time := now } :: r.2)
      else ([x], { f with used := f.used + m } :: fs)

/-- Read pieces of the stack in order: bytes, whether any is poisoned, and the state after. -/
def readPieces (s : State) (p : Nat) : List (Nat × Nat) → List Byte × Bool × State
  | [] => ([], false, s)
  | x :: xs =>
    let r := relRead (touchRel s p x.1 x.2) p x.1 x.2
    let t := readPieces r.2.2 p xs
    (r.1 ++ t.1, r.2.1 || t.2.1, t.2.2)

/-- A fetch takes `n` delivered bytes: CONSUMED_BYTES of descriptor COMPLETED follows. -/
def streamTake (s : State) (idx n : Nat) : List Byte × Bool × State :=
  let r := takeFlights s.clk.time (getRt s idx).flights n
  let x := readPieces s (strPart s idx) r.1
  let s1 := modRt x.2.2 idx (fun t => { t with flights := r.2 })
  (x.1, x.2.1, modEntry s1 idx (fun e => { e with consumed := r.2.head?.elim 0 Flight.used }))

end Sys2Proof.Machine
end

