-- ==== Sys2Proof/Machine/GrxOps.lean ====
section
/-! DEFINITION. Groups, shards, partials and records of the gradient exchange (R268 to R288). -/

namespace Sys2Proof.Machine

/-! ## Groups (R268, R271) -/

/-- The group's dimensions in order: module dimensions of its mask. -/
def grpDims (g : Grp) : List Nat := (List.range 4).filter (fun d => nbit g.dims d)

/-- Extent and own coordinate of group dimension `l`. -/
def levExtent (s : State) (g : Grp) (l : Nat) : Nat := extentOf s ((grpDims g).getD l 0)
def levCoord (s : State) (g : Grp) (l : Nat) : Nat := coordOf (ownAddr s) ((grpDims g).getD l 0)

/-- Members of the group. -/
def grpSize (s : State) (g : Grp) : Nat := (grpDims g).foldl (fun a d => a * extentOf s d) 1

/-- Block index of offset `k` (R271). -/
def blockOf (s : State) (g : Grp) (k : Nat) : Nat := (partBlocks s g.part).1 + g.first + k

/-- Change a group. -/
def modGrp (s : State) (slot : Nat) (f : Grp → Grp) : State :=
  match getGrp s slot with | some g => setGrp s slot (some (f g)) | none => s

/-- Epoch of the group's program. -/
def grpEpoch (s : State) (g : Grp) : Nat :=
  match tget (fun _ => none) (getPart s g.part).progs g.prog with | some x => x.epoch | none => 0

def polZero (g : Grp) : Bool := nbit g.policy 0
def polSat (g : Grp) : Bool := nbit g.policy 1
def polHead (g : Grp) : Nat := bits g.policy 3 2

/-- Log an event of the exchange: SLOT, PARTITION, BLOCK, ORIGIN of GRX_FAULT. -/
def grxLog (s : State) (code slot p block origin : Nat) : State :=
  log s { code := code, part := p, payload := 2 ^ 43 * (slot % 16) + 2 ^ 39 * (p % 16) + block % 2 ^ 21 * 2 ^ 16 + origin % 65536 }

/-- A broken group (R284): the step aborts. -/
def grxBroken (s : State) (slot : Nat) : State :=
  match getGrp s slot with
  | some g =>
    if g.broken then s
    else abortStep (grxLog (modGrp s slot (fun g => { g with broken := true })) 0x708 slot g.part 0 (ownAddr s)) g.part 0x708 0xFFFFFFFF
  | none => s

/-! ## The Scale Table and its cache (R210, R275, R312) -/

/-- Address of entry `j` of a bank. -/
def scaleAddr (s : State) (bank j : Nat) : Nat := scaleBase s + 8388608 * bank + 4 * j

def cacheKey (bank j : Nat) : Nat := 2097152 * bank + j

/-- The partition whose program's reduction group block `j` serves (R202): the one whose range holds it. -/
def blockPart (s : State) (j : Nat) : Nat :=
  ((List.range 16).find? (fun p => let r := partBlocks s p; decide (r.1 ≤ j) && decide (j < r.1 + r.2))).getD 0

/-- The entry as the cache or the bank holds it. -/
def scaleGet (s : State) (bank j : Nat) : Nat :=
  match s.grx.cacheDirty.find? (fun e => e.1 = cacheKey bank j) with
  | some e => e.2
  | none => leNat (rawRead s (scaleAddr s bank j) 4)

/-- An entry that the cache does not hold is read from the stack (R202): its slots are charged, its errors met. The second component says that the
sector is poisoned. -/
def scaleFetch (s : State) (bank j : Nat) : Bool × State :=
  if s.grx.cacheDirty.any (fun e => e.1 = cacheKey bank j) then (false, s)
  else (saRead s .grx (blockPart s j) (scaleAddr s bank j) 4).2

/-- Write every dirty entry back. -/
def scaleFlush (s : State) : State :=
  let s1 := s.grx.cacheDirty.foldl (fun s e =>
    saWrite s .grx (blockPart s (e.1 % 2097152)) (scaleAddr s (e.1 / 2097152) (e.1 % 2097152)) (natLe e.2 4)) s
  { s1 with grx := { s1.grx with cacheDirty := [] } }

/-- Write an entry into the cache of 65,536 entries (R311). -/
def scalePut (s : State) (bank j v : Nat) : State :=
  let s1 := if 65536 ≤ s.grx.cacheDirty.length then scaleFlush s else s
  { s1 with grx := { s1.grx with cacheDirty := tput s1.grx.cacheDirty (cacheKey bank j) v } }

/-- E of level `l` and S_B of an entry. -/
def entExp (e l : Nat) : Nat := e / 2 ^ (16 + 4 * l) % 16
def entSb (e : Nat) : Nat := e % 65536

/-- Bits needed for a magnitude. -/
def bitLen (n : Nat) : Nat := if n = 0 then 0 else Nat.log2 n + 1

/-- Exponents of the next entry (R285). -/
def nextExps (d headroom : Nat) (sat : Bool) (peaks : List Nat) : List Nat :=
  (List.range d).foldl (fun es l =>
    let t : Int := ((peaks.getD (min (l + 1) (d - 1)) 0 + headroom + b2n sat : Nat) : Int) - 7
    es ++ [min 15 (max (es.getLastD 0) t.toNat)]) []

/-- An entry from S_B and exponents. -/
def mkEntry (sb : Nat) (es : List Nat) : Nat := sb + es.zipIdx.foldl (fun a e => a + e.1 * 2 ^ (16 + 4 * e.2)) 0

/-- RNE to BF16 of MAG / N, or none when the result is zero, subnormal or not finite (R285). -/
def nextSb (mag n : Nat) : Option Nat :=
  match unpack lFP32 mag with
  | .fin neg m e =>
    let q := m * 2 ^ 40 / n
    let r := roundMag lBF16 (2 * q + b2n (m * 2 ^ 40 % n ≠ 0)) (e - 41)
    if 0x80 ≤ r && r ≤ lBF16.maxBits then some (0x8000 * b2n neg + r) else none
  | _ => none

/-- NEXT_ENTRY (R285). -/
def nextEntry (s : State) (g : Grp) (old : Nat) (t : Trailer) : Nat :=
  if t.poison then old
  else mkEntry ((nextSb t.mag (grpSize s g)).getD (entSb old)) (nextExps (grpDims g).length (polHead g) t.sat t.peaks)

/-- The entry of every block as a program loads (R286). -/
def firstEntry (s : State) (g : Grp) : Nat :=
  let ds := grpDims g
  let peaks := (List.range ds.length).map (fun l => bitLen ((ds.take (l + 1)).foldl (fun a d => a * extentOf s d) 1))
  mkEntry g.initScale (nextExps ds.length (polHead g) false peaks)

/-! ## Seal records (R296, R299) -/

/-- The seal record's code (R299). -/
def sealCode : SealRec → Nat
  | .none => 0 | .readySent => 1 | .pendingSeal => 2 | .sealed => 3 | .aborted => 4 | .flipped => 5

/-- Where the record of seal `key` stands: 32 bytes each, from the base of the engine's 48 MiB (log 129). -/
def recordPlace (s : State) (key : Nat) : Nat := scaleBase s + 16777216 + 32 * key

/-- A record's bytes: STEP, epoch, state and a CRC-32C over them (R296; the layout is log 129). -/
def recordBytes (x : SealSt) : List Byte :=
  let b := natLe x.recStep 8 ++ natLe x.recEpoch 8 ++ natLe (sealCode x.st) 4
  b ++ natLe (crc32c b) 4 ++ List.replicate 8 0

/-- Change a seal and write its record. -/
def modRec (s : State) (key : Nat) (f : SealSt → SealSt) : State :=
  let s1 := modSeal s key f
  saWrite s1 .grx (key / 8) (recordPlace s1 key) (recordBytes (getSeal s1 key))

/-- The record of a seal is read after a reset: one that is poisoned, or whose bytes or CRC do not hold, is bad, and nothing of it is known. -/
def recordRead (s : State) (key : Nat) : State :=
  let x := getSeal s key
  let r := saRead s .grx (key / 8) (recordPlace s key) 32
  if !r.2.1 && r.1 == recordBytes x then r.2.2
  else modSeal r.2.2 key (fun x => { x with st := .none, recStep := 0, recEpoch := 0, recBad := true, lastSeal := none, rejoin := true })

/-! ## Residues (R272) -/

def residueAddr (s : State) (j lane bank : Nat) : Nat := residueBase s + 256 * j + 4 * lane + 2 * bank

/-- A block's 256 bytes of residues as the engine reads them: bytes, whether any is poisoned, and the state after (R202). -/
def residueBlock (s : State) (j : Nat) : List Byte × Bool × State := saRead s .grx (blockPart s j) (residueBase s + 256 * j) 256

/-- The 128 bytes of a bank of a block's residues. -/
def residueBank (bs : List Byte) (bank : Nat) : List Byte := (List.range 64).flatMap (fun i => fitTo 2 (bs.drop (4 * i + 2 * bank)))

/-- Those bytes put in the place of a bank. -/
def bankPut (bs : List Byte) (bank : Nat) (new : List Byte) : List Byte :=
  (List.range 64).flatMap (fun i =>
    let n := fitTo 2 (new.drop (2 * i))
    if bank = 0 then n ++ fitTo 2 (bs.drop (4 * i + 2)) else fitTo 2 (bs.drop (4 * i)) ++ n)

/-- Write a bank of a block's residues: a read-modify-write of its granule, of which a poisoned sector stays poisoned (R196, R272). -/
def residueWrite (s : State) (j bank : Nat) (new : List Byte) : State :=
  let r := residueBlock s j
  let bad := (sectorsOfRange (residueBase s + 256 * j) 256).filter (isPoison r.2.2)
  bad.foldl (fun s k => setPoison s k true)
    (saWrite r.2.2 .grx (blockPart s j) (residueBase s + 256 * j) (bankPut r.1 bank new))

/-! ## Trailers and lanes (R276 to R278) -/

/-- FP32 sum rounded to nearest even. -/
def magAdd (a b : Nat) : Nat := (pack lFP32 (addNum (unpack lFP32 a) (unpack lFP32 b))).1

/-- Two trailers merge at an add; `b` is this member's. -/
def mergeTrailer (a b : Trailer) : Trailer :=
  { poison := a.poison || b.poison
    sat := a.sat || b.sat
    peaks := (List.range 4).map (fun i => max (a.peaks.getD i 0) (b.peaks.getD i 0))
    origin := if a.poison && b.poison then min a.origin b.origin else if a.poison then a.origin else if b.poison then b.origin else 0
    nextEntry := 0
    mag := magAdd a.mag b.mag }

/-- Clamp to the range of an 8-bit count. -/
def clamp127 (x : Int) : Int := if x < -127 then -127 else if 127 < x then 127 else x

/-- One add of dimension `l`: integers that saturate from dimension 1 on. -/
def addRec (l : Nat) (a b : GRec) : GRec :=
  let sums := (List.range 64).map (fun i => a.lanes.getD i 0 + b.lanes.getD i 0)
  let out := if l = 0 then sums else sums.map clamp127
  let t := mergeTrailer a.trailer b.trailer
  { lanes := out, trailer := { t with sat := t.sat || decide (out ≠ sums) } }

/-- An integer divided by 2^k, to nearest even. -/
def rneInt (x : Int) (k : Nat) : Int := if x < 0 then -(rneShift x.natAbs k : Int) else (rneShift x.natAbs k : Int)

/-- Boundary `l` (R276, R278): the peak in units of s_b, and the conversion to units of level `l`. -/
def boundary (entry l : Nat) (r : GRec) : GRec :=
  let e0 := if l = 0 then 0 else entExp entry (l - 1)
  let e1 := entExp entry l
  let top := (r.lanes.map Int.natAbs).foldl max 0
  let q := r.lanes.map (fun c => if e0 ≤ e1 then rneInt c (e1 - e0) else c * 2 ^ (e0 - e1))
  let out := q.map clamp127
  { lanes := out
    trailer := { r.trailer with sat := r.trailer.sat || decide (out ≠ q), peaks := r.trailer.peaks.set l (bitLen (top * 2 ^ e0)) } }

/-- The trailer's 16 bytes (R277). -/
def trailerBytes (t : Trailer) : List Byte :=
  natLe (t.mag % 2 ^ 32 + t.nextEntry % 2 ^ 32 * 2 ^ 32 + 2 ^ 64 * (t.origin % 65536) + 2 ^ 80 * (t.peaks.getD 0 0 % 32) +
    2 ^ 85 * (t.peaks.getD 1 0 % 32) + 2 ^ 90 * (t.peaks.getD 2 0 % 32) + 2 ^ 95 * (t.peaks.getD 3 0 % 32) + 2 ^ 100 * (b2n t.sat) +
    2 ^ 101 * (b2n t.poison)) 16

/-- A GS8 record's 80 bytes. -/
def gs8Bytes (r : GRec) : List Byte := r.lanes.map (fun x => BitVec.ofInt 8 x) ++ trailerBytes r.trailer

/-- A trailer from its 16 bytes. -/
def trailerParse (b : List Byte) : Trailer :=
  let n := leAt b 0 16
  { mag := bits n 31 0, nextEntry := bits n 63 32, origin := bits n 79 64
    peaks := [bits n 84 80, bits n 89 85, bits n 94 90, bits n 99 95], sat := nbit n 100, poison := nbit n 101 }

/-- Lanes of a G1 record: bit 1 stands for −1. -/
def signLanes (w : Nat) : List Int := (List.range 64).map (fun i => if nbit w i then -1 else 1)

/-- SIGNS of lanes. -/
def laneSigns (l : List Int) : Nat := l.foldr (fun x n => b2n (decide (x < 0)) + 2 * n) 0

/-- A G1 record's 24 bytes. -/
def g1Bytes (r : GRec) : List Byte := natLe (laneSigns r.lanes) 8 ++ trailerBytes r.trailer

/-- Bytes of a record by the unit's phase: 0 for G1, 1 and 2 for GS8 (R277). -/
def gRecSize (phase : Nat) : Nat := if phase = 0 then 24 else 80
def gRecBytes (phase : Nat) (r : GRec) : List Byte := if phase = 0 then g1Bytes r else gs8Bytes r

/-- A record from its bytes. -/
def gRecParse (phase : Nat) (b : List Byte) : GRec :=
  if phase = 0 then { lanes := signLanes (leAt b 0 8), trailer := trailerParse (b.drop 8) }
  else { lanes := (b.take 64).map BitVec.toInt, trailer := trailerParse (b.drop 64) }

/-- DST_STREAM and ESEQ of a unit on VC0 to VC15 (R277). -/
def gStream (block : Nat) : Nat := block % 2 ^ 20
def gSeq (phase dim step block : Nat) : Nat := 2 ^ 14 * (phase % 4) + 2 ^ 12 * (dim % 4) + 2 * (step % 2048) + block / 2 ^ 20 % 2

/-- The link unit of a reduction unit on VCg, to the neighbour that receives it (R277). -/
def gUnit (slot dst : Nat) (u : GUnit) : LinkUnit :=
  { vc := slot, mcast := false, last := true, lseq := 0, dst := dst, dstStream := gStream u.block
    eseq := gSeq u.phase u.dim u.step u.block, data := u.recs.flatMap (gRecBytes u.phase) }

/-- The reduction unit that a link unit carries; none when its payload is no whole number of records. -/
def gParse (u : LinkUnit) : Option GUnit :=
  let ph := bits u.eseq 15 14
  let k := gRecSize ph
  if u.data.isEmpty || u.data.length % k ≠ 0 || decide (240 < u.data.length) then none
  else some { phase := ph, dim := bits u.eseq 13 12, step := bits u.eseq 11 1, block := u.dstStream + 2 ^ 20 * (u.eseq % 2)
              recs := (chunks k u.data).map (gRecParse ph) }

/-! ## Shards and paths (R279, R284) -/

/-- First offset and count of the blocks that this member holds before dimension `l`. -/
def levRange (s : State) (g : Grp) : Nat → Nat × Nat
  | 0 => (0, g.blocks)
  | l + 1 =>
    let r := levRange s g l
    let w := cdiv r.2 (levExtent s g l)
    let c := levCoord s g l
    (r.1 + min (c * w) r.2, min ((c + 1) * w) r.2 - min (c * w) r.2)

/-- Where offset `k` stands in dimension `l`: shard owner, offset in the shard, shard size. -/
def shardOf (s : State) (g : Grp) (l k : Nat) : Nat × Nat × Nat :=
  let r := levRange s g l
  let w := max 1 (cdiv r.2 (levExtent s g l))
  let o := k - r.1
  (o / w, o % w, min ((o / w + 1) * w) r.2 - o / w * w)

/-- Is offset `k` held before dimension `l`. -/
def inLevel (s : State) (g : Grp) (l k : Nat) : Bool :=
  let r := levRange s g l
  decide (r.1 ≤ k) && decide (k < r.1 + r.2)

/-- The broken link of dimension `l` in this step: it runs as a line. -/
def lineAt (g : Grp) (l : Nat) : Option Nat := tget (fun _ => none) g.line l

/-- Directions that block `k` takes in dimension `l`: its half's in a ring, both in a line. -/
def blockDirs (s : State) (g : Grp) (l k : Nat) : List Bool :=
  match lineAt g l with
  | some _ => [true, false]
  | none => let x := shardOf s g l k; [decide (x.2.1 < cdiv x.2.2 2)]

/-- Coordinate at which the partial of owner `j` starts. -/
def pathStart (g : Grp) (n l j : Nat) (plus : Bool) : Nat :=
  match lineAt g l with
  | some b => if plus then (b + 1) % n else b
  | none => if plus then (j + 1) % n else (j + n - 1) % n

/-- Hops from coordinate `a` to `b` in a direction. -/
def ringDist (n a b : Nat) (plus : Bool) : Nat := if plus then (b + n - a) % n else (a + n - b) % n

/-- Members that a partial covers before its owner. -/
def pathLen (g : Grp) (n l j : Nat) (plus : Bool) : Nat := ringDist n (pathStart g n l j plus) j plus

/-- Hops that an all-gather record of owner `j` makes. -/
def gatherLen (g : Grp) (n l j : Nat) (plus : Bool) : Nat :=
  match lineAt g l with
  | some b => if plus then ringDist n j b true else ringDist n j ((b + 1) % n) false
  | none => n - 1

/-! ## Keys -/

def dirKey (l : Nat) (plus : Bool) : Nat := l * 2 + b2n plus
/-- Kind 0: reduce-scatter, 1: all-gather. -/
def flowKey (kind l : Nat) (plus : Bool) : Nat := kind * 8 + dirKey l plus
def recKey (flow k : Nat) : Nat := 2097152 * flow + k
def ownKey (l k : Nat) : Nat := 2097152 * l + k

def recGet (t : Tbl (Option GRec)) (k : Nat) : Option GRec := tget (fun _ => none) t k
def recSet (t : Tbl (Option GRec)) (k : Nat) (v : Option GRec) : Tbl (Option GRec) := tset (fun _ => none) t k v

def credOf (g : Grp) (l : Nat) (plus : Bool) : Nat := tget (fun _ => 2048) g.credits (dirKey l plus)

/-! ## Sending (R277, R280) -/

/-- Port of the next unit of a direction: primary and second alternate. -/
def unitPort (s : State) (g : Grp) (l : Nat) (plus : Bool) : Option Nat :=
  let up := dirUp s ((grpDims g).getD l 0) plus
  if up.isEmpty then none else up[(tget (fun _ => 0) g.sent (dirKey l plus)) % up.length]?

/-- Does a reduce-scatter record of block `k` leave as G1: this member starts a dimension-0 partial. -/
def isG1 (s : State) (g : Grp) (kind l k : Nat) (plus : Bool) : Bool :=
  kind = 0 && l = 0 && levCoord s g l = pathStart g (levExtent s g l) l (shardOf s g l k).1 plus

/-- First block and count of the batch of block `k`: ten G1 or three GS8 records of a half, or of a line's shard. -/
def batchOf (s : State) (g : Grp) (kind l k : Nat) (plus : Bool) : Nat × Nat :=
  let x := shardOf s g l k
  let half := cdiv x.2.2 2
  let lo := if (lineAt g l).isSome || plus then 0 else half
  let n := if (lineAt g l).isSome then x.2.2 else if plus then half else x.2.2 - half
  let per := if isG1 s g kind l k plus then 10 else 3
  let i := x.2.1 - lo
  (k - (i - i / per * per), min per (n - i / per * per))

/-- A received block has been forwarded or applied: the credit of a unit with no block left goes back (R280). -/
def relBlock (s : State) (slot flow k : Nat) : State :=
  match getGrp s slot with
  | none => s
  | some g =>
    match g.units.find? (fun u => u.2.1 = flow && u.2.2.contains k) with
    | none => s
    | some u =>
      let left := u.2.2.filter (fun x => x != k)
      if left.isEmpty then
        hopBack (modGrp s slot (fun g => { g with units := g.units.erase u })) u.1 (.gcredit slot (flow % 8 / 2) (flow % 2 = 1) 1)
      else modGrp s slot (fun g => { g with units := g.units.map (fun x => if x = u then (u.1, u.2.1, left) else x) })

/-- A unit leaves: a lost direction breaks the group. -/
def sendUnit (s : State) (slot kind l : Nat) (plus : Bool) (k n : Nat) : State :=
  match getGrp s slot with
  | none => s
  | some g =>
    match unitPort s g l plus with
    | none => grxBroken s slot
    | some port =>
      let f := flowKey kind l plus
      let ks := (List.range n).map (fun i => k + i)
      let u : GUnit :=
        { phase := if kind = 1 then 2 else if isG1 s g kind l k plus then 0 else 1, dim := l, step := g.step, block := blockOf s g k
          recs := ks.filterMap (fun i => recGet g.outq (recKey f i)) }
      let m : Msg := .unit (gUnit slot (neighbourOf s (ownAddr s) ((grpDims g).getD l 0) plus) u)
      let s1 := modGrp s slot (fun g => { g with
        outq := ks.foldl (fun t i => recSet t (recKey f i) none) g.outq
        credits := tset (fun _ => 2048) g.credits (dirKey l plus) (credOf g l plus - 1)
        sent := tmod (fun _ => 0) g.sent (dirKey l plus) (· + 1) })
      ks.foldl (fun s i => relBlock s slot f i) (portTx s1 port slot m)

/-- A batch that is whole and may leave: kind, level, direction, first block, count. -/
def readyBatch (s : State) (g : Grp) : Option (Nat × Nat × Bool × Nat × Nat) :=
  (g.outq.filterMap (fun e =>
    let f := e.1 / 2097152
    let k := e.1 % 2097152
    let l := f % 8 / 2
    let plus := decide (f % 2 = 1)
    let b := batchOf s g (f / 8) l k plus
    if b.1 = k && (List.range b.2).all (fun i => (recGet g.outq (recKey f (k + i))).isSome) && 0 < credOf g l plus then
      some (f / 8, l, plus, k, b.2) else none)).head?

/-- Send every batch that may leave. -/
def grxPump : Nat → State → Nat → State
  | 0, s, _ => s
  | n + 1, s, slot =>
    match getGrp s slot with
    | none => s
    | some g =>
      if g.broken then s else
      match readyBatch s g with
      | some b => grxPump n (sendUnit s slot b.1 b.2.1 b.2.2.1 b.2.2.2.1 b.2.2.2.2) slot
      | none => s

def pumpAll (s : State) (slot : Nat) : State :=
  match getGrp s slot with | some g => grxPump g.outq.length s slot | none => s

/-! ## Streams of the engine (R273) -/

/-- Is there room for one more descriptor. -/
def engineRoom (s : State) (idx : Nat) : Bool :=
  let e := entryOf s idx
  eEnabled e && decide (sub32 e.producer e.completed < 2 ^ e.log2)

/-- The engine fills the descriptor at PRODUCER, sets its LENGTH and delivers it to the core that fetches. -/
def engineProduce (s : State) (p idx : Nat) (bs : List Byte) : State :=
  let e := entryOf s idx
  let d := { ringDesc s p e e.producer [] with len := bs.length }
  let bad := descInvalid s p e d
  let s1 := if bad then s else relWrite s p d.stack bs
  let s2 := relWrite s1 p (e.ring + 32 * slotOf e e.producer + 16) (natLe bs.length 4)
  let s3 := modEntry s2 idx (fun e => { e with producer := m32 (e.producer + 1) })
  let i := nextIdx s3 idx
  let s4 := acceptDesc s3 idx { idx := i, desc := d, landed := !bad, del := if bad then 0 else bs.length }
  if bad then flightEnd s4 idx i 0x506 0 else s4

/-! ## Fingerprints (R283) -/

/-- CRC-64 of R283, one bit at a time from the most significant. -/
def crc64 (bs : List Byte) : Nat :=
  bs.foldl (fun c b =>
    (List.range 8).foldl (fun c i =>
      let top := (c / 2 ^ 63 % 2 = 1) != b.getLsbD (7 - i)
      let c2 := c * 2 % 2 ^ 64
      if top then c2 ^^^ 0x42F0E1EBA9EA3693 else c2) c) 0

/-- Does this member send its fingerprint + in dimension `l`, and expect one from −: not across a line's break. -/
def fpSends (s : State) (g : Grp) (l : Nat) : Bool := lineAt g l != some (levCoord s g l)
def fpExpects (s : State) (g : Grp) (l : Nat) : Bool :=
  let n := levExtent s g l
  lineAt g l != some ((levCoord s g l + n - 1) % n)

/-- Compare what has arrived with this member's own. -/
def fpCompare (g : Grp) : Grp :=
  match g.fp with
  | some f => { g with mismatch := g.mismatch || g.fpGot.any (fun e => match e.2 with | some x => x != f | none => false) }
  | none => g

/-- Every RESULT record is written and every fingerprint compared (R290). -/
def grpDone (s : State) (g : Grp) : Bool :=
  g.done = g.blocks && g.fp.isSome &&
  (List.range (grpDims g).length).all (fun l => !fpExpects s g l || (tget (fun _ => none) g.fpGot l).isSome)

/-- The unit that carries a fingerprint: phase 3, its 8 bytes (R277, R283). -/
def fingerUnit (slot dst dim step f : Nat) : LinkUnit :=
  { vc := slot, mcast := false, last := true, lseq := 0, dst := dst, dstStream := 0, eseq := gSeq 3 dim step 0, data := natLe f 8 }

/-- The last RESULT record is written: the fingerprint leaves, saturation and poison are logged once (R283, R287, R288). -/
def grpEnd (s : State) (slot : Nat) (g : Grp) : State :=
  let f := crc64 ((List.range g.blocks).flatMap (fun k => match recGet g.final k with | some r => gs8Bytes r | none => []))
  let s1 := modGrp s slot (fun g => fpCompare { g with fp := some f })
  let s2 := (List.range (grpDims g).length).foldl (fun s l =>
    if fpSends s g l then
      match unitPort s g l true with
      | some n => portTx s n slot (.unit (fingerUnit slot (neighbourOf s (ownAddr s) ((grpDims g).getD l 0) true) l g.step f))
      | none => grxBroken s slot
    else s) s1
  let s3 := if g.satBlocks ≠ 0 then grxLog s2 0x702 slot g.part 0 0 else s2
  match g.poisonAt with
  | some o => grxLog s3 0x701 slot g.part o.2 o.1
  | none => s3

/-! ## RESULT records (R273, R282) -/

/-- SUM of a record (R276, R282): 64 FP32 values. -/
def sumBytes (g : Grp) (entry : Nat) (r : GRec) : List Byte :=
  let e := entExp entry ((grpDims g).length - 1)
  r.lanes.flatMap (fun q =>
    if r.trailer.poison then natLe (if polZero g then 0 else lFP32.nanBits) 4
    else natLe (pack lFP32 (mulNum (.fin (decide (q < 0)) q.natAbs e) (unpack lBF16 (entSb entry)))).1 4)

/-- A RESULT record's 272 bytes. -/
def resultBytes (s : State) (g : Grp) (k : Nat) (r : GRec) : List Byte :=
  trailerBytes r.trailer ++ sumBytes g (scaleGet s (grpEpoch s g % 2) (blockOf s g k)) r

/-- Write RESULT records, 64 in a descriptor, in ascending order, as far as they are complete and the ring has room. -/
def resultPump : Nat → State → Nat → State
  | 0, s, _ => s
  | n + 1, s, slot =>
    match getGrp s slot with
    | none => s
    | some g =>
      let m := min 64 (g.blocks - g.done)
      let rs := (List.range m).filterMap (fun i => (recGet g.final (g.done + i)).map (fun r => (g.done + i, r)))
      if m = 0 || rs.length ≠ m || !engineRoom s g.result || replaying s g.part then s
      else
        let bs := rs.flatMap (fun x => resultBytes s g x.1 x.2)
        let s1 := recInput s 9 g.part g.result (blockOf s g g.done) bs
        let s2 := engineProduce s1 g.part g.result bs
        let s3 := modGrp s2 slot (fun g => { g with done := g.done + m })
        if g.done + m = g.blocks then (match getGrp s3 slot with | some g => grpEnd s3 slot g | none => s3)
        else resultPump n s3 slot

def resultAll (s : State) (slot : Nat) : State :=
  match getGrp s slot with | some g => resultPump (g.blocks / 64 + 1) s slot | none => s

/-- Groups that deliver into a stream try again as it is consumed. -/
def resultRetry (s : State) (idx : Nat) : State :=
  (s.grx.grps.filter (fun e => match e.2 with | some g => g.result = idx | none => false)).foldl (fun s e => resultAll s e.1) s

/-- A block's final record reaches this member (R282): entry, residues, counts. -/
def finalBlock (s : State) (slot k : Nat) (r : GRec) : State :=
  match getGrp s slot with
  | none => s
  | some g =>
    let j := blockOf s g k
    let bank := (grpEpoch s g + 1) % 2
    let t := r.trailer
    let s1 := scalePut s bank j t.nextEntry
    let s2 := if t.poison && polZero g then residueWrite s1 j bank (List.replicate 128 0) else s1
    let s3 := modReg s2 (R.GRX_GROUP_CNT slot) (fun w =>
      let w := if t.poison then setFld w 31 0 ((fld w 31 0 + 1) % 2 ^ 32) else w
      if t.sat then setFld w 63 32 ((fld w 63 32 + 1) % 2 ^ 32) else w)
    let low := match g.poisonAt with
      | some o => if t.poison && (decide (t.origin < o.1) || (decide (t.origin = o.1) && decide (j < o.2))) then some (t.origin, j) else some o
      | none => if t.poison then some (t.origin, j) else none
    modGrp s3 slot (fun g => { g with
      final := recSet g.final k (some r), poisonAt := low
      satBlocks := g.satBlocks + b2n t.sat, poisonBlocks := g.poisonBlocks + b2n t.poison })

/-! ## The rings of a step (R284, R313) -/

/-- Broken links of dimension `l`, by the coordinate at their − end. -/
def ringBreaks (s : State) (g : Grp) (l : Nat) : List Nat :=
  let d := (grpDims g).getD l 0
  (List.range (extentOf s d)).filter (fun k => linkBroken s (withCoord (ownAddr s) d k) d true)

/-- A group at the start of a step: its rings, empty staging, full credits. -/
def grpFresh (s : State) (g : Grp) (step : Nat) : Grp :=
  let bs := (List.range (grpDims g).length).map (ringBreaks s g)
  { g with
    step := step, feedNext := 0, encNext := 0, own := [], inbox := [], outq := [], units := [], final := [], done := 0
    line := bs.zipIdx.foldl (fun t b => tset (fun _ => none) t b.2 (if b.1.length = 1 then b.1.head? else none)) []
    broken := bs.any (fun b => decide (2 ≤ b.length))
    fp := none, fpGot := [], mismatch := false, satBlocks := 0, poisonBlocks := 0, poisonAt := none, credits := [], sent := [] }

/-- Slots of a program's groups. -/
def progSlots (s : State) (p k : Nat) : List Nat :=
  (s.grx.grps.filter (fun e => match e.2 with | some g => g.part = p && g.prog = k | none => false)).map Prod.fst

/-- The exchange at the start of a step (R284, R313): a line is reported once, two breaks fail the group. -/
def grxBegin (s : State) (p k step : Nat) : State :=
  let sl := progSlots s p k
  let s1 := sl.foldl (fun s g => modGrp s g (fun x => grpFresh s x step)) s
  let lined := sl.find? (fun g => match getGrp s1 g with | some x => !x.line.isEmpty | none => false)
  let s2 := match lined with | some g => grxLog s1 0x709 g p 0 0 | none => s1
  match sl.find? (fun g => match getGrp s2 g with | some x => x.broken | none => false) with
  | some g => abortStep (grxLog s2 0x708 g p 0 (ownAddr s)) p 0x708 0xFFFFFFFF
  | none => s2

end Sys2Proof.Machine
end

