-- ==== Sys2Proof/Machine/Swap.lean ====
section
/-! DEFINITION. Tenants of a core, and the swap region as swaps write and read it (R33, R118, R183, R184, R208, R209). -/

namespace Sys2Proof.Machine

/-! ## Tenants (R183, R184) -/

/-- Tenants of a core. -/
def coreTenants (g : Prog) (c : Nat) : List VCore := g.vcores.filter (fun v => v.phys = c)

/-- The allocations of a core's tenants do not fit side by side. -/
def storeFolds (g : Prog) (c : Nat) : Bool := decide (2097152 < (coreTenants g c).foldl (fun a v => a + v.size) 0)
/-- Their code does not fit in 4,096 bundles. -/
def codeFolds (g : Prog) (c : Nat) : Bool := decide (4096 < (coreTenants g c).foldl (fun a v => a + v.bundles) 0)
/-- A fold swap runs at the core's round boundaries. -/
def coreFolds (g : Prog) (c : Nat) : Bool := decide (1 < (coreTenants g c).length) && (storeFolds g c || codeFolds g c)

/-- Tenant resident on a core after round `r`: the next, or tenant 0 again. -/
def tenantAfter (g : Prog) (c r : Nat) : Nat := if r + 1 < (coreTenants g c).length then r + 1 else 0

/-- Tenant `t` of a core. -/
def tenantOf (g : Prog) (c t : Nat) : Option VCore := g.vcores.find? (fun v => v.phys = c && v.tenant = t)

/-- A tenant that stands in core store at a step boundary: tenant 0, and every tenant of a core that does not fold its store. -/
def isResident (g : Prog) (v : VCore) : Bool := v.tenant = 0 || !storeFolds g v.phys
def residentCores (g : Prog) : List VCore := g.vcores.filter (isResident g)

/-- Code places of a core's tenants: side by side, or each at 0 (R184). -/
def codePlace (g : Prog) (v : VCore) : Nat :=
  if codeFolds g v.phys then 0 else ((coreTenants g v.phys).filter (fun w => decide (w.tenant < v.tenant))).foldl (fun a w => a + w.bundles) 0

/-- Physical cores of a program. -/
def progCores (g : Prog) : List Nat := (g.vcores.map VCore.phys).eraseDups

/-- Loaded programs of a partition. -/
def loadedProgs (s : State) (p : Nat) : List Prog := (getPart s p).progs.filterMap Prod.snd

/-! ## Bytes of a swap area (R192, R208, R209) -/

/-- First byte of a partition's swap region. -/
def swapBase (s : State) (p : Nat) : Nat := regionBase s p + regionSize s p - swapSize s p

/-- Stack address of byte `i` of an area: granule by granule down its column, page after page. -/
def areaSa (s : State) (p : Nat) (a : SwArea) (i : Nat) : Nat :=
  let o := 4096 * (a.pages.getD (i / 4096) 0) + i % 4096
  swapBase s p + 16384 * (o / 256) + 256 * a.col + o % 256

/-- The byte of an area that stands at a stack address. -/
def areaOff (s : State) (p : Nat) (a : SwArea) (sa : Nat) : Option Nat :=
  if saColumn sa = a.col && decide (swapBase s p ≤ sa) && decide (sa < swapBase s p + swapSize s p) then
    let o := 256 * (lessBy sa (swapBase s p) / 16384) + sa % 256
    (a.pages.findIdx? (fun n => n = o / 4096)).map (fun j => 4096 * j + o % 4096)
  else none

/-- Bytes of an area. -/
def areaSize (a : SwArea) : Nat := 4096 * a.pages.length

/-- What an area holds, as a byte memory from 0; a fenced column's bytes are lost (R214). -/
def areaRead (s : State) (p : Nat) (a : SwArea) : Mem :=
  if (getCol s a.col).fenced then
    (List.range (areaSize a)).foldl (fun m i => memSet m i (Config.lostByte (areaSa s p a i))) []
  else s.stack.bytes.foldl (fun m e => match areaOff s p a e.1 with | some i => memSet m i e.2 | none => m) []

/-- Does an area hold poisoned sectors among its bytes that satisfy `f` (R196). -/
def areaPoison (s : State) (p : Nat) (a : SwArea) (f : Nat → Bool) : Bool :=
  s.stack.poison.any (fun e => match areaOff s p a (32 * e.1) with | some i => f i | none => false)

/-- Write the bytes of an area that satisfy `f`; whole sectors lose their poison, and a fenced column discards the write (R196, R214). -/
def areaWrite (s : State) (p : Nat) (a : SwArea) (f : Nat → Bool) (m : Mem) : State :=
  if (getCol s a.col).fenced then s
  else
    let hit (sa : Nat) : Bool := match areaOff s p a sa with | some i => f i | none => false
    { s with stack := { s.stack with
        bytes := (m.filter (fun e => f e.1 && decide (e.1 < areaSize a))).foldl (fun b e => memSet b (areaSa s p a e.1) e.2) (tclear s.stack.bytes hit)
        poison := tclear s.stack.poison (fun k => hit (32 * k)) } }

/-! ## A context as its area holds it (R96, R118, R208) -/

/-- Bytes of one array's accumulators: 96 rows of 1,024 entries of 5 bytes. -/
def accBytes : Nat := 491520

/-- Offset, behind `n` bytes of core store, of an entry of group `g` of array `a`: rows in order, the array's groups side by side in a row. -/
def accOff (n a sp g key : Nat) : Nat := n + accBytes * a + 5 * (key + splitEntries sp * g)

/-- Is a byte one of the entries of group `g` of array `a`. -/
def accHit (n a sp g i : Nat) : Bool :=
  decide (n + accBytes * a ≤ i) && decide (i < n + accBytes * (a + 1)) && decide (lessBy i (n + accBytes * a) / 5 % 1024 / splitEntries sp = g)

/-- Values of a group as bytes, little-endian, five for each (R9, R96). -/
def accPut (n a sp g : Nat) (vals : Tbl A40) (m : Mem) : Mem :=
  vals.foldl (fun m e => memWrite m (accOff n a sp g e.1) (natLe e.2.toNat 5)) m

/-- Values of a group from the bytes of its area. -/
def accGet (n a sp g : Nat) (m : Mem) : Tbl A40 :=
  (m.filter (fun e => accHit n a sp g e.1)).foldl (fun t e =>
    let k := lessBy e.1 (n + accBytes * a) / 5
    tset (fun _ => 0) t (k - splitEntries sp * g) (BitVec.ofNat 40 (leNat (memRead m (n + accBytes * a + 5 * k) 5)))) []

/-- A group as it comes back: each peak at X of its restored value (R118). -/
def regained (g : Group) (vals : Tbl A40) : Group :=
  { g with vals := vals, peaks := vals.foldl (fun t e => tset (fun _ => 0) t e.1 (a40X e.2)) [] }

/-- The first `n` bytes of an allocation at `base`. -/
def cutStore (m : Mem) (base n : Nat) : Mem := (m.filter (fun e => decide (base ≤ e.1) && decide (e.1 < base + n))).map (fun e => (lessBy e.1 base, e.2))

/-- Bytes put back at `base`. -/
def pasteStore (m : Mem) (base n : Nat) (x : Mem) : Mem := (x.filter (fun e => decide (e.1 < n))).foldl (fun m e => memSet m (base + e.1) e.2) (memZero m base n)

/-- Key of a saved context: program, core, tenant (R208). -/
def savedKey (k c t : Nat) : Nat := (256 * k + c) * 4 + t

/-- A context with nothing saved. -/
def noCtx : SavedCtx := { area := 0, bytes := 0, groups := [], beside := true, split0 := 0, split1 := 0 }

/-- An area that does not exist. -/
def noArea : SwArea := { id := 0, core := 0, col := 0, pages := [] }

def areaOf (s : State) (p id : Nat) : SwArea := ((getPart s p).areas.find? (fun a => a.id = id)).getD noArea

/-- The first area of a core that holds no context. -/
def freeArea (s : State) (p c : Nat) : Nat :=
  let q := getPart s p
  ((q.areas.find? (fun a => a.core = c && !q.saved.any (fun e => e.2.area = a.id))).map SwArea.id).getD 0

/-- One side of a swap: a tenant of program `prog`, the bytes that a swap moves, and the groups that it saves. -/
structure SwapItem where
  prog : Nat
  v : VCore
  n : Nat
  keep : GSt → Bool

/-- Groups of a core's two arrays that a swap saves, keyed by array and group. -/
def savedGroups (s : State) (c : Nat) (keep : GSt → Bool) : Tbl Group :=
  [0, 1].flatMap (fun a => ((getArr s (2 * c + a)).groups.filter (fun e => keep e.2.st)).map (fun e => (a * 8 + e.1, e.2)))

/-- Write a tenant into area `id`: its bytes, then the values of its groups, if the area has room for both arrays' accumulators (R33, R184). -/
def saveInto (s : State) (p id : Nat) (x : SwapItem) : State :=
  let c := x.v.phys
  let gs := savedGroups s c x.keep
  let a := areaOf s p id
  let sp (k : Nat) : Nat := (getArr s (2 * c + k)).split
  let room := decide (x.n + 2 * accBytes ≤ areaSize a)
  let m := cutStore (getCore s c).store x.v.csBase x.n
  let s1 :=
    if room then areaWrite s p a (fun i => decide (i < x.n) || gs.any (fun e => accHit x.n (e.1 / 8) (sp (e.1 / 8)) (e.1 % 8) i))
        (gs.foldl (fun m e => accPut x.n (e.1 / 8) (sp (e.1 / 8)) (e.1 % 8) e.2.vals m) m)
    else areaWrite s p a (fun i => decide (i < x.n)) m
  let w : SavedCtx :=
    { area := id, bytes := x.n, beside := !room, split0 := sp 0, split1 := sp 1
      groups := gs.map (fun e => (e.1, { e.2 with peaks := [], vals := if room then [] else e.2.vals })) }
  modPart s1 p (fun q => { q with saved := tset (fun _ => noCtx) q.saved (savedKey x.prog c x.v.tenant) w })

/-- A saved context and what its area holds. -/
def savedOf (s : State) (p : Nat) (x : SwapItem) : SavedCtx × Mem :=
  let w := tget (fun _ => noCtx) (getPart s p).saved (savedKey x.prog x.v.phys x.v.tenant)
  (w, areaRead s p (areaOf s p w.area))

/-- Restore a tenant: its bytes, and with tenant 0 of a step boundary, or the only tenant of a round, its groups, every other one CLOSED. -/
def restoreItem (s : State) (x : SwapItem) (w : SavedCtx × Mem) (groups : Bool) : State :=
  let c := x.v.phys
  let sp (a : Nat) : Nat := if a = 0 then w.1.split0 else w.1.split1
  let gs (a : Nat) : Tbl Group := (w.1.groups.filter (fun e => e.1 / 8 = a)).map (fun e =>
    (e.1 % 8, regained e.2 (if w.1.beside then e.2.vals else accGet w.1.bytes a (sp a) (e.1 % 8) w.2)))
  let s1 := modCore s c (fun y => { y with store := pasteStore y.store x.v.csBase x.n w.2 })
  if groups then modArr (modArr s1 (2 * c) (fun y => { y with groups := gs 0, split := sp 0 })) (2 * c + 1) (fun y => { y with groups := gs 1, split := sp 1 })
  else s1

/-- The code with which reading a saved context fails: a fenced column, or poisoned sectors of what was saved (R196, R214). -/
def areaLost (s : State) (p : Nat) (w : SavedCtx) : Option Nat :=
  let a := areaOf s p w.area
  if a.pages.isEmpty then none
  else if (getCol s a.col).fenced then some 0x806
  else if areaPoison s p a (fun i => decide (i < w.bytes + (if w.groups.isEmpty then 0 else 2 * accBytes))) then some 0x803
  else none

/-- Such a read is logged, with SOURCE 4, and the step that runs aborts. -/
def areaFault (s : State) (p : Nat) (w : SavedCtx) : State :=
  let a := areaOf s p w.area
  match areaLost s p w with
  | none => s
  | some code =>
    abortStep (log s { code := code, part := p, loc := a.col, payload := 2 ^ 41 * a.col + 2 ^ 37 * (p % 16) + 2 ^ 34 * 4 + areaSa s p a 0 % 2 ^ 34 })
      p code (runIndex s p)

/-- The exchange of one core (R208): the incoming contexts are read, the outgoing ones are written into areas that hold none, and the incoming ones
stand in the core. -/
def exchange (s : State) (p c : Nat) (outs ins : List SwapItem) : State :=
  let ws := ins.map (fun x => (x, savedOf s p x))
  let s1 := ws.foldl (fun s w => areaFault s p w.2.1) s
  let s2 := modPart s1 p (fun q => { q with saved := ins.foldl (fun t x => tdel t (savedKey x.prog c x.v.tenant)) q.saved })
  let s3 := outs.foldl (fun s x => saveInto s p (freeArea s p c) x) s2
  ws.foldl (fun s w => restoreItem s w.1 w.2 (w.1.keep .done)) s3

/-! ## Placing areas (R208, R209) -/

def up4k (n : Nat) : Nat := 4096 * (cdiv n 4096)

/-- Areas that core `c` needs once a program is loaded beside others: their number and size (R208, log 33). -/
def areasOn (olds : List Prog) (g : Prog) (c : Nat) : Nat × Nat :=
  let ctxs := (olds ++ [g]).flatMap (fun h => coreTenants h c)
  if olds.isEmpty then
    (if storeFolds g c then (ctxs.length - 1, up4k (ctxs.foldl (fun m v => max m v.live) 0)) else (0, 0))
  else (ctxs.length - 1, up4k (ctxs.foldl (fun m v => max m v.size) 0) + 2 * accBytes)

/-- Pages of a column's part that no area holds: 256 for each unit of the swap region (R209). -/
def freePages (room : Nat) (as : List SwArea) (col : Nat) : List Nat :=
  let used := (as.filter (fun a => a.col = col)).flatMap SwArea.pages
  (List.range (room / 262144)).filter (fun n => !used.contains n)

/-- The element of a list with the least key, the first on a tie. -/
def leastBy (key : Nat → Nat) : List Nat → Option Nat
  | [] => none
  | a :: t => match leastBy key t with | some b => if key b < key a then some b else some a | none => some a

/-- Place one area: the core's column, else the nearest with room (R209). -/
def placeArea (room : Nat) (as : List SwArea) (c size : Nat) : Option (List SwArea) :=
  let n := size / 4096
  let fits := (List.range 64).filter (fun k => decide (n ≤ (freePages room as k).length))
  (leastBy (fun k => absDiff k (coreColumn c)) fits).map (fun k =>
    as ++ [{ id := as.foldl (fun m a => max m a.id) 0 + 1, core := c, col := k, pages := (freePages room as k).take n }])

/-- An area of a loaded program takes further pages of its column; it does not move (R209, log 33). -/
def growArea (room : Nat) (as : List SwArea) (id size : Nat) : Option (List SwArea) :=
  match as.find? (fun a => a.id = id) with
  | none => some as
  | some a =>
    let n := size / 4096 - a.pages.length
    let fs := freePages room as a.col
    if fs.length < n then none else some (as.map (fun b => if b.id = id then { b with pages := b.pages ++ fs.take n } else b))

/-- Areas of one core: those that stand take the size, and further ones are placed. -/
def areasFor (room : Nat) (c : Nat) (need : Nat × Nat) (as : List SwArea) : Option (List SwArea) :=
  let mine := (as.filter (fun a => a.core = c)).map SwArea.id
  let grown := mine.foldl (fun (r : Option (List SwArea)) id => r.bind (fun l => growArea room l id need.2)) (some as)
  (List.range (need.1 - mine.length)).foldl (fun r _ => r.bind (fun l => placeArea room l c need.2)) grown

/-- Areas of a partition once a program is loaded, cores in order; none when one cannot be placed (R35). -/
def placeAreas (s : State) (p : Nat) (g : Prog) : Option (List SwArea) :=
  let olds := loadedProgs s p
  let room := swapSize s p
  (List.range 256).foldl (fun (r : Option (List SwArea)) c => r.bind (fun l =>
    if (areasOn olds g c).1 = 0 then some l else areasFor room c (areasOn olds g c) l)) (some (getPart s p).areas)

/-- Areas that no context needs any more are free again (R209): a core keeps one for each context but one, and those that hold a context. -/
def pruneAreas (s : State) (p : Nat) : State :=
  let q := getPart s p
  let used (a : SwArea) : Bool := q.saved.any (fun e => e.2.area = a.id)
  let keep (c : Nat) : Nat := ((loadedProgs s p).flatMap (fun h => coreTenants h c)).length - 1
  let held (c : Nat) : Nat := (q.areas.filter (fun b => b.core = c && used b)).length
  let as := q.areas.foldl (fun as a =>
    if used a || decide ((as.filter (fun b => b.core = a.core && !used b)).length + held a.core < keep a.core) then as ++ [a] else as) []
  modPart s p (fun q => { q with areas := as })

end Sys2Proof.Machine
end

