-- ==== Sys2Proof/Machine/Steps.lean ====
section
/-! DEFINITION. The step scheduler: slots, rounds, folds, timers, ready report, time slices (R25 to R33, R138 to R149, R182 to R184). -/

namespace Sys2Proof.Machine

/-! ## Units and rounds (R183, R184) -/

/-- Physical unit of a virtual core: its physical String, or 128 and the core when only solo units stand there. -/
def unitKey (g : Prog) (v : VCore) : Nat :=
  match g.vcores.find? (fun w => w.phys = v.phys && w.unit != 0xFF) with
  | some w => (g.vstrs[w.unit]?).elim (128 + v.phys) VStr.phys
  | none => 128 + v.phys

/-- Virtual cores of a unit that run in round `r`, with their numbers. -/
def roundCores (g : Prog) (u r : Nat) : List (VCore × Nat) :=
  g.vcores.zipIdx.filter (fun v => unitKey g v.1 = u && v.1.tenant = r)

/-- Every unit of a program. -/
def progUnits (g : Prog) : List Nat := (g.vcores.map (unitKey g)).eraseDups

/-- Rounds of a unit. -/
def unitRounds (g : Prog) (u : Nat) : Nat :=
  (g.vcores.filter (fun v => unitKey g v = u)).foldl (fun a v => max a (v.tenant + 1)) 0

/-- Cores of a unit. -/
def unitPhys (g : Prog) (u : Nat) : List Nat := ((g.vcores.filter (fun v => unitKey g v = u)).map VCore.phys).eraseDups

/-- Does the boundary after round `r` of a unit need a swap. -/
def needSwap (g : Prog) (u r : Nat) : Bool :=
  (unitPhys g u).any (fun c => coreFolds g c && decide (r < (coreTenants g c).length))

/-- Entry point of a virtual core in a slot; none for a core that ends at once (R185). -/
def entryPc (s : State) (p : Nat) (g : Prog) (entry v : Nat) : Option Nat :=
  let w := leNat (relBytes s p (g.addr + entry + 4 * v) 4)
  if w = 0xFFFFFFFF then none else some w

/-- What an aborted step left in flight in an array is gone: a tile that loads, a preload, a write-back with its group (R67, R178). -/
def clearArr (a : Arr) : Arr :=
  { (match a.wb with | some w => setGroup a w.group {} | none => a) with
    wb := none, pre := none, shadow := if a.sh = .loading then none else a.shadow, sh := if a.sh = .loading then .free else a.sh }

/-- A core with nothing issued and nothing in flight. -/
def quietCore (k : Core) : Core :=
  { k with uq := [], feed := [], branching := false, ending := false, apend := [], ranges := [], mv := none }

/-- A core begins a round of a slot: tenant, entry behind the place of the tenant's code, trap mask (R178, R183, R184). -/
def startCore (s : State) (p : Nat) (g : Prog) (entry : Nat) (v : VCore × Nat) : State :=
  let pc := entryPc s p g entry v.2
  let s0 := relTouch s p (g.addr + entry + 4 * v.2) 4
  let s1 := modArr (modArr s0 (2 * v.1.phys) clearArr) (2 * v.1.phys + 1) clearArr
  modCore s1 v.1.phys (fun k => { quietCore k with
    tenant := v.1.tenant, trap := v.1.trap, pc := pc.elim 0 (fun e => (e + codePlace g v.1) % 4096), ended := pc.isNone
    run := match pc with | some _ => .run | none => .idle })

/-- Every core of a round has executed END. -/
def roundEnded (s : State) (g : Prog) (u r : Nat) : Bool :=
  (roundCores g u r).all (fun v => (getCore s v.1.phys).ended)

def getUnit (s : State) (p u : Nat) : UnitRun := tget (fun _ => {}) (getPart s p).units u
def setUnit (s : State) (p u : Nat) (x : UnitRun) : State :=
  modPart s p (fun q => { q with units := tset (fun _ => {}) q.units u x })

/-- Rounds of a unit follow one another while they need no swap and end at once; after the last, tenant 0 stands again. -/
def runRound : Nat → State → Nat → Prog → Nat → Nat → Nat → State
  | 0, s, _, _, _, _, _ => s
  | n + 1, s, p, g, entry, u, r =>
    if r < unitRounds g u then
      let s1 := setUnit ((roundCores g u r).foldl (fun s v => startCore s p g entry v) s) p u { round := r }
      if roundEnded s1 g u r && !needSwap g u r then runRound n s1 p g entry u (r + 1) else s1
    else
      setUnit ((unitPhys g u).foldl (fun s c => modCore s c (fun k => { k with tenant := 0 })) s) p u { round := r - 1, finished := true }

/-- ENTRY of the slot that runs. -/
def runEntry (s : State) (p : Nat) (g : Prog) : Nat :=
  match (getPart s p).step.run with | some r => (slotEnt g r.2).elim 0 SlotEnt.entry | none => 0

/-- The round of a unit is over: the next one starts, unless a fold swap must come first. -/
def roundOver (s : State) (p u : Nat) : State :=
  match curProg s p with
  | none => s
  | some g =>
    let x := getUnit s p u
    if (getPart s p).step.run.isNone || x.swapping || x.finished || !roundEnded s g u x.round || needSwap g u x.round then s
    else runRound 6 s p g (runEntry s p g) u (x.round + 1)

/-! ## Slots (R138, R140, R144 to R147) -/

/-- The form in which a main slot would issue (R140). -/
def slotForm (g : Prog) (st : Step) (i : Nat) : Option (Nat × SlotEnt) :=
  match slotEnt g i with
  | none => none
  | some e =>
    let alt := (slotEnt g e.alt).map (fun a => (e.alt, a))
    if e.typ = 1 && st.fallback.contains e.ctx && alt.isSome then alt
    else if e.typ = 2 && decide (tget (fun k => k) st.issued e.pair ≠ e.pair) then (match alt with | some a => some a | none => some (i, e))
    else some (i, e)

/-- Was a main slot issued. -/
def isIssued (st : Step) (i : Nat) : Bool := st.issued.any (fun e => e.1 = i) || st.done.contains i

/-- Entries that a stream has accepted in this step. -/
def acceptedNow (s : State) (st : Step) (idx : Nat) : Nat := sub32 (entryOf s idx).accepted (tget (fun _ => 0) st.accepted0 idx)

/-- A slot is ready (R146); a BWD slot that its RECOMP variant replaces counts as that (R140). -/
def slotReady (s : State) (g : Prog) (st : Step) (i : Nat) (e : SlotEnt) : Bool :=
  (match e.waitStream with | some x => decide (e.waitCount ≤ acceptedNow s st x) | none => true) &&
  (e.typ = 1 || st.done.contains e.pair) &&
  (e.typ = 2 || (List.range i).all (fun j => match slotForm g st j with
    | some x => x.2.typ = 2 || x.2.ctx != e.ctx || isIssued st j
    | none => true))

/-- The first sixteen unissued slots of the main sequence. -/
def slotWindow (g : Prog) (st : Step) : List Nat := ((List.range g.sched.mainSlots).filter (fun i => !isIssued st i)).take 16

/-- Log a scheduler event of a slot. -/
def stepLog (s : State) (code p slot tag : Nat) : State := log s { code := code, part := p, tag := tag, payload := slot }

/-- A slot starts (R147): every unit begins round 0. -/
def startSlot (s : State) (p : Nat) (g : Prog) (i f : Nat) (e : SlotEnt) : State :=
  let s1 := modPart s p (fun q => { q with
    units := []
    betweenSteps := q.betweenSteps && e.typ != 1
    step := { q.step with
      run := some (i, f), issued := tput q.step.issued i f, issuedCount := q.step.issuedCount + 1
      stallNs := if q.step.waiting = some i then stallTotal s q.step else q.step.stallNs
      waiting := if q.step.waiting = some i then none else q.step.waiting
      deadT0 := none, dlHeld := false } })
  (progUnits g).foldl (fun s u => runRound 6 s p g e.entry u 0) s1

/-- A context turns to its fallback variants, reported once (R140). -/
def fallBack (s : State) (p i : Nat) (e : SlotEnt) : State :=
  stepLog (modStep s p (fun st => { st with fallback := st.fallback ++ [e.ctx] })) 0xB01 p i e.tag

/-- A FWD slot waits for blocks; reported once a step (R140). -/
def slotWaits (s : State) (p i : Nat) (e : SlotEnt) : State :=
  let st := (getPart s p).step
  let s1 := if st.waiting.isSome then s else modStep s p (fun st => { st with waiting := some i, waitSince := s.clk.time })
  if st.stallLogged then s1 else stepLog (modStep s1 p (fun st => { st with stallLogged := true })) 0xB02 p i e.tag

/-- What trying one slot of the window gives: it starts, it waits for blocks, or it is passed over. -/
inductive Try where
  | start (s : State)
  | waits (s : State)
  | pass (s : State)

/-- Try a ready FWD slot: its reservation, then its fallback variant (R140). -/
def tryFwd (s : State) (p : Nat) (g : Prog) (i f : Nat) (e : SlotEnt) : Try :=
  match stashReserve s p i e.blocks g with
  | some s1 => .start (startSlot s1 p g i f e)
  | none =>
    match (if f = i then (slotEnt g e.alt).map (fun a => (e.alt, a)) else none) with
    | none => .waits (slotWaits s p i e)
    | some a =>
      let s1 := fallBack s p i e
      if !slotReady s1 g (getPart s1 p).step i a.2 then .pass s1
      else match stashReserve s1 p i a.2.blocks g with
        | some s2 => .start (startSlot s2 p g i a.1 a.2)
        | none => .waits (slotWaits s1 p i a.2)

/-- Try one slot; `blocked` says that an earlier FWD slot waits for blocks. -/
def trySlot1 (s : State) (p : Nat) (g : Prog) (i : Nat) (blocked : Bool) : Try :=
  let st := (getPart s p).step
  match slotForm g st i with
  | none => .pass s
  | some x =>
    if !slotReady s g st i x.2 then .pass s
    else if x.2.typ = 1 then (if blocked then .pass s else tryFwd s p g i x.1 x.2)
    else if x.2.typ = 3 then
      (match stashReserve s p i x.2.blocks g with
        | some s1 => .start (startSlot s1 p g i x.1 x.2)
        | none => .pass s)
    else .start (startSlot s p g i x.1 x.2)

/-- Scan the window in table order (R147). -/
def scanSlots (p : Nat) (g : Prog) : List Nat → State → Bool → State
  | [], s, _ => s
  | i :: is, s, blocked =>
    match trySlot1 s p g i blocked with
    | .start s1 => s1
    | .waits s1 => scanSlots p g is s1 true
    | .pass s1 => scanSlots p g is s1 blocked

/-- No slot runs, a FWD slot waits for blocks, and no BWD or RECOMP slot of the window is ready, be it short of blocks (R141). -/
def deadHolds (s : State) (p : Nat) (g : Prog) : Bool :=
  let st := (getPart s p).step
  st.waiting.isSome && st.run.isNone &&
  (slotWindow g st).all (fun i => match slotForm g st i with | some x => x.2.typ = 1 || !slotReady s g st i x.2 | none => true)

/-- The deadlock detector runs from the stamp at which its conditions began to hold, and no longer once one ceases (R141). -/
def deadArm (s : State) (p : Nat) (g : Prog) : State :=
  modStep s p (fun st =>
    if deadHolds s p g then { st with deadT0 := some (st.deadT0.getD s.clk.time) } else { st with deadT0 := none, dlHeld := false })

/-- A detector whose deadline has passed keeps its firing (R141, R315). -/
def deadLate (s : State) (st : Step) : Bool := match st.deadT0 with | some t => decide (t + 2000000 < s.clk.time) | none => false

/-- Issue the first slot that may issue (R147). -/
def trySlot (s : State) (p : Nat) : State :=
  let st := (getPart s p).step
  match curProg s p with
  | none => s
  | some g =>
    if halting s || !st.active || st.ready || st.aborted.isSome || st.run.isSome || deadLate s st then s
    else deadArm (scanSlots p g (slotWindow g st) s false) p g

/-! ## Steps (R25, R148) -/

/-- ACCEPTED of every stream that a slot waits for. -/
def accepted0Of (s : State) (g : Prog) : Tbl Nat :=
  (g.sched.slots.filterMap SlotEnt.waitStream).foldl (fun t x => tset (fun _ => 0) t x (entryOf s x).accepted) []

/-- Key of a program's seal. -/
def sealKey (p k : Nat) : Nat := p * 8 + k

/-- The seal at the start of a step. -/
def sealBegin (x : SealSt) (dims step epoch : Nat) : SealSt :=
  { st := .none, recStep := step, recEpoch := epoch, dims := dims, outcome := x.outcome, fp := x.fp, lastSeal := x.lastSeal, unacked := x.unacked,
    early := x.early }

/-- A step begins: the epoch in force, stash and exchange empty (R25, R148, R313), its first slot. -/
def beginStep (s : State) (p : Nat) : State :=
  match (getPart s p).cur, curProg s p with
  | some k, some g =>
    if halting s || (getSeal s (sealKey p k)).noPeer || (getSeal s (sealKey p k)).copying || g.unloadReq || (getPart s p).swapTo.isSome then s
    else
      let n := g.stepNo + 1
      let s1 := modCurProg s p (fun g => { g with stepNo := n })
      let s2 := modPart s1 p (fun q => { q with
        step := { active := true, begun := s.clk.time, epoch0 := g.epoch, accepted0 := accepted0Of s g } })
      let s3 := setReg s2 (R.GRX_EPOCH p) (BitVec.ofNat 64 g.epoch)
      let s4 := modRec s3 (sealKey p k) (fun x => sealBegin x (g.hdr.elim 0 GrpHdr.dims) n g.epoch)
      trySlot (grxBegin s4 p k n) p
  | _, _ => s

/-- Units all finished. -/
def slotOver (s : State) (p : Nat) (g : Prog) : Bool := (progUnits g).all (fun u => (getUnit s p u).finished)

/-- SLOT_COMPLETE (R138, R147): the slot that runs completes, blocks are freed, and the next slot issues. -/
def execSlotComplete (p : Fin 16) (s : State) : Res :=
  if !onDie s then .next s else
  match curProg s p, (getPart s p).step.run with
  | some g, some r =>
    if !slotOver s p g then .next s
    else
      let s1 := modStep s p (fun st => { st with run := none, done := st.done ++ [r.1] })
      let s2 := match slotEnt g r.2 with
        | some e =>
          let a := if e.typ = 1 then s1 else stashRelease s1 p e.pair
          if e.typ = 3 then stashRelease a p r.1 else a
        | none => s1
      .next (trySlot s2 p)
  | _, _ => .next (trySlot s p)

/-! ## Timers (R141, R149, R314 to R316) -/

/-- STASH_DEADLOCK fires (R141, R142). -/
def deadFire (s : State) (p : Nat) : State :=
  let st := (getPart s p).step
  let i := st.waiting.getD 0xFFFFFFFF
  let tag := match curProg s p with | some g => (slotEnt g i).elim 0 SlotEnt.tag | none => 0
  abortStep (stepLog s 0xB03 p i tag) p 0xB03 i

/-- STASH_DEADLOCK: at the deadline the effect is held, and 2,000 ns later it stands. -/
def execStashDeadlock (p : Fin 16) (s : State) : Res :=
  let st := (getPart s p).step
  match st.deadT0 with
  | some t =>
    if !onDie s || st.waiting.isNone || st.run.isSome || s.clk.time < t + 2000000 then .next s
    else if s.clk.time < t + 2002000 then .next (modStep s p (fun st => { st with dlHeld := true }))
    else .next (deadFire s p)
  | none => .next s

/-- End of the step watchdog (R149). -/
def watchEnd (s : State) (p : Nat) : Option Nat :=
  match curProg s p with
  | some g => if g.watchdog && g.sched.watchdogMs != 0 then some ((getPart s p).step.begun + 1000000 * g.sched.watchdogMs) else none
  | none => none

/-- STEP_WATCHDOG_EXPIRED fires. -/
def watchFire (s : State) (p : Nat) : State :=
  let i := runIndex s p
  let tag := match curProg s p with | some g => (slotEnt g i).elim 0 SlotEnt.tag | none => 0
  abortStep (stepLog s 0xB08 p i tag) p 0xB08 i

/-- The step has not reached its ready report. -/
def stepOpen (st : Step) : Bool := st.active && !st.ready && st.aborted.isNone

/-- STEP_WATCHDOG_EXPIRED (R149). -/
def execStepWatchdogExpired (p : Fin 16) (s : State) : Res :=
  match watchEnd s p with
  | some t =>
    if !onDie s || !stepOpen (getPart s p).step || s.clk.time < t then .next s
    else if s.clk.time < t + 2000 then .next (modStep s p (fun st => { st with wdHeld := true }))
    else .next (watchFire s p)
  | none => .next s

/-! ## The ready report (R139, R148, R290) -/

/-- Every slot has run and every group has finished. -/
def stepDone (s : State) (p : Nat) (g : Prog) : Bool :=
  let st := (getPart s p).step
  (List.range g.sched.mainSlots).all (fun i => st.done.contains i) &&
  (match (getPart s p).cur with
    | some k => (progSlots s p k).all (fun x => match getGrp s x with | some y => grpDone s y | none => true)
    | none => true)

/-- READY_REPORT (R139, R148): blocks still held are freed and reported, and the status block is written. -/
def execReadyReport (p : Fin 16) (s : State) : Res :=
  let st := (getPart s p).step
  match curProg s p with
  | none => .next s
  | some g =>
    let late := match watchEnd s p with | some t => decide (t < s.clk.time) | none => false
    if !onDie s || !stepOpen st || late || !stepDone s p g then .next s
    else
      let s1 := if st.held.isEmpty then s else stashClear (stepLog s 0xB05 p (stashHeld st).length 0) p
      let s2 := modPart (betweenNow s1 p) p (fun q => { q with step := { q.step with ready := true, wdHeld := false } })
      .next (writeStatus s2 p 0)

/-! ## END and folds (R175, R182 to R184) -/

/-- Queues of a core hold nothing (R175). -/
def queuesEmpty (k : Core) : Bool := k.fq.all (fun e => e.2.reqs.isEmpty) && k.pq.all (fun e => e.2.reqs.isEmpty)

/-- An asynchronous operation of a core is under way: loads, preloads, write-backs, the matrix-vector unit, requests, Bows. -/
def coreAsync (s : State) (c : Nat) : Bool :=
  let k := getCore s c
  k.mv.isSome || s.mesh.any (fun e => e.2.core = c) || !k.mwait.isEmpty ||
  [2 * c, 2 * c + 1].any (fun a => let x := getArr s a; x.wb.isSome || x.pre.isSome || x.sh = .loading) ||
  s.strs.any (fun e => e.2.waiting.any (fun b => b.core = c) || (match e.2.cur with | some b => b.ent.core = c | none => false))

/-- Unit that a core runs for. -/
def unitOfCore (s : State) (p c : Nat) : Option Nat :=
  match curProg s p, vcoreOf s c with
  | some g, some v => (g.vcores[v]?).map (unitKey g)
  | _, _ => none

/-- SLOT_END (R175): once the bundle with END has issued and the unit queues are empty, the queues must be empty; then every asynchronous operation
of the core completes, and the round may be over. -/
def execSlotEnd (c : Fin 256) (s : State) : Res :=
  let k := getCore s c
  if !coreRuns s c || !k.ending || k.ended then .next s
  else if k.uq.any (fun e => !e.2.isEmpty) then .next (hold s c 1)
  else if !queuesEmpty k then .next (coreFaultB s c .c ((k.pc + 4095) % 4096) 0xA06 none)
  else if coreAsync s c then .next (hold s c 1)
  else
    let s1 := traceEv (modCore s c (fun k => { k with ended := true, run := .idle })) c 5 0
    .next (match partOfCore s1 c with
      | some p => (match unitOfCore s1 p c with | some u => roundOver s1 p u | none => s1)
      | none => s1)

/-- FOLD_SWAP (R183, R184): every core of the unit has executed END, and the swap begins. -/
def execFoldSwap (p : Fin 16) (unit : Nat) (s : State) : Res :=
  match curProg s p with
  | none => .next s
  | some g =>
    let x := getUnit s p unit
    if !onDie s || (getPart s p).step.run.isNone || x.swapping || x.finished || !(progUnits g).contains unit ||
        !roundEnded s g unit x.round || !needSwap g unit x.round then .next s
    else
      let s1 := setUnit s p unit { x with swapping := true }
      .next ((unitPhys g unit).foldl (fun s c =>
        if coreFolds g c then traceEv (modCore s c (fun k => { k with run := .swap })) c 6 0 else s) s1)

/-- A tenant's code as the instruction store holds it (R184, R186). -/
def loadCode (s : State) (p : Nat) (g : Prog) (v : VCore) (at_ : Nat) : State :=
  let ws := (List.range v.bundles).map (fun i => (at_ + i, BitVec.ofNat 256 (leNat (relBytes s p (g.addr + g.codeOff + v.code + 32 * i) 32))))
  modCore (relTouch s p (g.addr + g.codeOff + v.code) (32 * v.bundles)) v.phys (fun k => { k with istore := ws.foldl (fun t w => tset (fun _ => 0) t w.1 w.2) k.istore })

/-- The fold swap of one core after round `r`: LIVE bytes, OPEN and DONE groups, code that does not fit. -/
def foldCore (s : State) (p k : Nat) (g : Prog) (c r : Nat) : State :=
  match tenantOf g c r, tenantOf g c (tenantAfter g c r) with
  | some a, some b =>
    if !coreFolds g c then s
    else
      let live (v : VCore) : SwapItem := ⟨k, v, v.live, fun st => st = .open_ || st = .done⟩
      let s1 := if storeFolds g c then exchange s p c [live a] [live b] else s
      let s2 := if codeFolds g c then loadCode s1 p g b 0 else s1
      modCore s2 c (fun x => { x with tenant := b.tenant, run := .idle })
  | _, _ => s

/-- FOLD_SWAP_DONE (R183): the unit's next round starts, or the unit has restored tenant 0; no round starts when lost contexts aborted the step
(R196, R214). -/
def execFoldSwapDone (p : Fin 16) (unit : Nat) (s : State) : Res :=
  match (getPart s p).cur, curProg s p with
  | some k, some g =>
    let x := getUnit s p unit
    if !onDie s || !x.swapping || (getPart s p).step.run.isNone then .next s
    else
      let s1 := (unitPhys g unit).foldl (fun s c => foldCore s p k g c x.round) s
      .next (if (getPart s1 p).step.run.isNone then s1 else runRound 6 s1 p g (runEntry s p g) unit (x.round + 1))
  | _, _ => .next s

/-! ## Time slices (R32, R33) -/

/-- The next program in load order, round robin (R32). -/
def nextProg (s : State) (p k : Nat) : Option Nat :=
  let o := (getPart s p).order
  ((o.dropWhile (fun j => j != k)).drop 1 ++ o.takeWhile (fun j => j != k)).find? (fun j =>
    match tget (fun _ => none) (getPart s p).progs j with | some g => !g.unloadReq | none => false)

/-- A partition stands at a step boundary: no step runs, or the last one has been decided. -/
def atBoundary (s : State) (p : Nat) : Bool := !(getPart s p).step.active

/-- Every String of a partition is IDLE (R92). -/
def strsIdle (s : State) (p : Nat) : Bool :=
  (List.range 128).all (fun n => !(strMask s p).getLsbD n || (decide ((getStr s n).run = .idle) && (getStr s n).waiting.isEmpty && strDrained s n))

/-- TIME_SLICE_SWAP (R32, R33, R92): at a step boundary the running program is swapped out and the next one in. -/
def execTimeSliceSwap (p : Fin 16) (s : State) : Res :=
  let q := getPart s p
  match q.cur with
  | none => .next s
  | some k =>
    if !onDie s || !atBoundary s p || q.swapTo.isSome || !strsIdle s p then .next s
    else match nextProg s p k, curProg s p with
      | some j, some g =>
        .next ((progCores g).foldl (fun s c => modCore s c (fun x => { x with run := .swap }))
          (modPart s p (fun q => { q with swapTo := some j })))
      | _, _ => .next s

/-- Every group that is not CLOSED. -/
def notClosed (st : GSt) : Bool := st != .closed

/-- What a time-sliced swap moves for a program on a core: allocations of the tenants that stand there, and with tenant 0 every group that is not
CLOSED (R33). -/
def sliceItems (g : Prog) (k c : Nat) : List SwapItem :=
  ((residentCores g).filter (fun v => v.phys = c)).map (fun v => ⟨k, v, v.size, if v.tenant = 0 then notClosed else fun _ => false⟩)

/-- Program whose contexts stand in a core. -/
def residOf (s : State) (p c : Nat) : Option Nat := tget (fun _ => none) (getPart s p).resid c

/-- One core of the incoming program: its contexts change places with those that stand there (R33, R208). -/
def sliceCore (s : State) (p j : Nat) (h : Prog) (c : Nat) : State :=
  if residOf s p c = some j then s
  else
    let outs := match residOf s p c with
      | some k => (match tget (fun _ => none) (getPart s p).progs k with | some g => sliceItems g k c | none => [])
      | none => []
    modPart (exchange s p c outs (sliceItems h j c)) p (fun q => { q with resid := tset (fun _ => none) q.resid c (some j) })

/-- Tenant registers of a core (R189). -/
def tenRegs (g : Prog) (c : Nat) : Tbl (Option TenReg) :=
  (g.vcores.zipIdx.filter (fun v => v.1.phys = c)).foldl (fun t v =>
    tset (fun _ => none) t v.1.tenant (some ⟨v.2, v.1.csBase, v.1.size, v.1.live, v.1.trap, v.1.code, v.1.bundles⟩)) []

/-- Every core of a program shows the program's tenants. -/
def showTenants (s : State) (g : Prog) : State :=
  (progCores g).foldl (fun s c => modCore s c (fun k => { quietCore k with
    tens := tenRegs g c, tenant := 0, run := .idle, ended := true, fq := [], pq := [] })) s

/-- Code of the tenants that stand in core store. -/
def loadCodes (s : State) (p : Nat) (g : Prog) : State :=
  (g.vcores.filter (fun v => v.tenant = 0 || !codeFolds g v.phys)).foldl (fun s v => loadCode s p g v (codePlace g v)) s

/-- The code with which an incoming program's contexts are lost (R196, R214). -/
def sliceLost (s : State) (p j : Nat) (h : Prog) : Option Nat :=
  (progCores h).foldl (fun (r : Option Nat) c => r.or (if residOf s p c = some j then none else
    ((sliceItems h j c).filterMap (fun x => areaLost s p (savedOf s p x).1)).head?)) none

/-- Swap a program in: cores in order change contexts, tenants and code show the program. -/
def swapIn (s : State) (p k : Nat) (g : Prog) : State :=
  let s1 := (progCores g).foldl (fun s c => sliceCore s p k g c) s
  modPart (loadCodes (showTenants s1 g) p g) p (fun q => { q with cur := some k, swapTo := none })

/-- The incoming program's next step begins; lost contexts abort it. -/
def swapBegin (s : State) (p k : Nat) (g : Prog) : State :=
  let s1 := beginStep (pruneAreas (swapIn s p k g) p) p
  match sliceLost s p k g with | some code => abortStep s1 p code (runIndex s1 p) | none => s1

/-- TIME_SLICE_SWAP_DONE (R33): the incoming program stands, and its next step begins. -/
def execTimeSliceSwapDone (p : Fin 16) (s : State) : Res :=
  match (getPart s p).swapTo with
  | none => .next s
  | some j =>
    if !onDie s then .next s
    else match tget (fun _ => none) (getPart s p).progs j with
      | some h => .next (swapBegin s p j h)
      | none => .next (modPart s p (fun q => { q with swapTo := none }))

/-- A stream has accepted: a slot may have become ready (R146). -/
def wakeStep (s : State) (idx : Nat) : State := trySlot s (strPart s idx)

/-- A step boundary (R32, R148, R188): the next step begins, unless an unload or a swap comes first. -/
def stepBoundary (s : State) (p : Nat) : State :=
  let s1 := modStep s p (fun st => { st with active := false })
  match (getPart s1 p).cur, curProg s1 p with
  | some k, some g => if g.unloadReq || (nextProg s1 p k).isSome then s1 else beginStep s1 p
  | _, _ => s1

end Sys2Proof.Machine
end

