-- ==== Sys2Proof/Machine/Streams.lean ====
section
/-! DEFINITION. Doorbells, stream commands, descriptors, contexts, journal writes and recovery (R228 to R242, R300 to R310). -/

namespace Sys2Proof.Machine

/-- Recovery is not READY (R310, R318). -/
def recBusy (s : State) : Bool := fld (getReg s R.STM_RECOVER_STATUS) 1 0 != 0

/-! ## Doorbells (R238, R242, R388) -/

/-- PRODUCER takes a doorbell's value: in the context, or in the table entry with the pending bit set. -/
def ringBell (s : State) (idx v : Nat) : State :=
  match getCtx s idx with
  | some _ => modEntry s idx (fun e => { e with producer := v })
  | none =>
    let s1 := tableSet s idx { tableGet s idx with producer := v }
    if ctxFree s1 then ctxPut s1 idx (tableGet s1 idx)
    else
      let s2 := setPending s1 idx true
      match lruCtx s2 with | some w => ctxEvict s2 w | none => s2

/-- A doorbell of a mapped page, the conditions of R238 in order. -/
def bell (s : State) (p idx : Nat) (v : W64) : State :=
  let e := entryOf s idx
  let val := fld v 31 0
  let d := sub32 val e.producer
  if !inRange (strRange s p) idx || !eEnabled e || recBusy s then stmLog s 0x50C 0 idx
  else if fld v 63 48 ≠ 0 then stmLog s 0x502 0 idx
  else if fld v 47 32 ≠ e.gen || eClosed e then stmLog s 0x503 0 idx
  else if d = 0 || 2 ^ 31 ≤ d then modReg s R.STM_DB_STALE (· + 1)
  else if 2 ^ e.log2 < sub32 val e.completed then stmLog s 0x502 0 idx
  else ringBell s idx val

/-- The packet that carries a doorbell from the host port to the engine (R220, R221). -/
def bellPacket (p idx : Nat) (v : W64) : Packet :=
  let r := routeEnds (attachRouters 4 0) (attachRouters 5 0)
  { poison := false, addr := idx % 2 ^ 20, tag := 0, part := p, len := 7, typ := 5, srcEp := 4, srcRouter := r.1, dstEp := 5, dstRouter := r.2
    data := natLe v.toNat 8 }

/-- DOORBELL (R221, R238, R310, R388, R407, R409): a full, aligned 64-bit write to a page that the function sees. -/
def execDoorbell (fn : Fin 18) (page slot : Nat) (v : W64) (width : Nat) (s : State) : Res :=
  let r := getReg s (R.STM_DB_PAGE page)
  let p := fld r 35 32
  let idx := fld r 19 0 + slot
  if !onDie s || (getFn s fn).d3 || fn = 17 || 1024 ≤ page || 512 ≤ slot || width ≠ 64 then .next s
  else if fn.val ≠ 0 && !(fnLive s fn && r.getLsbD 36 && decide (p + 1 = fn.val)) then .next s
  else if !r.getLsbD 36 then .next (stmLog s 0x50C 0 idx)
  else if replaying s p then .next s
  else .next (bell (recInput (emit s (.mesh (bellPacket p idx v))) 2 p idx (fld v 31 0) (natLe idx 4 ++ natLe v.toNat 8)) p idx v)

/-! ## Commands (R239): one at a time, functions in turn -/

/-- What a command does at once: it is done with a code and a generation, or it waits for the journal or an admission. -/
inductive CmdEnd where
  | done (code gen : Nat)
  | later
  deriving DecidableEq, Repr

/-- Partition whose range the function's command may name (R239). -/
def cmdPart (s : State) (fn idx : Nat) : Option Nat :=
  match partOfIdx s idx with
  | some p => if fn = 0 || fn = p + 1 then some p else none
  | none => none

/-- A vector that a stream of partition `p` may name (R389). -/
def vecLegal (p v : Nat) : Bool :=
  (decide (16 ≤ v) && decide (v < 256)) || (decide (vecBase (p + 1) + 16 ≤ v) && decide (v < vecBase (p + 1) + 112))

/-- A journal area inside the partition's region and outside its swap region (R305). -/
def journalLegal (s : State) (p a : Nat) : Bool := a % 512 = 0 && decide (a + 512 ≤ regionSize s p - swapSize s p)

/-- An entry image that CREATE refuses with STREAM_DESC_INVALID (R227, R239, R253, R301, R305, R373, R389). -/
def imageBad (s : State) (p : Nat) (b : List Byte) : Bool :=
  let e := entParse b
  b.length ≠ 128 || bits e.cls 7 2 != 0 || leAt b 65 1 != 0 || bits e.vector 15 11 != 0 || bits e.peerStream 31 20 != 0 ||
  bits e.timedRes 31 24 != 0 || leAt b 112 16 != 0 || decide (4 < e.kind) || decide (e.log2 < 4) || decide (16 < e.log2) ||
  e.ring % 4096 != 0 || e.compl % 4096 != 0 || decide (64 < e.prefetch) || !vecLegal p e.vector ||
  (e.kind = 1 && e.vc != 16) || (e.kind = 4 && e.vc != 20) || (eJournal e && !journalLegal s p e.journal) ||
  (e.kind = 2 && (eJournal e || eSealed e))

/-- Enabled KIND 4 entries (R260, R267). -/
def timedCount (s : State) : Nat :=
  (s.stm.ctxs.filter (fun c => match c.2 with | some x => eEnabled x.ent && x.ent.kind = 4 | none => false)).length

/-- A handle that names an installed slot of the partition at or above its FLOOR (R369, R373). -/
def handleOk (s : State) (p key : Nat) : Bool :=
  let k := getSlot s (key % 4096)
  k.used && decide (key % 4096 / 256 = p) && key / 4096 != 0 && decide (k.floor ≤ key / 4096) && decide (k.floor ≤ 1048575)

/-- The code with which CREATE refuses an image, 0 for none (R229, R239, R260, R366, R373). -/
def createCode (s : State) (p idx : Nat) (b : List Byte) : Nat :=
  let e := entParse b
  if eEnabled (entryOf s idx) then 0x507
  else if s.tun.zeroising.contains p then 0x505
  else if imageBad s p b then 0x506
  else if isLocked s p && (e.kind = 1 || e.kind = 4) && !eSealed e then 0x907
  else if eSealed e && !tabInStack s p then 0x508
  else if eSealed e && !handleOk s p e.key then 0x905
  else if e.kind = 4 && eOut e && e.mcast ≠ 0xFFFF then 0x609
  else if e.kind = 4 && 64 ≤ timedCount s then 0x608
  else 0

/-- The entry as CREATE installs it (R239). -/
def freshEntry (b : List Byte) : StrEnt :=
  { entParse b with
    producer := 0, accepted := 0, completed := 0, consumed := 0, oldLimit := 0, bytesDone := 0, gen := 1
    shRing := 0, shCompl := 0, shLog2 := 0, flags := setFlag (setFlag (setFlag (entParse b).flags 6 false) 7 false) 0 true }

/-- Slots per frame of a timed stream (R261). -/
def timedSlots (e : StrEnt) : Nat := bits e.timedRes 6 5 + 1

/-- Install an entry: its context, a full token bucket, its first journal write (R305). -/
def installEntry (s : State) (idx : Nat) (e : StrEnt) : State × CmdEnd :=
  let rt : StrRt := { e2e := { advert := if e.mcast = 0xFFFF then 0 else 65536, tokens := 816 * timedSlots e, tokAt := s.clk.time } }
  let s1 := modRt s idx (fun _ => rt)
  let s2 := modEntry (tableSet s1 idx e) idx (fun _ => e)
  if eJournal e then (jrnWrite s2 idx, .later) else (s2, .done 0 1)

/-- Orders 1 and 2 at the source of an admission (R260): the first hop holds its slots and RESERVE leaves. -/
def admitStart (s : State) (idx : Nat) (e : StrEnt) : State × CmdEnd :=
  let m : AdmMsg :=
    { res := s.fab.nextRes, src := ownAddr s, dst := e.peer, srcStream := idx, dstStream := e.peerStream % 2 ^ 20
      slots := timedSlots e, hops := 1, reason := 0, crypt := false }
  match slotPort s e.peer m.slots with
  | .inr r => (admitStatus s 0x608 1 r, .done 0x608 0)
  | .inl n =>
    let m := { m with crypt := (getPort s n).crypt }
    let s1 := holdSlots { s with fab := { s.fab with nextRes := (s.fab.nextRes + 1) % 65536 } } n m.slots m none
    (portTx s1 n 22 (.reserve m), .later)

/-- Bytes of a CREATE image: from the table's space (R239). -/
def createImage (s : State) (fn p : Nat) (image : List Byte) : List Byte :=
  if tabInStack s p then relBytes s p (getReg s (fnKey fn (R.STM_CMD_ARG 0))).toNat 128 else image

/-- CREATE. -/
def doCreate (s : State) (fn p idx : Nat) (image : List Byte) : State × CmdEnd :=
  let b := createImage s fn p image
  let code := createCode s p idx b
  let e := freshEntry b
  if code = 0x608 then (admitStatus s 0x608 0 5, .done code 0)
  else if code ≠ 0 then (s, .done code 0)
  else if e.kind = 4 && eOut e then admitStart s idx e
  else installEntry s idx e

/-- DESTROY (R239, R260, R373): FLOOR passes the epoch of a sealed stream, a timed sender releases its path. -/
def doDestroy (s : State) (idx : Nat) : State × CmdEnd :=
  let e := entryOf s idx
  if !eEnabled e then (s, .done 0 0)
  else if e.accepted ≠ e.completed || !(getRt s idx).pend.isEmpty then (s, .done 0x505 0)
  else
    let s1 := modRt (modEntry s idx (fun e => { e with flags := setFlag e.flags 0 false })) idx (fun _ => {})
    let s2 := if eSealed e then
        let n := e.key % 4096
        let k := getSlot s1 n
        vaultSave (setSlot s1 n { k with floor := max k.floor (e.key / 4096 + 1) }) n
      else s1
    let s3 := if e.kind = 4 && eOut e then
        match s2.fab.holds.find? (fun h => h.2.adm.res = bits e.timedRes 23 8 && h.2.adm.src = ownAddr s2) with
        | some h => portTx (dropHold s2 h) h.1 22 (.release h.2.adm)
        | none => s2
      else s2
    (s3, .done 0 0)

/-- REARM (R240, R376). -/
def doRearm (s : State) (fn idx : Nat) : State × CmdEnd :=
  let e := entryOf s idx
  let ring := (getReg s (fnKey fn (R.STM_CMD_ARG 0))).toNat
  let log2 := fld (getReg s (fnKey fn (R.STM_CMD_ARG 1))) 4 0
  let c := (getReg s (fnKey fn (R.STM_CMD_ARG 2))).toNat
  let compl := if c = 0 then e.compl else c
  if !eEnabled e then (s, .done 0x50C 0)
  else if eShadow e then (s, .done 0x504 0)
  else if eSealed e && e.gen = 0xFFFF then (s, .done 0x90B 0)
  else
    let g := (e.gen + 1) % 65536
    let s1 := if e.completed = e.producer then
        modRt (modEntry s idx (fun e => newGen e ring log2 compl)) idx
          (fun r => { r with pre := [], jrn := { r.jrn with recDone := 0 } })
      else modRt (modEntry s idx (fun e => { e with
        shRing := ring, shLog2 := log2, shCompl := compl, oldLimit := e.producer, flags := setFlag (setFlag e.flags 6 true) 7 true })) idx
        (fun r => { r with pre := [] })
    if eJournal e then (jrnWrite s1 idx, .later) else (s1, .done 0 g)

/-- QUERY (R239): the entry as the engine holds it, to ARG0 in the table's space. -/
def doQuery (s : State) (fn p idx : Nat) : State × CmdEnd :=
  let a := (getReg s (fnKey fn (R.STM_CMD_ARG 0))).toNat
  let b := entBytes (entryOf s idx)
  ((if tabInStack s p then relWrite s p a b else hostWrite s (p + 1) a b), .done 0 0)

/-- EVICT (R239): the context is written back and freed if it is not pinned. -/
def doEvict (s : State) (idx : Nat) : State × CmdEnd :=
  match getCtx s idx with
  | some c => ((if c.st = .valid && !ctxPinned { s with stm := { s.stm with cmd := none } } idx c then ctxEvict s idx else s), .done 0 0)
  | none => (s, .done 0 0)

/-- One command on its stream; the range is checked first. A command waits while no context can be had (R242). -/
def doCmd (s : State) (k : StmCmd) : State × CmdEnd :=
  match cmdPart s k.fn k.idx with
  | none => (s, .done 0x501 0)
  | some p =>
    match (if 1 ≤ k.op && k.op ≤ 4 then ctxUse s k.idx else some s) with
    | none => (ctxWant { s with stm := { s.stm with noCtx := true } }, .later)
    | some s0 =>
      let s1 := { s0 with stm := { s0.stm with noCtx := false } }
      match k.op with
      | 1 => doCreate s1 k.fn p k.idx k.image
      | 2 => doDestroy s1 k.idx
      | 3 => doRearm s1 k.fn k.idx
      | 4 => doQuery s1 k.fn p k.idx
      | 5 => doEvict s1 k.idx
      | _ => (s1, .done 0x506 0)

/-- A command has ended (R239, R390): status, cause, the record of a refusal. -/
def cmdEnd (s : State) (k : StmCmd) (code gen : Nat) : State :=
  let s1 := setReg { s with stm := { s.stm with cmd := none } } (fnKey k.fn R.STM_CMD_STATUS) (at_ code 32 ||| at_ gen 16)
  let s2 := if code = 0 then s1
    else if code / 256 = 9 then secLog s1 code (strPart s1 k.idx) ((entryOf s1 k.idx).key % 4096) k.idx
    else if code / 256 = 6 then fabStream s1 code none k.idx
    else stmLog s1 code 1 k.idx
  raiseCause s2 k.fn 4

/-- The waiting command of the next function after the last one served. -/
def nextCmd (s : State) : Option StmCmd :=
  ((List.range 18).filterMap (fun i =>
    s.stm.cmdWait.find? (fun k => k.fn = (s.stm.lastFn + 1 + i) % 18))).head?

/-- Run waiting commands while the engine is free. -/
def cmdPump : Nat → State → State
  | 0, s => s
  | n + 1, s =>
    if s.stm.cmd.isSome then s else
    match nextCmd s with
    | none => s
    | some k =>
      let s1 := { s with stm := { s.stm with cmd := some k, cmdWait := s.stm.cmdWait.erase k, lastFn := k.fn } }
      let r := doCmd s1 k
      match r.2 with
      | .done code gen => cmdPump n (cmdEnd r.1 k code gen)
      | .later => r.1

/-- A command that waits for a context tries again, and those behind it follow (R242). -/
def cmdRetry (s : State) : State :=
  match s.stm.cmd with
  | some k =>
    if s.stm.noCtx then
      let r := doCmd s k
      match r.2 with
      | .done code gen => cmdPump 19 (cmdEnd r.1 k code gen)
      | .later => r.1
    else s
  | none => s

/-- A command of STM_CMD (R239, R407). -/
def stmCmdGo (s : State) (fn op idx : Nat) (image : List Byte) : State :=
  let p := strPart s idx
  if (getReg s (fnKey fn R.STM_CMD_STATUS)).getLsbD 0 then stmLog s 0x509 1 idx
  else
    let s1 := recInput s 7 p idx idx (natLe R.STM_CMD 4 ++ natLe (256 * idx + op) 8)
    let s2 := setReg s1 (fnKey fn R.STM_CMD_STATUS) 1
    cmdPump 19 { s2 with stm := { s2.stm with cmdWait := s2.stm.cmdWait ++ [⟨fn, op, idx, image⟩] } }

/-- A write of STM_CMD: one that names a stream under replay is discarded (R409). -/
def stmCmd (s : State) (fn op idx : Nat) (image : List Byte) : State :=
  if !mayWrite s fn R.STM_CMD || replaying s (strPart s idx) then s else stmCmdGo s fn op idx image

/-- The running command ends, and waiting ones follow. -/
def cmdFinish (s : State) (code gen : Nat) : State :=
  match s.stm.cmd with
  | some k => cmdPump 19 (cmdEnd s k code gen)
  | none => s

/-- CREATE (R239). -/
def execCreate (fn : Fin 18) (idx : Nat) (image : List Byte) (s : State) : Res := .next (stmCmd s fn 1 idx image)
/-- DESTROY (R239). -/
def execDestroy (fn : Fin 18) (idx : Nat) (s : State) : Res := .next (stmCmd s fn 2 idx [])
/-- REARM (R240). -/
def execRearm (fn : Fin 18) (idx : Nat) (s : State) : Res := .next (stmCmd s fn 3 idx [])
/-- QUERY (R239). -/
def execQuery (fn : Fin 18) (idx : Nat) (s : State) : Res := .next (stmCmd s fn 4 idx [])
/-- EVICT (R239). -/
def execEvict (fn : Fin 18) (idx : Nat) (s : State) : Res := .next (stmCmd s fn 5 idx [])

/-! ## Tables (R228) -/

/-- An enabled stream of a partition's range. -/
def partHasStream (s : State) (p : Nat) : Bool :=
  let r := strRange s p
  s.stm.ctxs.any (fun c => inRange r c.1 && (match c.2 with | some x => eEnabled x.ent | none => false)) ||
  (if tabInStack s p then (List.range r.2).any (fun i => (getCtx s (r.1 + i)).isNone && eEnabled (tableGet s (r.1 + i)))
   else s.stm.table.any (fun t => inRange r t.1 && (getCtx s t.1).isNone && eEnabled t.2))

/-- A range that is aligned, overlaps no other, and leaves the total within 1,048,576 entries. -/
def rangeLegal (s : State) (p : Nat) (v : W64) : Bool :=
  let first := fld v 19 0
  let n := 2 ^ fld v 36 32
  !v.getLsbD 20 ||
  (decide (fld v 36 32 ≤ 20) && first % n = 0 && decide (first + n ≤ 1048576) &&
   (List.range 16).all (fun q => q = p || (strRange s q).2 = 0 || !overlap first n (strRange s q).1 (strRange s q).2))

/-- PART_TABLE_WRITE (R228): STM_PART_TABLE_p or STM_PART_RANGE_p; the physical function alone writes them. -/
def execPartTableWrite (fn : Fin 18) (off : Nat) (v : W64) (s : State) : Res :=
  let p := instNo off 0x50100 16
  if fn.val ≠ 0 || !mayWrite s fn off || off < 0x50100 || 0x50200 ≤ off || off % 8 ≠ 0 then .next s
  else if partHasStream s p || (off % 16 = 8 && !rangeLegal s p v) then
    .next (log s { code := 0x50A, part := p, payload := 2 ^ 43 * p + 1 * 2 ^ 40 })
  else .next (setReg s off (v &&& (if off % 16 = 8 then fmask 36 32 ||| fmask 20 0 else fmask 63 12 ||| fmask 0 0)))

/-! ## Descriptors (R234) -/

/-- The engine reads a descriptor of a ring in the stack (R204). -/
def ringTouch (s : State) (p : Nat) (e : StrEnt) (i : Nat) : State := if eRingStack e then relTouch s p (e.ring + 32 * slotOf e i) 32 else s

/-- DESCRIPTOR_PREFETCH (R234): the next descriptor of the read-ahead enters the descriptor buffer. -/
def execDescriptorPrefetch (idx : Nat) (hostData : List Byte) (s : State) : Res :=
  let e := entryOf s idx
  let r := getRt s idx
  let i := m32 (nextIdx s idx + r.pre.length)
  if onDie s && (getCtx s idx).isSome && eEnabled e && decide (r.pre.length < e.prefetch) &&
      decide (r.pre.length < sub32 e.producer (nextIdx s idx)) then
    .next (modRt (ringTouch s (strPart s idx) e i) idx (fun r => { r with pre := r.pre ++ [(i, ringDesc s (strPart s idx) e i hostData)] }))
  else .next s

/-- Descriptors that hold or await a transfer slot. -/
def slotsHeld (s : State) (idx : Nat) : Nat := ((getRt s idx).flights.filter (fun f => !f.fin)).length + (getRt s idx).pend.length

/-- Enabled timed streams, each with two slots of its own (R234). -/
def timedStreams (s : State) : Nat :=
  (s.stm.ctxs.filter (fun c => match c.2 with | some x => eEnabled x.ent && eTimed x.ent | none => false)).length

/-- Slots in use of those that no timed stream has for its own (R234). -/
def slotsUsed (s : State) : Nat := s.stm.rt.foldl (fun a r => a + (slotsHeld s r.1 - (if eTimed (entryOf s r.1) then 2 else 0))) 0

/-- A transfer slot is free for a stream: one of a timed stream's own two, or one of the rest (R234). -/
def slotFree (s : State) (idx : Nat) : Bool :=
  decide (slotsHeld s idx < 16) && ((eTimed (entryOf s idx) && decide (slotsHeld s idx < 2)) || decide (slotsUsed s + 2 * timedStreams s < 1024))

/-- The bucket of a timed stream now, in 816ths of a message: SLOTS messages per frame of 81.6 ns, at most SLOTS (R262). -/
def tokensNow (s : State) (idx : Nat) : Nat :=
  let k := timedSlots (entryOf s idx)
  let x := (getRt s idx).e2e
  min (816 * k) (x.tokens + 10 * k * (s.clk.time - x.tokAt))

/-- Acceptance conditions other than a descriptor to accept: no recovery, a transfer slot, FENCE, the timed token and a free receiver,
the nonce (R234, R262, R309, R376). -/
def mayAccept (s : State) (idx : Nat) (d : Desc) : Bool :=
  let e := entryOf s idx
  !halting s && !replaying s (strPart s idx) && !recBusy s &&
  slotFree s idx &&
  (!dFence d || decide (e.completed = nextIdx s idx)) &&
  (!(e.kind = 4 && eOut e) || (decide (816 ≤ tokensNow s idx) && timedFree s idx))

/-- Take a token. -/
def takeToken (s : State) (idx : Nat) : State :=
  let e := entryOf s idx
  if e.kind = 4 && eOut e then
    modRt s idx (fun r => { r with e2e := { r.e2e with tokens := tokensNow s idx - 816, tokAt := s.clk.time } })
  else s

/-- A host-side sealed stream that would accept index 0xFFFF_FFFF (R376). -/
def nonceOut (e : StrEnt) (i : Nat) : Bool := eSealed e && !eFabric e && i = 0xFFFFFFFF

/-- A descriptor with a buffer in the host's memory (R227, R232). -/
def hostSide (e : StrEnt) : Bool := e.kind = 0 || e.kind = 3

/-- Accept a descriptor, whose host buffer is `mapped` or not in the host's space (R233, R301, R407): an invalid one finishes at once; fabric messages leave. -/
def acceptGo (s : State) (idx : Nat) (d : Desc) (mapped : Bool) : State :=
  let e := entryOf s idx
  let p := strPart s idx
  let i := nextIdx s idx
  let s1 := recInput (takeToken s idx) 1 p idx i (descBytes d ++ natLe i 4 ++ natLe e.gen 2)
  let s2 := modRt s1 idx (fun r => { r with pre := r.pre.filter (fun x => x.1 != i) })
  let bad := descInvalid s p e d || (hostSide e && !mapped)
  let s3 := acceptDesc s2 idx { idx := i, desc := d }
  let s4 := if bad then flightEnd s3 idx i 0x506 0 else s3
  if eFabric e && eOut e then sendAll s4 idx else s4

/-- DESCRIPTOR_ACCEPT (R233, R234): the descriptor of index ACCEPTED, from the descriptor buffer, the ring in the stack, or the host's bytes.
A receiving fabric stream accepts only as messages arrive (R257). -/
def execDescriptorAccept (idx : Nat) (hostData : List Byte) (s : State) (mapped : Bool := true) : Res :=
  let e := entryOf s idx
  let i := nextIdx s idx
  if !onDie s || !eEnabled e || (eFabric e && !eOut e) || i = e.producer then .next s
  else match ctxUse s idx with
    | none => .next (ctxWant s)
    | some s0 =>
      let x := (getRt s0 idx).pre.find? (fun x => x.1 = i)
      let d := match x with | some x => x.2 | none => ringDesc s0 (strPart s0 idx) e i hostData
      let s1 := if x.isSome then s0 else ringTouch s0 (strPart s0 idx) e i
      if nonceOut e i then .next (secLog s1 0x90B (strPart s1 idx) (e.key % 4096) idx)
      else if mayAccept s1 idx d then .next (wakeStep (acceptGo s1 idx d mapped) idx) else .next s1

/-- A stream that a loaded group feeds or drains (R269, R270): the exchange engine moves its data, not the host port. -/
def engineStream (s : State) (idx : Nat) : Bool :=
  s.grx.grps.any (fun e => match e.2 with | some g => g.feed = idx || g.enc = idx || g.result = idx | none => false)

/-- DESCRIPTOR_FINISH (R234, R375, R395, R396): the data of one host-side descriptor in flight has moved; a nonzero status is a failed
host read after `bytes` bytes. -/
def execDescriptorFinish (idx i status bytes : Nat) (hostData : List Byte) (s0 : State) (ecc : Ecc := .ok) : Res :=
  let s := if onDie s0 then latent s0 ecc else s0
  let e := entryOf s idx
  let p := strPart s idx
  match (getRt s idx).flights.find? (fun f => f.idx = i && !f.fin && !f.landed) with
  | none => .next s
  | some f =>
    if !onDie s || !eEnabled e || eFabric e || e.kind = 2 || !hostUp s (p + 1) || ideStops s idx || engineStream s idx || (replaying s p && !eOut e) then .next s
    else if eOut e then .next (cmdRetry (moveOut s idx f))
    else
      let s1 := recInput s 3 p idx i hostData
      if status ≠ 0 then
        let n := movedBytes e f.desc (min bytes f.desc.len)
        .next (cmdRetry (landed (relWrite (touchRel s1 p f.desc.stack n) p f.desc.stack (hostData.take n)) idx i 0x50B n))
      else .next (cmdRetry (moveIn s1 idx f hostData))

/-- MSIX_MERGE_EXPIRY (R237): a merged interrupt is sent 1,000 ns after the previous one. -/
def execMsixMergeExpiry (vec : Nat) (s : State) : Res :=
  let m := getMsix s vec
  .next (match m.lastSent with
    | some t =>
      if m.merge && decide (t + 1000 ≤ s.clk.time) then
        modMsix (raiseBehind s m.behind vec) vec (fun e => { e with merge := false, lastSent := some s.clk.time })
      else s
    | none => s)

/-! ## Contexts (R241, R242) -/

/-- CONTEXT_LOAD (R241, R242): a FREE context takes a stream's entry, from the stack or from the bytes that host memory holds. -/
def execContextLoad (idx : Nat) (hostEntry : List Byte) (s : State) : Res :=
  match partOfIdx s idx with
  | none => .next s
  | some p =>
    if !onDie s || (getCtx s idx).isSome || !ctxFree s then .next s
    else .next (ctxPut s idx (if tabInStack s p || hostEntry.length ≠ 128 then tableGet s idx else entParse hostEntry))

/-- CONTEXT_WRITEBACK_DONE (R241): an EVICTING context becomes FREE; one used again meanwhile stays VALID. -/
def execContextWritebackDone (idx : Nat) (s : State) : Res :=
  .next (match getCtx s idx with
    | some c => if onDie s && c.st = .evicting then cmdRetry (ctxDrop s idx) else s
    | none => s)

/-! ## Journal writes (R301, R307) -/

/-- Acceptances that the write recorded enter flight; the completion it recorded is carried out. -/
def jrnApply (s : State) (idx : Nat) : State :=
  let e := entryOf s idx
  let j := (getRt s idx).jrn
  let n := sub32 j.wAccepted e.accepted
  let s1 := modRt s idx (fun r => { r with
    flights := r.flights ++ r.pend.take n, pend := r.pend.drop n, jrn := { r.jrn with writing := false, jSeq := j.wSeq } })
  let s2 := modEntry s1 idx (fun e => { e with accepted := j.wAccepted })
  if j.wCompleted = e.completed then s2
  else match (getRt s2 idx).flights with
    | f :: _ =>
      let s3 := complOne s2 idx f
      modRt s3 idx (fun r => { r with jrn := { r.jrn with recDone := (entryOf s3 idx).completed } })
    | [] => s2

/-- Fetches whose new CONSUMED_BYTES the write recorded are arrived (R307). -/
def jrnFetches (s : State) (idx : Nat) : State :=
  let l := (getRt s idx).cons
  l.foldl (fun s c => modCore s c.1 (fun k => setFq k c.2.1 { fqOf k c.2.1 with
    reqs := (fqOf k c.2.1).reqs.map (fun r => if r.id = c.2.2 then { r with arrived := true } else r) }))
    (modRt s idx (fun r => { r with cons := [] }))

/-- Something waits for a further write. -/
def jrnMore (s : State) (idx : Nat) : Bool :=
  let r := getRt s idx
  r.jrn.dirty || !r.pend.isEmpty || (match r.flights.head? with | some f => f.fin | none => false)

/-- JOURNAL_WRITE_DONE (R301, R305, R307): both copies are written. -/
def execJournalWriteDone (idx : Nat) (s : State) : Res :=
  if !onDie s || halting s || !(getRt s idx).jrn.writing then .next s else
  let s1 := wakeStep (jrnFetches (jrnApply s idx) idx) idx
  let s2 := if jrnMore s1 idx then jrnWrite s1 idx else s1
  let s3 := if eFabric (entryOf s2 idx) && eOut (entryOf s2 idx) then sendAll s2 idx else s2
  .next (match s3.stm.cmd with
    | some k => if s3.stm.noCtx then cmdRetry s3 else if k.idx = idx && (k.op = 1 || k.op = 3) then
        cmdFinish s3 0 (let e := entryOf s3 idx; if eClosed e then (e.gen + 1) % 65536 else e.gen) else s3
    | none => s3)

/-! ## Recovery (R309, R310) -/

/-- Recovery of the partitions that the value names begins. -/
def recoverGo (s : State) (v : W64) : State :=
  if recBusy s then log s { code := 0x509, payload := 1 * 2 ^ 40 }
  else
    let ps := (List.range 16).filter (fun p => v.getLsbD p)
    let s1 := recInput s 7 0xFF 0 0 (natLe R.STM_RECOVER 4 ++ natLe v.toNat 8)
    setReg { s1 with stm := { s1.stm with recParts := ps } } R.STM_RECOVER_STATUS 1

/-- STM_RECOVER (R309, R318): recovery starts with the flush-complete handshake; what this model holds of crossings is whole, so the
partitions wait for RECOVERY_SCAN. -/
def execStmRecover (fn : Fin 18) (v : W64) (s : State) : Res :=
  if fn.val ≠ 0 || !mayWrite s fn R.STM_RECOVER || (List.range 16).any (fun p => v.getLsbD p && replaying s p) then .next s
  else .next (recoverGo s v)

/-- One journal copy at an address (R306, R309): good with VALID, its CRC, and no poison. -/
def jrnCopy (s : State) (p a : Nat) : Option (List Byte) :=
  let r := relRead s p a 64
  if !r.2.1 && nbit (leAt r.1 2 2) 0 && leAt r.1 60 4 = crc32c (r.1.take 60) then some r.1 else none

/-- The good copy with the highest WRITE_COUNT. -/
def jrnBest (s : State) (p a : Nat) : Option (List Byte) :=
  ([a, a + 64, a + 256, a + 320].filterMap (jrnCopy s p)).foldl (fun b c =>
    match b with | some x => if leAt x 40 8 < leAt c 40 8 then some c else b | none => some c) none

/-- The later of two indices, modulo 2^32. -/
def later32 (a b : Nat) : Nat := if sub32 a b < 2 ^ 31 then a else b

/-- Descriptor indices of which recovery needs the descriptor: accepted and not completed, and the one whose record is not known to be written. -/
def recIdx (b : List Byte) : List Nat :=
  let comp := leAt b 8 4
  (if leAt b 12 4 = comp then [] else [sub32 comp 1]) ++ (List.range (sub32 (leAt b 4 4) comp)).map (fun j => m32 (comp + j))

/-- Bytes of a ring slot in host memory among those that the host has answered: stream, slot, descriptor. -/
def hostDesc (descs : List (Nat × Nat × List Byte)) (idx slot : Nat) : Option (List Byte) :=
  (descs.find? (fun x => x.1 = idx && x.2.1 = slot)).map (fun x => x.2.2)

/-- One journaled stream recovers (R309): indices from the journal, the unknown record rewritten, descriptors in flight again. -/
def recoverOne (descs : List (Nat × Nat × List Byte)) (s : State) (p idx : Nat) (b : List Byte) : State :=
  let e0 := entryOf s idx
  let acc := leAt b 4 4
  let comp := leAt b 8 4
  let seq := leAt b 24 8
  let e := { e0 with
    gen := leAt b 0 2, accepted := acc, completed := comp, consumed := leAt b 16 4, bytesDone := leAt b 32 8
    producer := later32 e0.producer acc
    txSeq := if eFabric e0 && eOut e0 then seq else e0.txSeq
    rxSeq := if eFabric e0 && !eOut e0 then seq else e0.rxSeq }
  let s1 := modEntry s idx (fun _ => e)
  let ds := (List.range (sub32 acc comp)).map (fun j =>
    let i := m32 (comp + j)
    ({ idx := i, desc := ringDesc s1 p e i ((hostDesc descs idx (slotOf e i)).getD []), used := if j = 0 then leAt b 16 4 else 0 } : Flight))
  let s2 := modRt s1 idx (fun r => { r with
    flights := ds, pend := [], msg := [], held := []
    jrn := { count := leAt b 40 8, recDone := comp, wAccepted := acc, wCompleted := comp, jSeq := seq } })
  let s3 := if leAt b 12 4 = comp then s2
    else
      let i := sub32 comp 1
      let d := ringDesc s2 p e i ((hostDesc descs idx (slotOf e i)).getD [])
      complPut s2 idx i (leAt b 20 2) (leAt b 56 4) d.tag s2.clk.time (dInt d)
  if eFabric e && eOut e then sendAll s3 idx else s3

/-- One enabled entry of a named partition: recovered, or disabled (R310); counts of both follow. -/
def recoverEntry (descs : List (Nat × Nat × List Byte)) (p : Nat) (a : State × Nat × Nat × Bool) (idx : Nat) : State × Nat × Nat × Bool :=
  let s := a.1
  let e := entryOf s idx
  let off (s : State) : State := modRt (modEntry s idx (fun e => { e with flags := setFlag e.flags 0 false })) idx (fun _ => {})
  if !eEnabled e then a
  else if !eJournal e then (off s, a.2.1, a.2.2.1 + 1, true)
  else match jrnBest s p e.journal with
    | none => (stmLog (off s) 0x50F 2 idx, a.2.1, a.2.2.1 + 1, a.2.2.2)
    | some b =>
      match ctxUse ([0, 64, 256, 320].foldl (fun s o => relTouch s p (e.journal + o) 64) s) idx with
      | some s1 => (recoverOne descs s1 p idx b, a.2.1 + 1, a.2.2)
      | none => (recoverOne descs s p idx b, a.2.1 + 1, a.2.2)

/-- One named partition, in ascending index. -/
def recoverPart (descs : List (Nat × Nat × List Byte)) (a : State × Nat × Nat) (p : Nat) : State × Nat × Nat :=
  let r := strRange a.1 p
  let x := ((List.range r.2).map (fun i => r.1 + i)).foldl (recoverEntry descs p) (a.1, a.2.1, a.2.2, false)
  ((if x.2.2.2 then log x.1 { code := 0x50E, part := p, payload := 2 ^ 43 * p + 2 * 2 ^ 40 } else x.1), x.2.1, x.2.2.1)

/-- Ring slots in host memory that recovery of stream `idx` needs and the host has not answered: partition, address. -/
def recLacks (descs : List (Nat × Nat × List Byte)) (s : State) (p idx : Nat) : List (Nat × Nat) :=
  let e := entryOf s idx
  if !eEnabled e || !eJournal e || eRingStack e then []
  else match jrnBest s p e.journal with
    | none => []
    | some b => ((recIdx b).filter (fun i => (hostDesc descs idx (slotOf e i)).isNone)).map (fun i => (p, e.ring + 32 * slotOf e i))

/-- Those of every named partition. -/
def scanLacks (descs : List (Nat × Nat × List Byte)) (s : State) : List (Nat × Nat) :=
  s.stm.recParts.flatMap (fun p => (List.range (strRange s p).2).flatMap (fun i => recLacks descs s p ((strRange s p).1 + i)))

/-- RECOVERY_SCAN (R6, R309, R310): once no boundary holds FLUSH (R336), the scan of every named partition, and READY. The descriptors of rings in host memory come with the command; until
the host has answered for all that the journals name, their slots are read and nothing else happens. -/
def execRecoveryScan (s : State) (descs : List (Nat × Nat × List Byte) := []) : Res :=
  if !onDie s || !recBusy s || s.clk.bounds.any (fun b => b.2) then .next s
  else if !(scanLacks descs s).isEmpty then .next ((scanLacks descs s).foldl (fun s x => hostEmit s (x.1 + 1) (.hostRead (x.1 + 1) x.2 32)) (setRegFld s R.STM_RECOVER_STATUS 1 0 2))
  else
  let x := s.stm.recParts.foldl (recoverPart descs) (s, 0, 0)
  let s1 := { x.1 with stm := { x.1.stm with recParts := [] } }
  let s2 := setReg s1 R.STM_RECOVER_STATUS (at_ (x.2.2 % 2 ^ 20) 42 ||| at_ (x.2.1 % 2 ^ 20) 22)
  .next (raiseCause (log s2 { code := 0x511, payload := x.2.1 % 2 ^ 20 }) 0 5)

end Sys2Proof.Machine
end

