-- ==== Sys2Proof/Machine/Exchange.lean ====
section
/-! DEFINITION. The gradient exchange as its records and units arrive (R271 to R284, R313). -/

namespace Sys2Proof.Machine

/-! ## One block in one dimension (R276, R279, R281) -/

/-- The group's step is under way on this module. -/
def grpRuns (s : State) (g : Grp) : Bool :=
  let q := getPart s g.part
  decide (q.cur = some g.prog) && q.step.active && q.step.aborted.isNone && !g.broken

/-- Position of this member on the path of a partial; the owner stands at its end. -/
def pathPos (s : State) (g : Grp) (l k : Nat) (plus : Bool) : Nat :=
  let n := levExtent s g l
  ringDist n (pathStart g n l (shardOf s g l k).1 plus) (levCoord s g l) plus

/-- Members that the partial of block `k` covers before its owner. -/
def pathOf (s : State) (g : Grp) (l k : Nat) (plus : Bool) : Nat := pathLen g (levExtent s g l) l (shardOf s g l k).1 plus

/-- Does this member own block `k` in dimension `l`. -/
def ownsIn (s : State) (g : Grp) (l k : Nat) : Bool := (shardOf s g l k).1 = levCoord s g l

/-- Queue a record to leave. -/
def queueRec (s : State) (slot kind l : Nat) (plus : Bool) (k : Nat) (r : GRec) : State :=
  modGrp s slot (fun g => { g with outq := recSet g.outq (recKey (flowKey kind l plus) k) (some r) })

/-- The owner's all-gather of a block in dimension `l` (R281, R284). -/
def gatherOut (s : State) (slot l k : Nat) (r : GRec) : State :=
  match getGrp s slot with
  | none => s
  | some g =>
    (blockDirs s g l k).foldl (fun s plus =>
      if 0 < gatherLen g (levExtent s g l) l (levCoord s g l) plus then queueRec s slot 1 l plus k r else s) s

/-- A final record at this member: it is written down, then leaves in every lower dimension. -/
def haveFinal (s : State) (slot l k : Nat) (r : GRec) : State :=
  (List.range l).reverse.foldl (fun s i => gatherOut s slot i k r) (finalBlock s slot k r)

/-- Contributions that the owner of block `k` waits for. -/
def wanted (s : State) (g : Grp) (l k : Nat) : List Bool := (blockDirs s g l k).filter (fun d => decide (0 < pathOf s g l k d))

/-- The owner ends dimension `l` for a block once every partial has come: sum, boundary, next dimension or the final record. -/
def ownerStep (s : State) (slot l k : Nat) (own : GRec) (next : State → State) : State :=
  match getGrp s slot with
  | none => s
  | some g =>
    let ws := wanted s g l k
    if !ws.all (fun d => (recGet g.inbox (recKey (flowKey 0 l d) k)).isSome) then s
    else
      let sum := ws.foldl (fun a d => match recGet g.inbox (recKey (flowKey 0 l d) k) with | some r => addRec l r a | none => a) own
      let old := scaleGet s (grpEpoch s g % 2) (blockOf s g k)
      let q := boundary old l sum
      let s1 := modGrp s slot (fun g => { g with
        inbox := ws.foldl (fun t d => recSet t (recKey (flowKey 0 l d) k) none) g.inbox
        own := recSet g.own (ownKey l k) none })
      let s2 := ws.foldl (fun s d => relBlock s slot (flowKey 0 l d) k) s1
      if l + 1 < (grpDims g).length then
        next (modGrp s2 slot (fun g => { g with own := recSet g.own (ownKey (l + 1) k) (some q) }))
      else
        haveFinal s2 slot (grpDims g).length k { q with trailer := { q.trailer with nextEntry := nextEntry s g old q.trailer } }

/-- A member on the way adds its contribution to the partial and passes it on. -/
def wayStep (s : State) (slot l k : Nat) (own : GRec) : State :=
  match getGrp s slot with
  | none => s
  | some g =>
    (blockDirs s g l k).foldl (fun s d =>
      if pathOf s g l k d ≤ pathPos s g l k d then s
      else if pathPos s g l k d = 0 then
        queueRec (modGrp s slot (fun g => { g with own := recSet g.own (ownKey l k) none })) slot 0 l d k own
      else match recGet g.inbox (recKey (flowKey 0 l d) k) with
        | some r =>
          queueRec (modGrp s slot (fun g => { g with
            inbox := recSet g.inbox (recKey (flowKey 0 l d) k) none, own := recSet g.own (ownKey l k) none }))
            slot 0 l d k (addRec l r own)
        | none => s) s

/-- What can be done with a block in dimension `l`, and on through the dimensions; `n` is more than the dimensions left. -/
def blockStep : Nat → State → Nat → Nat → Nat → State
  | 0, s, _, _, _ => s
  | n + 1, s, slot, l, k =>
    match getGrp s slot with
    | none => s
    | some g =>
      match recGet g.own (ownKey l k) with
      | none => s
      | some own =>
        if ownsIn s g l k then ownerStep s slot l k own (fun s => blockStep n s slot (l + 1) k)
        else wayStep s slot l k own

/-- Whatever may leave leaves, and whatever is complete is written. -/
def grxMove (s : State) (slot : Nat) : State := resultAll (pumpAll s slot) slot

/-! ## FEED and ENC (R273, R274) -/

/-- A FEED record (R273), whether what the engine reads for it is poisoned, and the state after. -/
def feedRecord (s : State) (g : Grp) (k : Nat) : List Byte × Bool × State :=
  let j := blockOf s g k
  let b := grpEpoch s g % 2
  let x := scaleFetch s b j
  let r := residueBlock x.2 j
  (natLe (scaleGet s b j) 4 ++ [0, 0, 0, 0] ++ residueBank r.1 b, x.1 || r.2.1, r.2.2)

/-- `n` FEED records from block `k`: bytes, the records that carry poison, and the state after. -/
def feedRecords : Nat → State → Grp → Nat → List Byte × List Nat × State
  | 0, s, _, _ => ([], [], s)
  | n + 1, s, g, k =>
    let r := feedRecord s g k
    let t := feedRecords n r.2.2 g (k + 1)
    (r.1 ++ t.1, (if r.2.1 then [k] else []) ++ t.2.1, t.2.2)

/-- Poison read from the stack stands in the sectors of the FEED records that carry it (log 127). -/
def feedPoison (s : State) (g : Grp) (stack k0 : Nat) (ks : List Nat) : State :=
  ks.foldl (fun s k =>
    match relToSa s g.part (stack + 136 * (k - k0)) with
    | some a => (sectorsOfRange a 136).foldl (fun s k => setPoison s k true) s
    | none => s) s

/-- Write FEED records, 64 in a descriptor, as far as the ring has room. -/
def feedPump : Nat → State → Nat → State
  | 0, s, _ => s
  | n + 1, s, slot =>
    match getGrp s slot with
    | none => s
    | some g =>
      let m := min 64 (g.blocks - g.feedNext)
      if m = 0 || !engineRoom s g.feed then s
      else
        let r := feedRecords m s g g.feedNext
        let e := entryOf r.2.2 g.feed
        let d := ringDesc r.2.2 g.part e e.producer []
        let s1 := feedPoison (engineProduce r.2.2 g.part g.feed r.1) g d.stack g.feedNext r.2.1
        feedPump n (modGrp s1 slot (fun g => { g with feedNext := g.feedNext + m })) slot

/-- FEED_WRITE (R273). -/
def execFeedWrite (g : Fin 16) (s : State) : Res :=
  match getGrp s g with
  | some x => if onDie s && grpRuns s x then .next (feedPump (x.blocks / 64 + 1) s g) else .next s
  | none => .next s

/-- This member's own trailer in dimension 0 (R278). -/
def ownTrailer (s : State) (mag : Nat) (poison : Bool) : Trailer :=
  { poison := poison, sat := false, peaks := [0, 0, 0, 0], origin := if poison then ownAddr s else 0, nextEntry := 0, mag := mag }

/-- One ENC record enters dimension 0; `bad` poisons it, and its residues are written when the record is whole. -/
def encEnter (s : State) (slot : Nat) (b : List Byte) (bad whole : Bool) : State :=
  match getGrp s slot with
  | none => s
  | some g =>
    let k := g.encNext
    if g.blocks ≤ k then s
    else
      let j := blockOf s g k
      let s1 := if whole then residueWrite s j ((grpEpoch s g + 1) % 2) ((b.drop 8).take 128) else s
      let r : GRec := { lanes := signLanes (leAt b 0 8), trailer := ownTrailer s (leAt b 136 4) (bad || nbit (leAt b 140 4) 0) }
      let s2 := modGrp s1 slot (fun g => { g with encNext := k + 1, own := recSet g.own (ownKey 0 k) (some r) })
      blockStep 6 s2 slot 0 k

/-- ENC_RECORD (R273): the engine reads the next record of the ENC stream. A LENGTH that is no multiple of 144 poisons what its
descriptor touches, and so does poisoned data; records beyond BLOCKS are reported. -/
def execEncRecord (g : Fin 16) (s : State) : Res :=
  match getGrp s g with
  | none => .next s
  | some x =>
    if !onDie s || !grpRuns s x then .next s
    else match (getRt s x.enc).flights.find? (fun f => !f.fin) with
      | none => .next s
      | some f =>
        let n := min 144 (f.desc.len - f.used)
        let r := relRead s x.part (f.desc.stack + f.used) n
        let bad := f.desc.len % 144 != 0 || r.2.1
        let past := decide (x.blocks ≤ x.encNext)
        let s1 := if (f.desc.len % 144 != 0 && f.used = 0) || (past && n ≠ 0) then grxLog r.2.2 0x70E g x.part (blockOf s x x.encNext) (ownAddr s) else r.2.2
        let s2 := if n = 0 then s1 else encEnter s1 g (fitTo 144 r.1) bad (n = 144)
        let s3 := modFlight s2 x.enc f.idx (fun f => { f with used := f.used + n })
        let s4 := if f.used + n = f.desc.len then flightEnd s3 x.enc f.idx 0 f.desc.len else s3
        .next (grxMove s4 g)

/-! ## Units arrive (R277, R280, R281, R284) -/

/-- Is a record of block `k` expected on a direction of dimension `l`. -/
def expects (s : State) (g : Grp) (kind l k : Nat) (plus : Bool) : Bool :=
  let n := levExtent s g l
  inLevel s g l k && (blockDirs s g l k).contains plus &&
  (if kind = 0 then decide (0 < pathPos s g l k plus) && decide (pathPos s g l k plus ≤ pathOf s g l k plus)
   else
     let d := ringDist n (shardOf s g l k).1 (levCoord s g l) plus
     decide (0 < d) && decide (d ≤ gatherLen g n l (shardOf s g l k).1 plus))

/-- One reduce-scatter record arrives: it waits in staging for this member's contribution. -/
def scatterIn (s : State) (slot l : Nat) (plus : Bool) (k : Nat) (r : GRec) : State :=
  blockStep 6 (modGrp s slot (fun g => { g with inbox := recSet g.inbox (recKey (flowKey 0 l plus) k) (some r) })) slot l k

/-- One all-gather record arrives: kept, and forwarded until it has reached every other member. -/
def gatherIn (s : State) (slot l : Nat) (plus : Bool) (k : Nat) (r : GRec) : State :=
  match getGrp s slot with
  | none => s
  | some g =>
    let n := levExtent s g l
    let j := (shardOf s g l k).1
    let s1 := haveFinal s slot l k r
    if ringDist n j (levCoord s g l) plus < gatherLen g n l j plus then queueRec s1 slot 1 l plus k r
    else relBlock s1 slot (flowKey 1 l plus) k

/-- A reduction unit of this step, moving in direction `plus`: one that no schedule expects breaks the group. -/
def unitIn (s : State) (port slot : Nat) (plus : Bool) (u : GUnit) : State :=
  match getGrp s slot with
  | none => s
  | some g =>
    let kind := if u.phase = 2 then 1 else 0
    let k0 := u.block - blockOf s g 0
    let ks := (List.range u.recs.length).map (fun i => k0 + i)
    let good (k : Nat) : Bool :=
      decide (k < g.blocks) && expects s g kind u.dim k plus &&
      (kind = 1 || decide (u.phase = 0) = (decide (u.dim = 0) && decide (pathPos s g u.dim k plus = 1)))
    if decide ((grpDims g).length ≤ u.dim) || u.block < blockOf s g 0 || !ks.all good then grxBroken s slot
    else
      let s1 := modGrp s slot (fun g => { g with units := g.units ++ [(port, flowKey kind u.dim plus, ks)] })
      let s2 := u.recs.zipIdx.foldl (fun s r =>
        if kind = 0 then scatterIn s slot u.dim plus (k0 + r.2) r.1 else gatherIn s slot u.dim plus (k0 + r.2) r.1) s1
      grxMove s2 slot

/-- A fingerprint from the − neighbour of dimension `dim` (R283); any other breaks the group. -/
def fingerIn (s : State) (slot dim : Nat) (plus : Bool) (fp : Nat) : State :=
  match getGrp s slot with
  | none => s
  | some g =>
    if decide ((grpDims g).length ≤ dim) || !plus || !fpExpects s g dim then grxBroken s slot
    else modGrp s slot (fun g => fpCompare { g with fpGot := tset (fun _ => none) g.fpGot dim (some fp) })

/-- A unit of VCg (R277, R284): that of another step is discarded. The port's role gives the dimension and the direction that it travels, and a
unit for another module, of another dimension or of no whole number of records is expected by no schedule. -/
def grxUnit (s : State) (port : Nat) (u : LinkUnit) : State :=
  match getGrp s u.vc with
  | none => s
  | some g =>
    let dim := bits u.eseq 13 12
    let r := roleOf s port
    if !grpRuns s g || bits u.eseq 11 1 ≠ g.step % 2048 then s
    else if u.dst ≠ ownAddr s || (grpDims g)[dim]? ≠ some (roleDim r) then grxBroken s u.vc
    else if bits u.eseq 15 14 = 3 then
      (if u.data.length = 8 then fingerIn s u.vc dim (!rolePlus r) (leAt u.data 0 8) else grxBroken s u.vc)
    else match gParse u with
      | some x => unitIn s port u.vc (!rolePlus r) x
      | none => grxBroken s u.vc

/-- REDUCTION_CREDIT (R280, R313): staging of the receiver is free again. -/
def execReductionCredit (port : Fin 12) (slot : Fin 16) (dim : Fin 4) (plus : Bool) (n : Nat) (s : State) : Res :=
  if !portLive s port then .next s
  else
    let s1 := took s port (nextVc s 18 none port)
    match getGrp s1 slot with
    | some g =>
      .next (grxMove (modGrp s1 slot (fun x => { x with
        credits := tset (fun _ => 2048) x.credits (dirKey dim plus) (min 2048 (credOf g dim plus + n)) })) slot)
    | none => .next s1

/-! ## Block ranges (R271) -/

/-- A range that a write may give to partition `p`: multiples of 64, inside U, apart from the other partitions'. -/
def blocksLegal (s : State) (p first n : Nat) : Bool :=
  first % 64 = 0 && n % 64 = 0 && decide (first + n ≤ usableBlocks s) &&
  (List.range 16).all (fun q => q = p || !(decide (0 < n) && decide (0 < (partBlocks s q).2) && overlap first n (partBlocks s q).1 (partBlocks s q).2))

/-- GRX_PART_BLOCKS_WRITE (R271): by the physical function, while the partition has no program. -/
def execGrxPartBlocksWrite (fn : Fin 18) (p : Fin 16) (v : W64) (s : State) : Res :=
  let off := R.GRX_PART_BLOCKS p
  if !mayWrite s fn off || fn.val ≠ 0 then .next s
  else
    let busy := (getPart s p).progs.any (fun e => e.2.isSome) || (getPart s p).loading.isSome
    if busy || !blocksLegal s p (fld v 21 0) (fld v 53 32) then .next (log s { code := 0x70B, part := p })
    else .next (setReg s off (at_ (fld v 21 0) 0 ||| at_ (fld v 53 32) 32))

end Sys2Proof.Machine
end

