-- ==== Sys2Proof/Machine/Clamp.lean ====
section
/-! DEFINITION. Parsing and clamping of a Tuning image (R37 to R51), and its canonical image (R446). -/

namespace Sys2Proof.Machine

/-- A record of an image (R38). -/
structure TRec where
  id : Nat
  typ : Nat
  inst : Nat
  val : List Byte
  deriving DecidableEq, Repr

/-- What parsing finds (R39). -/
structure TParse where
  bad : Bool
  crcBad : Bool
  trunc : Bool
  recs : List TRec
  deriving DecidableEq, Repr

/-- Whole records up to `count`, within `lim` bytes (R39). -/
def parseRecs (bs : List Byte) (lim : Nat) : Nat → Nat → Nat → List TRec
  | 0, _, _ => []
  | _, 0, _ => []
  | fuel + 1, count + 1, o =>
    if o + 8 ≤ lim then
      let len := leAt bs (o + 4) 2
      let o' := o + 8 + (len + 7) / 8 * 8
      if o' ≤ lim then
        ⟨leAt bs o 2, leAt bs (o + 2) 1, leAt bs (o + 3) 1, (bs.drop (o + 8)).take len⟩ :: parseRecs bs lim fuel count o'
      else []
    else []

/-- Header checks and records of the bytes supplied (R37, R39). -/
def parseImage (bs : List Byte) : TParse :=
  let il := leAt bs 8 4
  let cnt := leAt bs 12 4
  if bs.length < 64 || leAt bs 0 4 != 0x454E5554 || leAt bs 4 2 != 1 || leAt bs 6 2 != 64 || il < 64 || il > 1048576 then
    ⟨true, false, false, []⟩
  else
    let short := decide (bs.length < il)
    let body := bs.take il
    let crc := crc32c (body.take 24 ++ [0, 0, 0, 0] ++ body.drop 28)
    let rs := parseRecs bs (min il bs.length) (il / 8) cnt 64
    ⟨false, short || crc != leAt bs 24 4, short || rs.length != cnt, rs⟩

/-- TYPE that a field defines: 1 integer, 2 mask, 3 byte list, 4 pair; 0 for an unknown field (R38, R42). -/
def fieldType : Nat → Nat
  | 0x01 => 1 | 0x02 => 1 | 0x03 => 1 | 0x04 => 1 | 0x05 => 1 | 0x10 => 1 | 0x11 => 3 | 0x20 => 1 | 0x21 => 2 | 0x22 => 2
  | 0x30 => 1 | 0x31 => 1 | 0x32 => 1 | 0x33 => 1 | 0x34 => 1 | 0x40 => 1 | 0x41 => 1 | 0x50 => 1 | 0x51 => 1 | 0x52 => 1
  | 0x60 => 4 | _ => 0

/-- Number of instances of a field (R38). -/
def fieldInsts : Nat → Nat
  | 0x02 => 16 | 0x21 => 16 | 0x22 => 16 | 0x32 => 16 | 0x33 => 16 | 0x34 => 16 | 0x40 => 16 | 0x41 => 16 | 0x52 => 12 | _ => 1

/-- Fields with one instance per partition. -/
def perPart (id : Nat) : Bool := [0x21, 0x22, 0x32, 0x33, 0x34, 0x40, 0x41].contains id

/-- Can a record be used: known field, its TYPE, a legal VALUE_LEN and INSTANCE (R38, R39). -/
def recUsable (r : TRec) : Bool :=
  let n := r.val.length
  fieldType r.id != 0 && r.typ = fieldType r.id && decide (r.inst < fieldInsts r.id) &&
  (match r.typ with
    | 2 => [8, 16, 24, 32].contains n
    | 3 => decide (1 ≤ n) && decide (n ≤ 128)
    | _ => n = 8)

/-- A value as 64-bit words. -/
def wordsOf (bs : List Byte) : List Nat := (List.range ((bs.length + 7) / 8)).map (fun i => leAt bs (8 * i) 8)

/-- Words of a mask of `n` bits. -/
def maskWords (n v : Nat) : List Nat := (List.range ((n + 63) / 64)).map (fun i => v / 2 ^ (64 * i) % 2 ^ 64)

/-- First index at which two word lists differ, or 0. -/
def diffWord (a b : List Nat) : Nat :=
  ((List.range (max a.length b.length)).find? (fun i => a.getD i 0 != b.getD i 0)).getD 0

/-- Reasons of R47. -/
def rCLAMPED : Nat := 1
def rMISSING : Nat := 2
def rUNKNOWN : Nat := 3
def rCONFLICT : Nat := 4

/-- A report entry; the WORD is the first that differs (R47). -/
def mkEnt (id inst reason : Nat) (cause : Nat × Nat) (req app : List Nat) : RepEnt :=
  let w := diffWord req app
  ⟨id, inst, reason, cause.1, cause.2, w, req.getD w 0, app.getD w 0⟩

/-- First usable record of a field and instance. -/
def findRec (rs : List TRec) (id inst : Nat) : Option (List Byte) :=
  (rs.find? (fun r => r.id = id && r.inst = inst)).map TRec.val

/-- The clamping pass so far: entries and applied words by field and instance. -/
structure Clamped where
  ents : List RepEnt := []
  app : List (Nat × Nat × List Nat) := []
  deriving DecidableEq, Repr

/-- Note the applied value of a field, with its entry when it differs or is missing (R47). -/
def note (k : Clamped) (id inst : Nat) (req : Option (List Nat)) (app : List Nat) (reason : Nat) (cause : Nat × Nat) : Clamped :=
  { ents := k.ents ++ (match req with
      | none => [mkEnt id inst rMISSING cause [] app]
      | some r => if r = app then [] else [mkEnt id inst reason cause r app])
    app := k.app ++ [(id, inst, app)] }

/-- A single integer field: its applied value and cause from the requested value, or the default (R40, R41). -/
def noteInt (rs : List TRec) (k : Clamped) (id inst dflt : Nat) (f : Nat → Nat × Nat × (Nat × Nat)) : Clamped × Nat :=
  match findRec rs id inst with
  | none => let r := f dflt; (note k id inst none [r.1] rMISSING (if r.1 = dflt then (0, 0) else r.2.2), r.1)
  | some b =>
    let v := leNat b
    let r := f v
    (note k id inst (some [v]) [r.1] r.2.1 r.2.2, r.1)

/-- Clamp to an interval, no cause. -/
def clampTo (lo hi v : Nat) : Nat × Nat × (Nat × Nat) :=
  ((if v < lo then lo else if v > hi then hi else v), rCLAMPED, (0, 0))

/-- Run a numbered list of instances. -/
def clampEach (n : Nat) (f : Clamped → Nat → Clamped × Nat) (k : Clamped) : Clamped × List Nat :=
  (List.range n).foldl (fun a i => let r := f a.1 i; (r.1, a.2 ++ [r.2])) (k, [])

/-- ZONE_SETPOINT (R41, R42): nearest step of 10 MHz from 300 to the class maximum. -/
def clampZone (mx v : Nat) : Nat × Nat × (Nat × Nat) :=
  let r := if v % 10 ≤ 5 then v - v % 10 else v - v % 10 + 10
  let a := if v < 300 then 300 else if v > mx then mx else r
  (a, rCLAMPED, if 300 ≤ v && v ≤ 850 && v % 10 = 0 && v > mx then (0x01, 0) else (0, 0))

/-- Dimensions that a shape has (R45). -/
def shapeDims : Nat → Nat | 1 => 1 | 2 => 3 | 3 => 4 | _ => 0

/-- Legality of extents: used dimensions at least 2, unused 1 (R42). -/
def extentsClamp (shape v : Nat) : Nat :=
  (List.range 4).foldl (fun a i => a + (if i < shapeDims shape then max 1 (bits v (4 * i + 3) (4 * i)) else 0) * 2 ^ (4 * i)) 0

/-- Roles that a shape uses (R45). -/
def roleUsed (shape r : Nat) : Bool := r = 0 || (defaultRoles shape).contains r

/-- Features and the resources they can use (R49). -/
def featCan (f r : Nat) : Bool :=
  match f with
  | 1 => r = 0 | 2 => r = 0 | 3 => r = 10 | 4 => r = 10
  | 5 => decide (r ≤ 1) | 6 => r = 1
  | 7 => decide (2 ≤ r) && decide (r ≤ 9) | 8 => decide (2 ≤ r) && decide (r ≤ 9) | 9 => decide (2 ≤ r) && decide (r ≤ 9)
  | _ => false

/-- Features that name a partition (R49). -/
def featPart (f : Nat) : Bool := f = 5 || f = 7

/-- A claim value: resource, feature, partition (chapter 02). -/
def claimRes (v : Nat) : Nat := v % 256
def claimFeat (v : Nat) : Nat := v / 256 % 256
def claimPart (v : Nat) : Nat := v / 65536 % 16

/-- Is a claim legal by itself (R49). -/
def claimLegal (v : Nat) : Bool :=
  featCan (claimFeat v) (claimRes v) && v / 1048576 = 0 && (featPart (claimFeat v) || claimPart v = 0)

/-- OWN claims in image order: the first legal one of a resource wins (R49). -/
def ownPass (count : Nat) : List Nat → List Nat → List (Nat × Option RepEnt)
  | [], _ => []
  | v :: vs, won =>
    let r := claimRes v
    if won.any (fun w => claimRes w = r) then
      (v, some ⟨0x60, r, rCONFLICT, 0x60, r, 0, v, 0⟩) :: ownPass count vs won
    else if !claimLegal v then (v, some ⟨0x60, r, rCLAMPED, 0, 0, 0, v, 0⟩) :: ownPass count vs won
    else if featPart (claimFeat v) && count ≤ claimPart v then
      (v, some ⟨0x60, r, rCLAMPED, 0x20, 0, 0, v, 0⟩) :: ownPass count vs won
    else (v, none) :: ownPass count vs (won ++ [v])

/-- What clamping needs of the module beside the image. -/
structure ClampEnv where
  grade : Nat
  disabled : List Nat
  runtime : List Claim
  deriving DecidableEq, Repr

/-- Bits of `m` below `n` for which `f` holds, as a number. -/
def maskFilter (n m : Nat) (f : Nat → Bool) : Nat :=
  (List.range n).foldl (fun a i => if m.testBit i && f i then a + 2 ^ i else a) 0

/-- Lowest index of a list of masks that shares a bit with `m`. -/
def firstHolder (ms : List Nat) (m : Nat) : Option Nat := (ms.zipIdx.find? (fun x => x.1 &&& m != 0)).map Prod.snd

/-- PART_CORES of partition `p` (R42): fused and quarantined cores, and cores of earlier partitions, are removed. -/
def clampCores (e : ClampEnv) (earlier : List Nat) (v : Nat) : Nat × Nat × (Nat × Nat) :=
  let a := maskFilter 256 v (fun c => !e.disabled.contains c && !earlier.any (fun m => m.testBit c))
  match firstHolder earlier v with
  | some q => (a, rCONFLICT, (0x21, q))
  | none => (a, rCLAMPED, (0, 0))

/-- PART_STRINGS of partition `p` (R41, R42). -/
def clampStrings (geom : List (List Nat)) (cores : Nat) (p : Nat) (earlier : List Nat) (v : Nat) : Nat × Nat × (Nat × Nat) :=
  let onCores (i : Nat) : Bool := (geom.getD i []).all (fun pos => cores.testBit (ringArr pos / 2))
  let a := maskFilter 128 v (fun i => decide (i < geom.length) && onCores i && !earlier.any (fun m => m.testBit i))
  match firstHolder earlier (v % 2 ^ 128) with
  | some q => (a, rCONFLICT, (0x22, q))
  | none =>
    if v / 2 ^ 128 != 0 then (a, rCLAMPED, (0, 0))
    else if v / 2 ^ geom.length != 0 then (a, rCLAMPED, (0x11, 0))
    else (a, rCLAMPED, (0x21, p))

/-- A mask field of one partition. -/
def noteMask (rs : List TRec) (k : Clamped) (id inst width dflt : Nat) (f : Nat → Nat × Nat × (Nat × Nat)) : Clamped × Nat :=
  match findRec rs id inst with
  | none => let r := f dflt; (note k id inst none (maskWords width r.1) rMISSING (if r.1 = dflt then (0, 0) else r.2.2), r.1)
  | some b =>
    let v := leNat b
    let r := f v
    let rw := maskWords (max (8 * b.length) width) v
    (note k id inst (some rw) (maskWords (max (8 * b.length) width) r.1) r.2.1 r.2.2, r.1)

/-- PART_STACK_SIZE (R44): the region ends at the first boundary above its base. -/
def clampSize (top base : Nat) (noCores : Bool) (p : Nat) (earlier : List (Nat × Nat)) (v : Nat) : Nat × Nat × (Nat × Nat) :=
  let live := (earlier.zipIdx.filter (fun x => x.1.2 != 0))
  match live.find? (fun x => decide (x.1.1 ≤ base) && decide (base < x.1.1 + x.1.2)) with
    | some x => (0, rCONFLICT, (0x32, x.2))
    | none =>
      if noCores then (0, rCLAMPED, (0x21, p)) else
      let bnd := live.foldl (fun (b : Nat × (Nat × Nat)) x =>
        if base < x.1.1 && x.1.1 < b.1 then (x.1.1, (0x32, x.2)) else b) (top, (0x31, 0))
      let room := bnd.1 - base
      if v ≤ room then (v, rCLAMPED, (0, 0))
      else (room, rCLAMPED, bnd.2)

/-- Sorted insertion by resource, keeping image order. -/
def insEnt (e : RepEnt) : List RepEnt → List RepEnt
  | [] => [e]
  | x :: xs => if e.inst < x.inst then e :: x :: xs else x :: insEnt e xs

/-- The clamping pass in table order (R41 to R51): the structure, its entries, the applied words. -/
def clampAll (e : ClampEnv) (rs : List TRec) : Tuning × Clamped :=
  let (k, cooling) := noteInt rs {} 0x01 0 0 (fun v => ((if v ≤ 2 then v else 0), rCLAMPED, (0, 0)))
  let mx := if cooling = 0 then 700 else 850
  let (k, setpoint) := clampEach 16 (fun k z => noteInt rs k 0x02 z (if cooling = 0 then 640 else 850) (clampZone mx)) k
  let (k, drone) := noteInt rs k 0x03 0 50 (clampTo 0 90)
  let (k, up) := noteInt rs k 0x04 0 400 (clampTo 25 800)
  let (k, down) := noteInt rs k 0x05 0 400 (clampTo 25 800)
  let (k, seam) := noteInt rs k 0x10 0 1 (fun v => ((if v ≤ 1 then v else 1), rCLAMPED, (0, 0)))
  let en := enabledPos e.disabled
  let reqLens := match findRec rs 0x11 0 with | some b => some (List.map BitVec.toNat b) | none => none
  let lens := (reqLens.getD (List.replicate 32 16)).map strRound
  let laid := layStrings (seam != 0) lens en
  let appLens := laid.map List.length
  let cut := seam != 0 && (laid.zip lens).any (fun x => x.1 != [] && decide (x.1.length < x.2) && decide (x.1.getLastD 0 < 256))
  let lw (l : List Nat) : List Nat := wordsOf (l.map (BitVec.ofNat 8))
  let k := note k 0x11 0 (reqLens.map lw) (lw appLens) rCLAMPED (if cut then (0x10, 0) else (0, 0))
  let geom := laid.filter (fun l => !l.isEmpty)
  let (k, count) := noteInt rs k 0x20 0 1 (clampTo 1 16)
  let allC := (allCores e.disabled).toNat
  let (k, cores) := (List.range count).foldl (fun (a : Clamped × List Nat) p =>
    let r := noteMask rs a.1 0x21 p 256 (if p = 0 then allC else 0) (clampCores e a.2); (r.1, a.2 ++ [r.2])) (k, [])
  let (k, strings) := (List.range count).foldl (fun (a : Clamped × List Nat) p =>
    let r := noteMask rs a.1 0x22 p 128 (if p = 0 then lowMask geom.length else 0)
      (clampStrings geom (cores.getD p 0) p a.2); (r.1, a.2 ++ [r.2])) (k, [])
  let (k, res) := noteInt rs k 0x30 0 8 (clampTo 0 32)
  let (k, sh) := noteInt rs k 0x31 0 4 (clampTo 0 16)
  let units := stackUnits e.grade
  let top := spaceTop e.grade res sh
  let (k, base) := clampEach count (fun k p => noteInt rs k 0x32 p 0 (fun v =>
    ((if v < top then v else top - 1), rCLAMPED,
      if v < units - 1 then (if res != 0 then (0x30, 0) else (0x31, 0)) else (0, 0)))) k
  let (k, size) := (List.range count).foldl (fun (a : Clamped × List Nat) p =>
    let b := base.getD p 0
    let r := noteInt rs a.1 0x33 p (top - b) (clampSize top b (cores.getD p 0 = 0) p (base.zip a.2)); (r.1, a.2 ++ [r.2])) (k, [])
  let (k, swap) := clampEach count (fun k p => noteInt rs k 0x34 p 0 (fun v =>
    (min v (size.getD p 0), rCLAMPED, if v < units then (0x33, p) else (0, 0)))) k
  let (k, guar) := (List.range count).foldl (fun (a : Clamped × List Nat) p =>
    let room := 100 - a.2.sum
    let f (v : Nat) : Nat × Nat × (Nat × Nat) :=
      if cores.getD p 0 = 0 then (0, rCLAMPED, if v ≤ 100 then (0x21, p) else (0, 0))
      else (min v room, rCLAMPED, if v ≤ 100 then (0x40, (a.2.findIdx (fun g => g != 0))) else (0, 0))
    let r := noteInt rs a.1 0x40 p (if p = 0 then 100 else 0) f; (r.1, a.2 ++ [r.2])) (k, [])
  let (k, ceil) := clampEach count (fun k p => noteInt rs k 0x41 p 100 (fun v =>
    let g := guar.getD p 0
    if v > 100 then (100, rCLAMPED, (0, 0)) else if v < g then (g, rCLAMPED, (0x40, p)) else (v, rCLAMPED, (0, 0)))) k
  let (k, shape) := noteInt rs k 0x50 0 0 (fun v => ((if v ≤ 3 then v else 0), rCLAMPED, (0, 0)))
  let (k, ext) := noteInt rs k 0x51 0 0 (fun v =>
    (extentsClamp shape v, rCLAMPED, if v < 65536 then (0x50, 0) else (0, 0)))
  let (k, roles) := (List.range 12).foldl (fun (a : Clamped × List Nat) p =>
    let f (v : Nat) : Nat × Nat × (Nat × Nat) :=
      if !roleUsed shape v then (0, rCLAMPED, if v ≤ 14 then (0x50, 0) else (0, 0))
      else if v != 0 && a.2.contains v then (0, rCONFLICT, (0x52, a.2.idxOf v))
      else (v, rCLAMPED, (0, 0))
    let r := noteInt rs a.1 0x52 p ((defaultRoles shape).getD p 0) f; (r.1, a.2 ++ [r.2])) (k, [])
  let owns := (rs.filter (fun r => r.id = 0x60)).map (fun r => leNat r.val)
  let pass := ownPass count owns []
  let won := (pass.filter (fun x => x.2.isNone)).map Prod.fst
  let revoked := (e.runtime.filter (fun c => won.any (fun w => claimRes w = c.res && claimFeat w != claimFeat c.value))).map (fun c =>
    let w := (won.find? (fun w => claimRes w = c.res)).getD 0
    (⟨0x60, c.res, rCONFLICT, 0, 0, 0, c.value, w⟩ : RepEnt))
  let ownEnts := revoked.foldl (fun l x => insEnt x l) ((pass.filterMap Prod.snd).foldl (fun l x => insEnt x l) [])
  let k : Clamped := { k with ents := k.ents ++ ownEnts }
  ({ cooling := cooling, setpoint := setpoint, droneFloor := drone, rampUp := up, rampDown := down, seamCut := seam,
     strLens := appLens, partCount := count, cores := cores.map (BitVec.ofNat 256), strings := strings.map (BitVec.ofNat 128),
     residue := res, shared := sh, base := base, size := size, swap := swap, guarantee := guar, ceiling := ceil, shape := shape,
     extents := ext, roles := roles,
     own := (List.range 11).flatMap (fun r => won.filter (fun w => claimRes w = r)) }, k)

/-- The entry of a record that is not usable: WORD counts only for masks and the list of STRING_LENGTHS. INSTANCE is the record's, also of an OWN record,
whose value may not be one: R47 gives the resource index for OWN entries and does not say this of discarded ones (log 122, the model's choice). -/
def unknownEnt (r : TRec) : RepEnt :=
  let w := wordsOf r.val
  if r.typ = 2 || r.typ = 3 then mkEnt r.id r.inst rUNKNOWN (0, 0) w [] else ⟨r.id, r.inst, rUNKNOWN, 0, 0, 0, w.getD 0 0, 0⟩

/-- Entries of the parsing pass in image order (R39, R46, R47): `seen` holds the records used so far. -/
def parseEnts (k : Clamped) (count : Nat) : List TRec → List (Nat × Nat) → List RepEnt
  | [], _ => []
  | r :: rs, seen =>
    if !recUsable r then unknownEnt r :: parseEnts k count rs seen
    else if perPart r.id && count ≤ r.inst then
      mkEnt r.id r.inst rCLAMPED (0x20, 0) (wordsOf r.val) [] :: parseEnts k count rs seen
    else if r.id != 0x60 && seen.contains (r.id, r.inst) then
      let app := ((k.app.find? (fun a => a.1 = r.id && a.2.1 = r.inst)).map (fun a => a.2.2)).getD []
      mkEnt r.id r.inst rCONFLICT (r.id, r.inst) (wordsOf r.val) app :: parseEnts k count rs seen
    else parseEnts k count rs (seen ++ [(r.id, r.inst)])

/-- A whole image clamped: parsing entries first, then clamping entries (R47). -/
def clampImage (e : ClampEnv) (recs : List TRec) : Tuning × List RepEnt :=
  let us := recs.filter recUsable
  let r := clampAll e us
  (r.1, parseEnts r.2 r.1.partCount recs [] ++ r.2.ents)

/-- The 32 bytes of a report entry (R47). -/
def repBytes (r : RepEnt) : List Byte :=
  natLe r.field 2 ++ natLe r.inst 1 ++ natLe r.reason 1 ++ natLe r.causeId 2 ++ natLe r.causeInst 1 ++ natLe r.word 1 ++
    natLe r.requested 8 ++ natLe r.applied 8 ++ List.replicate 8 0

/-! ## The canonical image (R446) -/

def canRec (id typ inst : Nat) (val : List Byte) : List Byte :=
  natLe id 2 ++ natLe typ 1 ++ natLe inst 1 ++ natLe val.length 2 ++ [0, 0] ++ padTo 8 val

/-- Records of an indexed field. -/
def canEach (id : Nat) (vs : List Nat) : List (List Byte) := vs.zipIdx.map (fun x => canRec id 1 x.2 (natLe x.1 8))

/-- The records in field-table order. -/
def canRecs (t : Tuning) : List (List Byte) :=
  [canEach 0x01 [t.cooling], canEach 0x02 t.setpoint, canEach 0x03 [t.droneFloor], canEach 0x04 [t.rampUp],
   canEach 0x05 [t.rampDown], canEach 0x10 [t.seamCut],
   [canRec 0x11 3 0 ((t.strLens.filter (fun n => n != 0)).map (BitVec.ofNat 8))], canEach 0x20 [t.partCount],
   (t.cores.zipIdx.map (fun x => canRec 0x21 2 x.2 (natLe x.1.toNat 32))),
   (t.strings.zipIdx.map (fun x => canRec 0x22 2 x.2 (natLe x.1.toNat 16))), canEach 0x30 [t.residue], canEach 0x31 [t.shared],
   canEach 0x32 t.base, canEach 0x33 t.size, canEach 0x34 t.swap, canEach 0x40 t.guarantee, canEach 0x41 t.ceiling,
   canEach 0x50 [t.shape], canEach 0x51 [t.extents], canEach 0x52 t.roles,
   t.own.map (fun v => canRec 0x60 4 0 (natLe v 8))].flatten

/-- The canonical image of a structure (R446). -/
def canonical (t : Tuning) : List Byte :=
  let rs := canRecs t
  let body := rs.flatten
  let h1 := natLe 0x454E5554 4 ++ natLe 1 2 ++ natLe 64 2 ++ natLe (64 + body.length) 4 ++ natLe rs.length 4 ++ List.replicate 8 0
  let h2 := List.replicate 36 0
  h1 ++ natLe (crc32c (h1 ++ [0, 0, 0, 0] ++ h2 ++ body)) 4 ++ h2 ++ body

/-- The digest that TUN_ACTIVE_HASH shows (R446). -/
def tuningDigest (t : Tuning) : List Byte := sha384 (canonical t)

end Sys2Proof.Machine
end

