-- ==== Sys2Proof/Machine/Format.lean ====
section
/-! DEFINITION. The gradient-format selector at SEAL (R134 to R136). -/

namespace Sys2Proof.Machine

/-- Two records added. R133 states of one record that its counts saturate at 32 bits; that the sums of a window do too is this model's choice (log 115). -/
def GStats.merge (a b : GStats) : GStats :=
  { bins := List.zipWith (fun x y => sat32 (x + y)) a.bins b.bins
    zero := sat32 (a.zero + b.zero), nonfin := sat32 (a.nonfin + b.nonfin)
    blocks := sat32 (a.blocks + b.blocks), wide := sat32 (a.wide + b.wide) }

/-- N of R134. -/
def GStats.total (g : GStats) : Nat := g.bins.foldl (· + ·) 0

/-- e_hi: exponent of the highest nonzero bin. -/
def GStats.eHi (g : GStats) : Int := ((List.range 64).foldl (fun a i => if g.bins.getD i 0 = 0 then a else (i : Int)) 0) - 48

/-- e_lo: the largest exponent such that the values in bins below it number at most N / 1024 (log 32). -/
def GStats.eLo (g : GStats) : Int :=
  ((List.range 64).foldl (fun a i => if 1024 * (((g.bins.take i).foldl (· + ·) 0)) ≤ g.total then (i : Int) else a) 0) - 48

/-- Rank of a format code: E4M3, E5M2, BS8, BF16. -/
def fmtRank : Nat → Nat
  | 1 => 0 | 2 => 1 | 7 => 2 | _ => 3

/-- The choice of R134, when there is one. -/
def GStats.choice (g : GStats) : Option Nat :=
  if g.total = 0 then none
  else if g.nonfin ≠ 0 then some 5
  else if g.eHi ≤ 7 && -6 ≤ g.eLo then some 1
  else if g.eHi ≤ 14 && -14 ≤ g.eLo then some 2
  else if 1024 * g.wide ≤ g.blocks then some 7
  else some 5

/-- Signed byte. -/
def sbyte (x : Int) : Byte := BitVec.ofInt 8 x

/-- Evaluate one layer at the SEAL of a step at epoch `e` (R134, R135): merge the window, choose, and record what changes. -/
def selectLayer (s : State) (p e step : Nat) (layer : Nat) : State :=
  match layerAddr s p layer, statsAddr s p layer e with
  | some a, some now =>
    let b := relBytes s p a 32
    if nbit (leAt b 0 1) 1 then s
    else
      let s' := relTouch s p a 32
      let s0 := if (getPart s p).step.stats.contains layer then s' else relWrite s' p now GStats.empty.bytes
      let w := min 16 (leAt b 16 4 + 1)
      let ring := leAt b 24 8
      let g := (List.range w).foldl (fun g i => g.merge (GStats.ofBytes (relBytes s0 p (ring + 288 * ((e + 16 * w - i) % 16)) 288))) GStats.empty
      let cur := leAt b 3 1
      let run := leAt b 5 1
      let narrower := match g.choice with | some c => decide (fmtRank c < fmtRank cur) | none => false
      let run1 := if narrower then min 4 (run + 1) else 0
      let next := match g.choice with
        | some c => if fmtRank cur < fmtRank c then c else if narrower && 4 ≤ run1 then c else cur
        | none => cur
      let s1 := relWrite ((List.range w).foldl (fun s i => relTouch s p (ring + 288 * ((e + 16 * w - i) % 16)) 288) s0) p (a + 16) (natLe w 4)
      let s2 := if g.total = 0 then s1 else relWrite s1 p (a + 6) [sbyte g.eHi, sbyte g.eLo]
      let s3 := relWrite s2 p (a + 5) [BitVec.ofNat 8 run1]
      if next = cur then s3
      else log (relWrite (relWrite s3 p (a + 3) [BitVec.ofNat 8 next, BitVec.ofNat 8 cur]) p (a + 8) (natLe step 8))
        { code := 0xB07, part := p, payload := layer }
  | _, _ => s

/-- Evaluate every layer of the running program (R134). -/
def selectFormats (s : State) (p : Nat) : State :=
  match curProg s p with
  | some g => (List.range g.sched.layers).foldl (fun s l => selectLayer s p g.epoch g.stepNo l) s
  | none => s

end Sys2Proof.Machine
end

