-- ==== Sys2Proof/Machine/Seal.lean ====
section
/-! DEFINITION. The step seal and rejoining (R289 to R297). -/

namespace Sys2Proof.Machine

/-! ## The domain (R289) -/

/-- Dimensions of a SEAL_DIMS mask, lowest first. -/
def sealDims (m : Nat) : List Nat := (List.range 4).filter (nbit m)

/-- Root of the domain of address `a`. -/
def rootOf (ds : List Nat) (a : Nat) : Nat := ds.foldl (fun a d => withCoord a d 0) a

/-- Backup: the root's + neighbour in the lowest dimension. -/
def backupOf (s : State) (ds : List Nat) (a : Nat) : Nat :=
  match ds.head? with | some d => neighbourOf s (rootOf ds a) d true | none => a

/-- Parent of a member that is not the root. -/
def parentOf (s : State) (ds : List Nat) (a : Nat) : Nat :=
  match ds.find? (fun d => coordOf a d != 0) with
  | some d => let n := extentOf s d; let c := coordOf a d; withCoord a d (if c ≤ n / 2 then c - 1 else (c + 1) % n)
  | none => a

/-- Children of a member: the addresses whose parent it is. -/
def childrenOf (s : State) (ds : List Nat) (a : Nat) : List Nat :=
  ds.flatMap (fun d => ((List.range (extentOf s d)).map (withCoord a d)).filter (fun x => coordOf x d != 0 && x != a && parentOf s ds x = a))

/-- Members of the domain. -/
def domainSize (s : State) (ds : List Nat) : Nat := ds.foldl (fun n d => n * extentOf s d) 1

/-- A module that messages can reach (R255). -/
def reach (s : State) (a : Nat) : Bool := a = ownAddr s || (routePort s a 0).isSome

/-- Does this module decide: the root, a module alone, or a backup that has become root. -/
def decides (s : State) (x : SealSt) : Bool := rootOf (sealDims x.dims) (ownAddr s) = ownAddr s || x.asRoot

/-- Where READY goes: the parent, else the root, else the backup (R290). -/
def readyTo (s : State) (x : SealSt) : Nat :=
  let ds := sealDims x.dims
  let a := ownAddr s
  if reach s (parentOf s ds a) then parentOf s ds a
  else if reach s (rootOf ds a) then rootOf ds a
  else backupOf s ds a

/-- Children of this module, and the root's once the backup has become root (R295). -/
def kids (s : State) (x : SealSt) : List Nat :=
  let ds := sealDims x.dims
  let a := ownAddr s
  let own := childrenOf s ds a
  if x.asRoot then (own ++ childrenOf s ds (rootOf ds a)).eraseDups.filter (fun c => c != a) else own

/-- ROLE of GRX_SEAL_p (R299). -/
def sealRole (s : State) (x : SealSt) : Nat :=
  let ds := sealDims x.dims
  if ds.isEmpty then 3
  else if rootOf ds (ownAddr s) = ownAddr s || x.asRoot then 1
  else if backupOf s ds (ownAddr s) = ownAddr s then 2
  else 0

/-! ## READY (R290) -/

/-- Send a message of the seal to a module of the domain. -/
def sealSend (s : State) (p dst : Nat) (m : SealMsg) : State := fabSend s (.sealing dst (ownAddr s) p m)

/-- Merge two READY messages. -/
def mergeReady (a b : ReadyMsg) : ReadyMsg :=
  let f := if a.failed && (!b.failed || decide (a.failOrigin ≤ b.failOrigin)) then (a.failCode, a.failOrigin) else (b.failCode, b.failOrigin)
  let o := if a.poison && (!b.poison || decide (a.poisonOrigin ≤ b.poisonOrigin)) then (a.poisonOrigin, a.poisonBlock)
    else (b.poisonOrigin, b.poisonBlock)
  { step := a.step, count := (a.count + b.count) % 2 ^ 32, fp := a.fp ^^^ b.fp
    failed := a.failed || b.failed, mismatch := a.mismatch || b.mismatch, poison := a.poison || b.poison, sat := a.sat || b.sat
    failCode := f.1, failOrigin := f.2
    poisonBlocks := sat32 (a.poisonBlocks + b.poisonBlocks), satBlocks := sat32 (a.satBlocks + b.satBlocks)
    poisonOrigin := o.1, poisonBlock := o.2 }

/-- A READY with nothing in it. -/
def plainReady (step : Nat) : ReadyMsg :=
  { step := step, count := 0, fp := 0, failed := false, mismatch := false, poison := false, sat := false, failCode := 0, failOrigin := 0,
    poisonBlocks := 0, satBlocks := 0, poisonOrigin := 0, poisonBlock := 0 }

/-- A READY with FAILED. -/
def failReady (step code origin : Nat) : ReadyMsg := { plainReady step with failed := true, failCode := code, failOrigin := origin }

/-- This module's own report: the fingerprint and outcome of its groups. -/
def ownReady (s : State) (p k step : Nat) : ReadyMsg :=
  (progSlots s p k).foldl (fun m i => match getGrp s i with
    | some g =>
      let o := g.poisonAt.getD (0, 0)
      let x : ReadyMsg := { plainReady step with
        fp := g.fp.getD 0, mismatch := g.mismatch, poison := g.poisonAt.isSome, sat := decide (g.satBlocks ≠ 0)
        poisonBlocks := g.poisonBlocks, satBlocks := g.satBlocks, poisonOrigin := o.1, poisonBlock := o.2 }
      mergeReady m x
    | none => m) { plainReady step with count := 1 }

/-- Policy of a program's domain. -/
def policyOf (s : State) (p : Nat) : Nat := match curProg s p with | some g => g.hdr.elim 0 GrpHdr.policy | none => 0

/-- The reason for which a merged READY makes the root decide ABORT (R291). -/
def abortReason (policy : Nat) (m : ReadyMsg) : Option Nat :=
  if m.failed then some m.failCode
  else if m.mismatch then some 0x704
  else if m.poison && !nbit policy 0 then some 0x701
  else if m.sat && nbit policy 1 then some 0x702
  else none

/-! ## Applying a decision (R294) -/

/-- Record the decision as an input of record mode (R407): group slot, step, SEAL or ABORT, reason. -/
def recDecision (s : State) (p k step sealed reason : Nat) : State :=
  recInput s 0xA p 0 step (natLe ((progSlots s p k).head?.getD 0) 1 ++ natLe step 8 ++ natLe sealed 1 ++ natLe reason 2)

/-- OUTCOME of the step status block. -/
def writeOutcome (s : State) (p code : Nat) : State :=
  match curProg s p with
  | some g => relWrite s p (g.sched.status + 16) (natLe code 2)
  | none => s

/-- SEAL_PULSE of a flip (R435): the pin stays high until 1 microsecond after the latest flip. -/
def sealPulse (s : State) (p : Nat) : State :=
  [0, 1].foldl (fun s r => match ownerOf s r with
    | some v =>
      if claimFeat v.1 = 5 && claimPart v.1 = p then
        let s1 := if (getGpx s r).high then s else emit s (.pin r true)
        modGpx s1 r (fun g => { g with high := true, endAt := some (s.clk.time + 1000) })
      else s
    | none => s) s

/-- The next step may begin; a module that rejoins while its domain runs the next step takes no part in it, and waits for its decision (R296). -/
def stepAfter (s : State) (p k : Nat) : State :=
  match (getSeal s (sealKey p k)).sitOut with
  | some n =>
    let s1 := modStep s p (fun st => { st with active := false })
    modRec (modCurProg s1 p (fun g => { g with stepNo := n })) (sealKey p k) (fun x => { x with
      st := .none, recStep := n, merged := none, heard := [], sent := false, sitOut := none })
  | none => stepBoundary s p

/-- SEAL takes effect (R134, R294, R390): record, epoch, epoch word, status, formats, interrupt; the next step may begin. -/
def applySeal (s : State) (p k : Nat) : State :=
  match curProg s p with
  | none => s
  | some g =>
    let x := getSeal s (sealKey p k)
    let s1 := recDecision s p k x.recStep 1 0
    let s2 := selectFormats s1 p
    let e := x.recEpoch + 1
    let s3 := modRec s2 (sealKey p k) (fun x => { x with
      st := .flipped, recEpoch := e, outcome := 0, waitBackup := false, undecided := false, lastSeal := some x.recStep })
    let s4 := setReg (modCurProg s3 p (fun g => { g with epoch := e })) (R.GRX_EPOCH p) (BitVec.ofNat 64 e)
    let s5 := match g.hdr with | some h => relWrite s4 p h.epochAddr (natLe e 8) | none => s4
    let s6 := writeOutcome s5 p 0
    stepAfter (raiseBoth (sealPulse s6 p) p 8) p k

/-- ABORT takes effect (R294): the epoch stays, a step that still runs ends. -/
def applyAbort (s : State) (p k reason : Nat) : State :=
  let x := getSeal s (sealKey p k)
  let s1 := recDecision s p k x.recStep 0 reason
  let s2 := abortStep s1 p reason 0xFFFFFFFF
  let s3 := modRec s2 (sealKey p k) (fun x => { x with st := .aborted, outcome := reason, waitBackup := false, undecided := false })
  let s4 := writeOutcome s3 p reason
  let s5 := log s4 { code := 0x703, part := p, payload := x.recStep % 2 ^ 32 }
  stepAfter (raiseBoth s5 p 8) p k

/-! ## Deciding (R291, R292) -/

/-- Is the step of a seal still open. -/
def undecidedYet (x : SealSt) : Bool := match x.st with | .none => true | .readySent => true | .pendingSeal => true | _ => false

/-- Send a decision to every child, each to be acknowledged. -/
def tellKids (s : State) (p key : Nat) (m : SealMsg) : State :=
  let ks := kids s (getSeal s key)
  ks.foldl (fun s c => sealSend s p c m) (modSeal s key (fun x => { x with unacked := ks }))

/-- The root decides ABORT. -/
def decideAbort (s : State) (p k reason : Nat) : State :=
  let x := getSeal s (sealKey p k)
  applyAbort (tellKids (modRec s (sealKey p k) (fun x => { x with st := .aborted })) p (sealKey p k) (.abort x.recStep reason)) p k reason

/-- SEAL is issued: the root writes SEALED and tells its children, the backup included. -/
def issueSeal (s : State) (p k : Nat) : State :=
  let x := getSeal s (sealKey p k)
  applySeal (tellKids (modRec s (sealKey p k) (fun x => { x with st := .sealed, waitBackup := false })) p (sealKey p k)
    (.decideSeal x.recStep)) p k

/-- The root decides SEAL (R292): PENDING_SEAL, then the backup's acknowledgement; a module alone decides at once. -/
def decideSeal (s : State) (p k : Nat) : State :=
  let x := getSeal s (sealKey p k)
  let ds := sealDims x.dims
  if ds.isEmpty || x.asRoot then issueSeal s p k
  else if !reach s (backupOf s ds (ownAddr s)) then decideAbort s p k 0x707
  else sealSend (modRec s (sealKey p k) (fun x => { x with st := .pendingSeal, waitBackup := true })) p (backupOf s ds (ownAddr s))
    (.decideSeal x.recStep)

/-- The root looks at what it holds (R291). -/
def rootDecide (s : State) (p k : Nat) : State :=
  let x := getSeal s (sealKey p k)
  if !decides s x || !undecidedYet x || x.waitBackup then s
  else match x.merged with
    | none => s
    | some m =>
      let s := modSeal s (sealKey p k) (fun x => { x with fp := m.fp })
      match abortReason (policyOf s p) m with
      | some r => decideAbort s p k r
      | none => if m.count = domainSize s (sealDims x.dims) then decideSeal s p k else s

/-- Merge a report into what the module holds. -/
def takeReady (s : State) (key : Nat) (m : ReadyMsg) : State :=
  modSeal s key (fun x => { x with merged := some (match x.merged with | some a => mergeReady a m | none => m) })

/-- The merged READY leaves for the parent, or the root decides on it (R290, R299, R312). -/
def sendUp (s : State) (p k : Nat) : State :=
  let key := sealKey p k
  let s1 := scaleFlush s
  let x := getSeal s1 key
  let m := x.merged.getD (plainReady x.recStep)
  let s2 := modRec s1 key (fun x => { x with
    sent := true, fp := m.fp, st := if decides s x then x.st else if x.st = .none then .readySent else x.st })
  if decides s x then rootDecide s2 p k else sealSend s2 p (readyTo s x) (.ready m)

/-- A failed READY leaves at once, without waiting for this module's children. -/
def sendFailed (s : State) (p k code origin : Nat) : State :=
  let key := sealKey p k
  let x := getSeal s key
  sendUp (takeReady s key { failReady x.recStep code origin with count := 1 }) p k

/-- Children not heard that have become unreachable (R290). -/
def lostKids (s : State) (x : SealSt) : List Nat := (kids s x).filter (fun c => !x.heard.contains c && !reach s c)

/-- The backup becomes root when the root is unreachable: it carries a PENDING_SEAL through, or decides ABORT (R295). -/
def backupTakes (s : State) (p k : Nat) : State :=
  let key := sealKey p k
  let s1 := modSeal s key (fun x => { x with asRoot := true })
  if (getSeal s key).st = .pendingSeal then issueSeal s1 p k else decideAbort s1 p k 0x706

/-- The backup finds the root unreachable (R295). -/
def rootLost (s : State) (x : SealSt) : Bool :=
  let ds := sealDims x.dims
  let a := ownAddr s
  !ds.isEmpty && !x.asRoot && backupOf s ds a = a && rootOf ds a != a && !reach s (rootOf ds a)

/-- Reports that came before the step began here count once it has. -/
def absorb (s : State) (key : Nat) : State :=
  let x := getSeal s key
  let now := x.early.filter (fun e => e.2.step = x.recStep && !x.heard.contains e.1)
  let s1 := now.foldl (fun s e => takeReady s key e.2) s
  modSeal s1 key (fun x => { x with heard := x.heard ++ now.map Prod.fst, early := x.early.filter (fun e => decide (x.recStep < e.2.step)) })

/-- What READY this module may send now. -/
def tryReady (s : State) (p : Nat) : State :=
  match (getPart s p).cur with
  | none => s
  | some k =>
    let s := absorb s (sealKey p k)
    let x := getSeal s (sealKey p k)
    let st := (getPart s p).step
    let failed := match x.merged with | some m => m.failed | none => false
    if !st.active || !undecidedYet x || x.recBad then s
    else if rootLost s x then backupTakes s p k
    else if st.ready && !failed && (progSlots s p k).any (fun i => match getGrp s i with | some g => g.broken | none => false) then
      sendFailed s p k 0x708 (ownAddr s)
    else if x.sent then s
    else match st.aborted with
      | some code => sendFailed s p k code (ownAddr s)
      | none =>
        match (lostKids s x).head? with
        | some c => sendFailed s p k 0x705 c
        | none =>
          if failed then sendUp s p k
          else if st.ready && (kids s x).all (fun c => x.heard.contains c) then
            sendUp (takeReady s (sealKey p k) (ownReady s p k x.recStep)) p k
          else s

/-- SEND_READY (R290): READY leaves when its conditions hold. -/
def execSendReady (p : Fin 16) (s : State) : Res := if onDie s then .next (tryReady s p) else .next s

/-- A message of the seal arrives on VC22 of a port: another module's goes on, this module's has its effect (R253, R289). -/
def sealArrive (s : State) (port : Nat) (dst src p : Nat) (m : SealMsg) (f : State → State) : State :=
  if !portLive s port then s
  else
    let h := hopIn s port 22 dst (.sealing dst src p m)
    if h.2 then f h.1 else h.1

/-- A report of a child, or of an orphan at the root. A FAILED goes on at once. -/
def readyIn (s : State) (p child : Nat) (m : ReadyMsg) : State :=
  match (getPart s p).cur with
  | none => s
  | some k =>
    let key := sealKey p k
    let x := getSeal s key
    if x.heard.contains child && !m.failed then s
    else if x.recStep < m.step then modSeal s key (fun x => { x with early := x.early ++ [(child, m)] })
    else if !(getPart s p).step.active || m.step ≠ x.recStep || !undecidedYet x then s
    else
      let s1 := modSeal (takeReady s key m) key (fun x => { x with heard := x.heard ++ [child] })
      if decides s1 x then rootDecide s1 p k
      else if m.failed then (if x.sent then sealSend s1 p (readyTo s1 x) (.ready m) else sendUp s1 p k)
      else tryReady s1 p

/-- READY (R290, R291). -/
def execReady (hop : SealHop) (child : Nat) (m : ReadyMsg) (s : State) : Res :=
  .next (sealArrive s hop.port hop.dst child hop.part (.ready m) (fun s => readyIn s hop.part child m))

/-! ## Decisions arrive (R292) -/

/-- Ask for the decision of the last step (R296): the root, the backup when the root is unreachable or is this module. A module without its
record cannot name the step (log 128). -/
def sendQuery (s : State) (p k : Nat) : State :=
  let x := getSeal s (sealKey p k)
  let ds := sealDims x.dims
  let a := ownAddr s
  let to_ := if rootOf ds a != a && reach s (rootOf ds a) then rootOf ds a else backupOf s ds a
  if to_ = a then s else sealSend s p to_ (.query (if x.recBad && !x.undecided then none else some x.recStep))

/-- A decision for this module: forwarded, applied, acknowledged to the parent; a module that has lost its record asks instead. -/
def takeDecision (s : State) (p k step : Nat) (m : SealMsg) (apply : State → State) : State :=
  let key := sealKey p k
  let x := getSeal s key
  let ack (s : State) : State := sealSend s p (parentOf s (sealDims x.dims) (ownAddr s)) (.decAck step)
  if x.recBad then (if x.undecided then sendQuery (ack s) p k else ack s)
  else if step ≠ x.recStep || !undecidedYet x then ack s
  else apply (ack (tellKids s p key m))

/-- SEAL for this module (R292, R294): at the backup the root's first one is written as PENDING_SEAL and acknowledged to it. -/
def sealIn (s : State) (p src step : Nat) : State :=
  match (getPart s p).cur with
  | none => s
  | some k =>
    let key := sealKey p k
    let x := getSeal s key
    let ds := sealDims x.dims
    let a := ownAddr s
    if backupOf s ds a = a && src = rootOf ds a && step = x.recStep && x.st = .readySent && !x.recBad then
      sealSend (modRec s key (fun x => { x with st := .pendingSeal })) p (rootOf ds a) (.sealAck step)
    else takeDecision s p k step (.decideSeal step) (fun s => applySeal s p k)

/-- SEAL (R292, R294). -/
def execSealStep (hop : SealHop) (src step : Nat) (s : State) : Res :=
  .next (sealArrive s hop.port hop.dst src hop.part (.decideSeal step) (fun s => sealIn s hop.part src step))

/-- SEAL_ACK (R292): the root writes SEALED and tells its children. -/
def execSealAck (hop : SealHop) (m : StepFrom) (s : State) : Res :=
  .next (sealArrive s hop.port hop.dst m.src hop.part (.sealAck m.step) (fun s =>
    match (getPart s hop.part).cur with
    | none => s
    | some k =>
      let x := getSeal s (sealKey hop.part k)
      if x.waitBackup && m.step = x.recStep then issueSeal s hop.part k else s))

/-- ABORT (R292, R294). -/
def execAbort (hop : SealHop) (src : Nat) (m : AbortMsg) (s : State) : Res :=
  .next (sealArrive s hop.port hop.dst src hop.part (.abort m.step m.reason) (fun s =>
    match (getPart s hop.part).cur with
    | none => s
    | some k => takeDecision s hop.part k m.step (.abort m.step m.reason) (fun s => applyAbort s hop.part k m.reason)))

/-- DECISION_ACK (R292): a child has the decision. -/
def execDecisionAck (hop : SealHop) (child step : Nat) (s : State) : Res :=
  .next (sealArrive s hop.port hop.dst child hop.part (.decAck step) (fun s =>
    match (getPart s hop.part).cur with
    | none => s
    | some k =>
      let x := getSeal s (sealKey hop.part k)
      let decided := if undecidedYet x then x.recStep - 1 else x.recStep
      if step = decided then modSeal s (sealKey hop.part k) (fun x => { x with unacked := x.unacked.filter (fun c => c != child) }) else s))

/-! ## Rejoining (R296, R297) -/

/-- What this module knows of a step: its record, or the last decision for an earlier step. -/
def knownDecision (x : SealSt) (step : Nat) : Decision :=
  if step = x.recStep then
    (match x.st with | .sealed => .sealed | .flipped => .sealed | .aborted => .aborted | _ => .undecided)
  else if decide (x.lastSeal = some step) then .sealed
  else if step < x.recStep then .aborted
  else .undecided

/-- The answer to a query (R296): for the step that it names, or the last one; with the epoch in force and the step that this module is at. -/
def queryIn (s : State) (p src : Nat) (step : Option Nat) : State :=
  match (getPart s p).cur with
  | none => s
  | some k =>
    let x := getSeal s (sealKey p k)
    if x.recBad then s
    else
      let n := step.getD x.recStep
      sealSend s p src (.answer n (knownDecision x n) (epochNow s p) x.recStep)

/-- DECISION_QUERY (R296). -/
def execDecisionQuery (hop : SealHop) (src : Nat) (step : Option Nat) (s : State) : Res :=
  .next (sealArrive s hop.port hop.dst src hop.part (.query step) (fun s => queryIn s hop.part src step))

/-- The peer that a copy comes from: the + neighbour in group dimension 0 of the lowest slot (R297). -/
def copyPeer (s : State) (p k : Nat) : Option Nat :=
  match (progSlots s p k).head? with
  | some i => (match getGrp s i with
      | some g => (grpDims g).head?.map (fun d => neighbourOf s (ownAddr s) d true)
      | none => none)
  | none => none

/-- The copy of the epoch in force begins (R297); a program without groups runs no step until it is loaded again. -/
def startCopy (s : State) (p k epoch : Nat) : State :=
  let key := sealKey p k
  match copyPeer s p k with
  | none => log (modSeal s key (fun x => { x with noPeer := true, rejoin := false, undecided := false })) { code := 0x70F, part := p }
  | some a =>
    let s1 := modRec s key (fun x => { x with copying := true, rejoin := false, undecided := false, recEpoch := epoch })
    sealSend s1 p a (.copyReq k epoch)

/-- A module without its record learns the step: decided, it copies the epoch in force; undecided, it fails the step and asks again (R296). -/
def answerLost (s : State) (p k step : Nat) (d : Decision) (epoch : Nat) : State :=
  let key := sealKey p k
  let s1 := modCurProg (modSeal s key (fun x => { x with recStep := step })) p (fun g => { g with stepNo := step })
  match d with
  | .undecided =>
    sealSend (modSeal s1 key (fun x => { x with undecided := true })) p (readyTo s1 (getSeal s1 key))
      (.ready { failReady step 0x705 (ownAddr s1) with count := 1 })
  | _ => startCopy s1 p k epoch

/-- The answer to this module's query (R296): `now` is the step that the answering module is at. -/
def answerIn (s : State) (p step : Nat) (d : Decision) (epoch now : Nat) : State :=
  match (getPart s p).cur with
  | none => s
  | some k =>
    let key := sealKey p k
    let x := getSeal s key
    if !(x.rejoin || x.undecided) then s
    else if x.recBad then answerLost (modSeal s key (fun x => { x with rejoin := false })) p k step d epoch
    else if step ≠ x.recStep then s
    else
      let s1 := modSeal s key (fun x => { x with rejoin := false, sitOut := if step < now then some now else none })
      match d, x.st with
      | .aborted, _ =>
        let w := freshWord s1
        applyAbort w.2 p k (w.1.toNat % 65536)
      | .sealed, .readySent => applySeal s1 p k
      | .sealed, .pendingSeal => applySeal s1 p k
      | .undecided, .none => sendFailed s1 p k 0x705 (ownAddr s)
      | _, _ => s1

/-- DECISION_ANSWER (R296). -/
def execDecisionAnswer (hop : SealHop) (src step : Nat) (m : DecisionMsg) (s : State) : Res :=
  .next (sealArrive s hop.port hop.dst src hop.part (.answer step m.decision m.epoch m.now)
    (fun s => answerIn s hop.part step m.decision m.epoch m.now))

/-- Scale Table entries of a program's groups in a bank, as the copy carries them: slots in order, 4 bytes each. -/
def copyEntries (s : State) (p k : Nat) : List Nat :=
  (progSlots s p k).flatMap (fun i => match getGrp s i with
    | some g => (List.range g.blocks).map (blockOf s g)
    | none => [])

/-- REJOIN_COPY_DONE (R297): the bank and the entries stand, residues are +0 in both banks, and the program goes on at that epoch. -/
def execRejoinCopyDone (p : Fin 16) (data : List Byte) (s : State) : Res :=
  match (getPart s p).cur, curProg s p with
  | some k, some g =>
    let key := sealKey p k
    let x := getSeal s key
    if !onDie s || !x.copying then .next s
    else
      let e := x.recEpoch
      let h := g.hdr.getD {}
      let n := 65536 * h.size
      let s1 := relWrite s p (if e % 2 = 0 then h.base0 else h.base1) (data.take n)
      let js := copyEntries s p k
      let s2 := js.zipIdx.foldl (fun s j => scalePut s (e % 2) j.1 (leAt data (n + 4 * j.2) 4)) s1
      let s3 := js.foldl (fun s j => residueWrite (residueWrite s j 0 (List.replicate 128 0)) j 1 (List.replicate 128 0)) s2
      let s4 := log (log s3 { code := 0x70D, part := p }) { code := 0x70C, part := p }
      let s5 := setReg (modCurProg s4 p (fun g => { g with epoch := e })) (R.GRX_EPOCH p) (BitVec.ofNat 64 e)
      let s6 := relWrite s5 p h.epochAddr (natLe e 8)
      .next (stepBoundary (modRec s6 key (fun x => { x with copying := false, recBad := false, st := .flipped })) p)
  | _, _ => .next s

/-- A program rejoins once its domain can be reached (R296): a root with a decided record uses its own, a module alone decides alone. -/
def rejoinProg (s : State) (p k : Nat) : State :=
  let key := sealKey p k
  let x := getSeal s key
  let ds := sealDims x.dims
  let a := ownAddr s
  if !x.rejoin then s
  else if ds.isEmpty then
    let s1 := modSeal s key (fun x => { x with rejoin := false })
    if x.recBad then startCopy s1 p k x.recEpoch
    else if x.st = .sealed then applySeal s1 p k
    else sendFailed s1 p k 0x705 a
  else if rootOf ds a = a && x.st = .sealed && !x.recBad then
    issueSeal (modSeal s key (fun x => { x with rejoin := false })) p k
  else sendQuery s p k

/-- Every partition's running program rejoins (R296). -/
def rejoinAll (s : State) : State :=
  (List.range 16).foldl (fun s p => match (getPart s p).cur with | some k => rejoinProg s p k | none => s) s

/-! ## Links change (R290, R292, R295) -/

/-- What a route change means for the seal of a partition: decisions again on the new route, lost children, a lost root, a lost backup. -/
def sealRelinkP (s : State) (p : Nat) : State :=
  match (getPart s p).cur with
  | none => s
  | some k =>
    let key := sealKey p k
    let x := getSeal s key
    let ds := sealDims x.dims
    let a := ownAddr s
    let step := if undecidedYet x then x.recStep - 1 else x.recStep
    let m : SealMsg := if x.outcome = 0 then .decideSeal step else .abort step x.outcome
    let s1 := x.unacked.foldl (fun s c => sealSend s p c m) s
    if ds.isEmpty || !(getPart s p).step.active || !undecidedYet x || x.recBad then s1
    else if x.waitBackup && !reach s (backupOf s ds a) then decideAbort s1 p k 0x707
    else if rootLost s x then backupTakes s1 p k
    else if (lostKids s x).isEmpty then s1
    else tryReady s1 p

def sealRelink (s : State) : State := (List.range 16).foldl sealRelinkP s

end Sys2Proof.Machine
end

