-- ==== Sys2Proof/Machine/Fabric.lean ====
section
/-! DEFINITION. Ports, links, routes, delivery, multicast and timed admission as messages arrive (R245 to R266). -/

namespace Sys2Proof.Machine

/-! ## Counters and acceptance -/

/-- Add to a field of FAB_PORT_ERR, modulo its width (R267). -/
def portErr (s : State) (n hi lo k : Nat) : State :=
  modReg s (R.FAB_PORT_ERR n) (fun w => setFld w hi lo ((fld w hi lo + k) % 2 ^ (hi + 1 - lo)))

/-- Links of the route from this module to another under a state: (module, dimension, +) in order. -/
def pathLinks (s : State) (dst : Nat) : Nat → Nat → List (Nat × Nat × Bool)
  | 0, _ => []
  | n + 1, a =>
    match routeDim a dst with
    | none => []
    | some d =>
      match dirTo s a dst d with
      | some plus => (a, d, plus) :: pathLinks s dst n (neighbourOf s a d plus)
      | none => []

/-! ## Timed admission (R260, R264) -/

/-- The hold of a timed sending stream. -/
def holdOf (s : State) (idx : Nat) : Option (Nat × Hold) :=
  s.fab.holds.find? (fun h => h.2.adm.src = ownAddr s && h.2.adm.srcStream = idx && h.2.fromPort.isNone)

/-- Every unfinished message of a stream is sent again, late (R264). -/
def lateSend (s : State) (idx : Nat) : State :=
  let late (f : Flight) : Flight := if f.fin then f else { f with late := true }
  let s1 := modRt s idx (fun r => { r with flights := r.flights.map late, pend := r.pend.map late })
  unitsOut s1 (getRt s1 idx).held

/-- Admit a stream again on the route of the moment; refused at once, its accepted messages go on over what links there are (R264). -/
def readmit (s : State) (idx : Nat) : State :=
  match admitStart s idx (entryOf s idx) with
  | (s1, .later) => s1
  | (s1, .done _ _) => lateSend s1 idx

/-- Is the path of a timed stream broken by a change from `a` to `b`. -/
def timedBroken (a b : State) (idx : Nat) : Bool :=
  match holdOf a idx with
  | some h =>
    h.2.committed && (!(portUp (getPort b h.1)) || !(getPort b h.1).timedOk ||
      (pathLinks a (entryOf a idx).peer 64 (ownAddr a)).any (fun l => linkBroken b l.1 l.2.1 l.2.2))
  | none => false

/-- TIMED_SUSPENDED: the entry stops accepting, the rest of its old path is released, and it is admitted again. -/
def suspend (s : State) (idx : Nat) : State :=
  let s1 := fabStream s 0x60A ((holdOf s idx).map Prod.fst) idx
  let s2 := match holdOf s1 idx with
    | some h => let s2 := dropHold s1 h; if portUp (getPort s2 h.1) then portTx s2 h.1 22 (.release h.2.adm) else s2
    | none => s1
  readmit (modRt s2 idx (fun r => { r with e2e := { r.e2e with suspended := true } })) idx

/-! ## Route changes (R255) -/

/-- Consequences of a change of the route state from `a` to `b`: streams that lose their peer hold and say so, timed paths are admitted
again, the others go on, and the seal resends. -/
def routeChange (a b : State) : State :=
  let xs := sendingStreams b
  let goes (s : State) (i : Nat) : Bool := (entryOf s i).mcast != 0xFFFF || (routePort s (entryOf s i).peer (entryOf s i).peerStream).isSome
  let back (s : State) (i : Nat) : State := modRt s i (fun r => { r with e2e := { r.e2e with told := false } })
  let s1 := xs.foldl (fun s i => if goes b i then back s i else if goes a i then peerLost s i else s) b
  let s2 := xs.foldl (fun s i => if timedBroken a b i then suspend s i else s) s1
  let s3 := xs.foldl (fun s i => if goes s i then sendAll s i else s) s2
  sealRelink s3

/-- Add a broken link; the notice spreads. -/
def noteBroken (s : State) (except : Option Nat) (l : Nat × Nat × Bool) : State :=
  if s.fab.broken.contains l then s
  else fabFlood { s with fab := { s.fab with broken := s.fab.broken ++ [l] } } except (.linkDown l.1 l.2.1 l.2.2)

/-- A broken link stands again; the notice spreads. -/
def noteWhole (s : State) (except : Option Nat) (l : Nat × Nat × Bool) : State :=
  if !s.fab.broken.contains l then s
  else fabFlood { s with fab := { s.fab with broken := s.fab.broken.filter (fun x => x != l) } } except (.linkUp l.1 l.2.1 l.2.2)

/-- Direction of a port. -/
def portLink (s : State) (n : Nat) : Nat × Nat × Bool := (ownAddr s, roleDim (roleOf s n), rolePlus (roleOf s n))

/-- The last link of a direction has gone: the module floods LINK_DOWN (R255). -/
def dirLost (s : State) (n : Nat) : State :=
  let l := portLink s n
  if roleOf s n = 0 || !(dirUp s l.2.1 l.2.2).isEmpty then s else noteBroken s none l

/-- A message that had not left port `n`, or stood unacknowledged on VC22 or VC23 (R253, R255): on the route of the moment; a reduction unit or a credit
by the other link of its direction; a multicast unit comes again end to end. -/
def resend (s : State) (n : Nat) (m : Msg) : State :=
  match m with
  | .unit u =>
    if u.mcast then s
    else if u.vc < 16 then
      match (dirUp s (roleDim (roleOf s n)) (rolePlus (roleOf s n))).head? with
      | some k => portTx s k u.vc m
      | none => grxBroken s u.vc
    else unitsOut s [u]
  | .gcredit _ _ _ _ => hopBack s n m
  | m => fabSend s m

/-- Slots of groups whose units stand unacknowledged in a port. -/
def lostGroups (p : Port) : List Nat := (List.range 16).filter (fun v => !(getVc p v).replay.isEmpty)

/-- Timed messages in flight on a port. -/
def timedLost (p : Port) : Nat :=
  [20, 21].foldl (fun a v => a + ((getVc p v).replay.filter (fun e => match e.2 with | .unit u => u.last | _ => false)).length) 0

/-- State in which a port waits: OFF without a role, DOWN while disabled, else TRAINING (R249, R267). -/
def restState (s : State) (n : Nat) : Nat :=
  if roleOf s n = 0 then 0 else if (getReg s (R.FAB_PORT_CTRL n)).getLsbD 0 || fabHeld s then 5 else 1

/-- This module's IDENT on a port (R249): LINK_CRYPT as it is in force. -/
def ownIdent (s : State) (n : Nat) : IdentMsg :=
  { addr := ownAddr s, role := roleOf s n, shape := s.tun.cur.shape, extents := s.tun.cur.extents
    crypt := (getPort s n).crypt, grade := s.part.grade }

/-- IDENT leaves as an attempt begins: in TRAINING, with the partner's signal present (R249). -/
def identGo (s : State) (n : Nat) : State :=
  let p := getPort s n
  if p.st = 1 && p.signal then emit s (.fab n (.ident (ownIdent s n))) else s

/-- Holds as port `n` leaves (R260, R264): one that sends there is released and refused back along its path, and one whose RESERVE came by it is
released on toward the destination. A stream's own first hop is the sending entry's affair. -/
def portHolds (s : State) (n : Nat) : State :=
  let s1 := (s.fab.holds.filter (fun h => h.1 = n && h.2.fromPort.isSome)).foldl (fun s h =>
    match h.2.fromPort with
    | some k => if portUp (getPort s k) then portTx (dropHold s h) k 22 (.refuse { h.2.adm with reason := 2 }) else dropHold s h
    | none => s) s
  (s1.fab.holds.filter (fun h => h.2.fromPort = some n)).foldl (fun s h =>
    if portUp (getPort s h.1) then portTx (dropHold s h) h.1 22 (.release h.2.adm) else dropHold s h) s1

/-- A port leaves the set that routes, and is `q` from then on (R255, R256): what `q` keeps of its replay buffer resumes when it trains; VC22 and VC23
messages and what had not left take another route; reduction units that are lost break their groups. IDENT leaves as an attempt begins. -/
def portLeave (s : State) (n : Nat) (q : Port) : State :=
  let p := getPort s n
  let again := [22, 23].flatMap (fun v => (getVc p v).replay.map Prod.snd) ++ (List.range 24).flatMap (fun v => (getVc p v).txq)
  let s1 := setPort s n q
  if !portUp p then identGo s1 n
  else
    let s2 := portHolds (portErr s1 n 63 48 (timedLost p)) n
    let s3 := again.foldl (fun s m => resend s n m) (dirLost s2 n)
    let s4 := ((lostGroups p).filter (fun v => (getVc q v).replay.isEmpty)).foldl grxBroken s3
    identGo (routeChange s s4) n

/-- A port goes down: its buffers are lost (R256, R424). -/
def portDown (s : State) (n st : Nat) (signal : Bool) : State :=
  let p := getPort s n
  portLeave s n { ({} : Port) with st := st, signal := signal, fails := p.fails, keyEpoch := p.keyEpoch, crypt := p.crypt }

/-- A port trains again with its replay and receive buffers kept (R256, R424). -/
def portRetrain (s : State) (n : Nat) : State :=
  let p := getPort s n
  portLeave s n { p with st := restState s n, identOk := false, lanes := 0, timedOk := false, slots := []
                         vcs := p.vcs.map (fun e => (e.1, { e.2 with txq := [] })) }

/-- Train a port again from the beginning. -/
def portTrain (s : State) (n : Nat) : State := portDown s n (restState s n) (getPort s n).signal

/-! ## Training (R249, R250) -/

/-- LINK_SIGNAL_DETECT (R249): a waiting port begins an attempt, and IDENT goes out. -/
def execLinkSignalDetect (port : Fin 12) (s : State) : Res :=
  if !onDie s then .next s
  else
    let s1 := modPort s port (fun p => { p with signal := true })
    .next (if (getPort s port).signal then s1 else identGo s1 port)

/-- The role that a neighbour's port must have: same dimension and link, the other sign. -/
def mirrorRole (r : Nat) : Nat := if r % 2 = 1 then r + 1 else r - 1

/-- Code of the IDENT check, 0 when it passes (R249 to R251, R265). -/
def identCode (s : State) (n : Nat) (m : IdentMsg) : Nat :=
  let r := roleOf s n
  if !addrOk s (ownAddr s) || m.addr ≠ roleNeighbour s r || m.role ≠ mirrorRole r || m.shape ≠ s.tun.cur.shape ||
      m.extents ≠ s.tun.cur.extents then 0x603
  else if m.crypt != (getPort s n).crypt then 0x605
  else 0

/-- Enter WIRING_ERROR. -/
def wiringError (s : State) (n code : Nat) : State := resetOver (fabLog (portDown s n 4 (getPort s n).signal) code n) 4 n

/-- IDENT (R249): the partner's identity is checked against this port's role. -/
def execIdent (port : Fin 12) (m : IdentMsg) (s : State) : Res :=
  let p := getPort s port
  if !onDie s || p.st ≠ 1 || !p.signal then .next s
  else
    let code := identCode s port m
    if code = 0 then .next (setPort s port { p with neighbour := m.addr, identOk := true })
    else .next (emit (wiringError s port code) (.fab port (.wiring code)))

/-- WIRING_NOTICE (R249): the partner has found an error, and both ends stop. -/
def execWiringNotice (port : Fin 12) (code : Nat) (s : State) : Res :=
  if onDie s && ((getPort s port).st = 1 || portUp (getPort s port)) then .next (wiringError s port code) else .next s

/-- TRAINING_ATTEMPT_FAIL (R249): the third within a second takes the port down. -/
def execTrainingAttemptFail (port : Fin 12) (s : State) : Res :=
  let p := getPort s port
  if !onDie s || p.st ≠ 1 || !p.signal then .next s
  else
    let f := p.fails.filter (fun t => decide (s.clk.time < t + 1000000000)) ++ [s.clk.time]
    if 3 ≤ f.length then .next (resetOver (fabLog (setPort s port { p with st := 5, fails := [], identOk := false }) 0x601 port) 4 port)
    else .next (identGo (setPort s port { p with fails := f, identOk := false }) port)

/-- PARTNER_LOST (R249): an UP port trains again and waits for a signal. -/
def execPartnerLost (port : Fin 12) (s : State) : Res :=
  if !onDie s then .next s
  else if portUp (getPort s port) then .next (portDown (fabLog s 0x601 port) port (restState s port) false)
  else .next (modPort s port (fun p => { p with signal := false, identOk := false }))

/-- A write of RETRAIN: LINK_CRYPT takes effect, and the port trains again with its replay buffer kept (R265, R424). -/
def retrainWrite (s : State) (n : Nat) : State :=
  portRetrain (modPort s n (fun p => { p with crypt := (getReg s (R.FAB_PORT_CTRL n)).getLsbD 2 })) n

/-- RETRAIN (R249, R267). -/
def execRetrain (fn : Fin 18) (port : Fin 12) (s : State) : Res :=
  if mayWrite s fn (R.FAB_PORT_CTRL port) then .next (retrainWrite s port) else .next s

/-- PORT_DISABLE (R267): a write of FAB_PORT_CTRL; DISABLE holds the port down, its release trains it. -/
def execPortDisable (fn : Fin 18) (port : Fin 12) (v : W64) (s : State) : Res :=
  let k := R.FAB_PORT_CTRL port
  if !mayWrite s fn k then .next s
  else
    let was := (getReg s k).getLsbD 0
    let s1 := setReg s k (at_ (b2n (v.getLsbD 0)) 0 ||| at_ (b2n (v.getLsbD 2)) 2)
    if was != v.getLsbD 0 then
      .next (portTrain (if v.getLsbD 1 then modPort s1 port (fun p => { p with crypt := v.getLsbD 2 }) else s1) port)
    else if v.getLsbD 1 then .next (retrainWrite s1 port) else .next s1

/-- FAB_MOD_ADDR_WRITE (R250): discarded while any port is UP. -/
def execFabModAddrWrite (fn : Fin 18) (v : W64) (s : State) : Res :=
  if !mayWrite s fn R.FAB_MOD_ADDR then .next s
  else if (List.range 12).any (fun n => portUp (getPort s n)) then .next (log s { code := 0x60C })
  else .next (setReg s R.FAB_MOD_ADDR (at_ (fld v 15 0) 0))

/-! ## Multicast acknowledgements (R258) -/

/-- Acknowledged sequences of a group's branches and its local stream, with the branch (15 for LOCAL). -/
def mcastSeqs (s : State) (g : Nat) : List (Nat × Nat) :=
  let r := mcastReg s g
  ((List.range 12).filter (fun n => r.getLsbD n)).map (fun n => (n, tget (fun _ => 0) s.fab.mcastAck (g * 16 + n))) ++
  (if r.getLsbD 12 then [(15, (entryOf s (fld r 39 20)).rxSeq)] else [])

/-- Least of them. -/
def mcastMin (s : State) (g : Nat) : Nat :=
  match mcastSeqs s g with | [] => 0 | x :: xs => xs.foldl (fun a e => min a e.2) x.2

/-- FAB_MCAST_LAG: the branch that trails most, and by how much. -/
def mcastLag (s : State) (g : Nat) : Nat × Nat :=
  let l := mcastSeqs s g
  let hi := l.foldl (fun a e => max a e.2) 0
  let lo := mcastMin s g
  (hi - lo, ((l.find? (fun e => e.2 = lo)).elim 0 Prod.fst))

/-- Sources of this module that send into a group. -/
def mcastSources (s : State) (g : Nat) : List Nat := (sendingStreams s).filter (fun i => (entryOf s i).mcast = g)

/-- Pass the least acknowledged sequence on: upstream, or to this module's own source. -/
def mcastUp (s : State) (g : Nat) : State :=
  let up := fld (mcastReg s g) 19 16
  if up < 12 then hopBack s up (.mcastAck g (mcastMin s g))
  else (mcastSources s g).foldl (fun s i => ackTake s i (mcastMin s g) 65536) s

/-! ## Units (R247, R253, R256, R257, R259) -/

/-- A multicast unit goes on once every branch and the local stream can take it; the acknowledgement of one that the local stream had before goes
upstream as the group's least (R258). -/
def mcastStep (s : State) (n : Nat) (u : LinkUnit) : Option State :=
  let g := u.dst % 128
  let loc := fld (mcastReg s g) 39 20
  let here := (mcastReg s g).getLsbD 12
  (mcastTry s (some (roleDim (roleOf s n))) n u).map (fun s1 =>
    if !here then s1 else if unitOld s loc u then mcastUp s1 g else wakeStep s1 loc)

/-- Take one unit off a receive buffer, when it can go: into the exchange engine, into a stream, to a multicast group, or on to the next port. -/
def tryUnit (s : State) (n v : Nat) (u : LinkUnit) : Option State :=
  let dim := some (roleDim (roleOf s n))
  if v < 16 then some (grxUnit s n u)
  else if u.mcast then mcastStep s n u
  else if u.dst = ownAddr s then
    (ctxUse s u.dstStream).map (fun s1 => wakeStep (deliverUnit s1 n u.dstStream u) u.dstStream)
  else match unitRoute s u with
    | none => some s
    | some m => if branchFree s dim v m then some (portTx s m (nextVc s v dim m) (.unit { u with vc := nextVc s v dim m })) else none

/-- Empty one receive buffer as far as its units can go; each that goes returns its credit. -/
def bufDrain : Nat → State → Nat → Nat → State
  | 0, s, _, _ => s
  | k + 1, s, n, v =>
    match (getVc (getPort s n) v).buf with
    | [] => s
    | u :: t =>
      match tryUnit s n v u with
      | none => s
      | some s1 => bufDrain k (modVc s1 n v (fun c => { c with buf := t, owed := c.owed + 1 })) n v

/-- Empty every receive buffer as far as it goes, and send what waits for the branches of multicast groups. -/
def bufPump (s : State) : State :=
  let s1 := s.fab.mcastQ.foldl (fun s e => mcastPump e.2.length s e.1) s
  eachPort s1 (fun s n => (List.range 24).foldl (fun s v => bufDrain (getVc (getPort s n) v).buf.length s n v) s)

/-- Send a NAK at once (R248, R256). -/
def sendNak (s : State) (n v : Nat) : State :=
  ctrlSend (modVc s n v (fun c => { c with nak := true })) n (some (v, (getVc (getPort s n) v).rxSeq))

/-- A good unit of a VC: the expected one is taken, an earlier one is a duplicate, a later one shows a loss. -/
def goodUnit (s : State) (n v : Nat) (u : LinkUnit) : State :=
  let c := getVc (getPort s n) v
  if u.lseq = c.rxSeq then
    bufDrain (c.buf.length + 1)
      (modVc s n v (fun c => { c with rxSeq := (c.rxSeq + 1) % 4096, nak := false, buf := c.buf ++ [u] })) n v
  else if c.nak || (u.lseq + 4096 - c.rxSeq) % 4096 ≥ 2048 then s
  else sendNak s n v

/-- A damaged unit: a NAK, but while one stands only for the unit that it asked for (R256). -/
def badUnit (s : State) (n v lseq : Nat) : State :=
  let c := getVc (getPort s n) v
  if c.nak && lseq ≠ c.rxSeq then s else sendNak s n v

/-- A unit arrives whole or damaged; on timed channels each unit comes twice and the first good copy counts (R259, R264). -/
def unitArrive (s : State) (n : Nat) (u : LinkUnit) (good : Bool) : State :=
  let v := u.vc
  let c := getVc (getPort s n) v
  if v = 20 || v = 21 then
    if !c.second then
      let s1 := modVc s n v (fun c => { c with second := true, firstOk := good })
      if good then goodUnit s1 n v u else s1
    else
      let s1 := modVc s n v (fun c => { c with second := false })
      if c.firstOk then s1
      else if good then goodUnit s1 n v u
      else portErr (badUnit s1 n v u.lseq) n 63 48 (b2n (!c.nak))
  else if good then goodUnit s n v u
  else if v < 24 then badUnit s n v u.lseq else s

/-- A unit on the wire of a port (R247, R256, R265): its LEN, CRC and tag are checked, its FEC counted (corrected and uncorrectable codewords). A good
one counts when `mine` says that this command carries it. -/
def landUnit (s : State) (n : Nat) (w : UnitWire) (fec : Nat × Nat) (mine : LinkUnit → Bool) : State :=
  if !portLive s n then s
  else match (if fec.2 = 0 then openUnit (getPort s n) w else none) with
    | some d => let u := headerUnit w.header d; if mine u then unitArrive (countUnit s n fec) n u true else s
    | none => unitArrive (countUnit s n fec) n (headerUnit w.header w.data) false

/-- Is a header a DATA unit's on a bulk or timed channel. -/
def isData (w : UnitWire) (u : LinkUnit) : Bool := headerType w.header = 0 && (u.vc = 16 || u.vc = 17 || u.vc = 20 || u.vc = 21)

/-- Is it a reduction unit's of a phase (R277). -/
def isPhase (w : UnitWire) (u : LinkUnit) (ph : Nat) : Bool := headerType w.header = 0 && decide (u.vc < 16) && bits u.eseq 15 14 = ph

/-- DATA_UNIT (R247, R256, R257). A damaged unit of any channel comes as one. -/
def execDataUnit (port : Fin 12) (w : UnitWire) (fec : Nat × Nat) (s : State) : Res := .next (landUnit s port w fec (isData w))

/-- MCAST_UNIT (R258). -/
def execMcastUnit (port : Fin 12) (w : UnitWire) (fec : Nat × Nat) (s : State) : Res :=
  .next (landUnit s port w fec (fun u => u.mcast && (u.vc = 16 || u.vc = 17)))

/-- G1_UNIT (R277, R279). -/
def execG1Unit (port : Fin 12) (w : UnitWire) (s : State) (fec : Nat × Nat := (0, 0)) : Res := .next (landUnit s port w fec (fun u => isPhase w u 0))

/-- REDUCE_SCATTER_UNIT (R277, R279). -/
def execReduceScatterUnit (port : Fin 12) (w : UnitWire) (s : State) (fec : Nat × Nat := (0, 0)) : Res := .next (landUnit s port w fec (fun u => isPhase w u 1))

/-- ALL_GATHER_UNIT (R281, R282). -/
def execAllGatherUnit (port : Fin 12) (w : UnitWire) (s : State) (fec : Nat × Nat := (0, 0)) : Res := .next (landUnit s port w fec (fun u => isPhase w u 2))

/-- FINGERPRINT_UNIT (R283). -/
def execFingerprintUnit (port : Fin 12) (header : BitVec 80) (data : List Byte) (crc : BitVec 32) (fec : Nat × Nat) (s : State) : Res :=
  let w : UnitWire := ⟨header, data, crc⟩
  .next (landUnit s port w fec (fun u => isPhase w u 3))

/-- IDLE_UNIT (R248): fills the link, and a damaged one leaves nothing to repeat. -/
def execIdleUnit (port : Fin 12) (fec : Nat × Nat) (s : State) : Res := .next (if portLive s port then countUnit s port fec else s)

/-! ## A port comes UP (R246, R249, R252) -/

/-- A channel as credits are granted anew: the dedicated units, less nothing, since what is unacknowledged leaves again first; units that could not be
drained stand in the shared pool (R252, R256, R311). -/
def vcFresh (v : Nat) (c : Vc) : Vc :=
  { c with
    credits := vcOwn v, lent := c.buf.length, owed := 0, nak := false, second := false
    txSeq := (c.txSeq + 4096 - c.replay.length % 4096) % 4096, txq := c.replay.map Prod.snd ++ c.txq, replay := [] }

/-- Buffers are drained, credits granted anew, and every VC resumes at its first unacknowledged unit (R256, R311). -/
def vcStart (s : State) (n : Nat) : State :=
  let s1 := bufPump s
  portPump ((List.range 24).foldl (fun s v => modVc s n v (vcFresh v)) s1) n

/-- A link key of 32 bytes: the manual gives no transcript of the agreement, and the key is a free value (log 126). -/
def freshKey (s : State) : List Byte × State :=
  let a := freshWord s
  let b := freshWord a.2
  let c := freshWord b.2
  let d := freshWord c.2
  (natLe a.1.toNat 8 ++ natLe b.1.toNat 8 ++ natLe c.1.toNat 8 ++ natLe d.1.toNat 8, d.2)

/-- The ends agree a link key of the next epoch, and count units anew (R265). -/
def agreeKey (s : State) (n : Nat) : State :=
  let k := freshKey s
  modPort k.2 n (fun p => { p with key := k.1, keyEpoch := p.keyEpoch + 1, txCtr := 0, rxCtr := 0 })

/-- PORT_UP (R246, R249, R252): training ends at 8 or 4 lanes with its propagation measured. -/
def execPortUp (port : Fin 12) (lanes propNs : Nat) (s : State) : Res :=
  let p := getPort s port
  if !onDie s || p.st ≠ 1 || !p.signal || !p.identOk || !(lanes = 8 || lanes = 4) then .next s
  else
    let s1 := setReg s (R.FAB_PORT_PROP port) (BitVec.ofNat 64 (propNs % 65536))
    let s2 := setPort s1 port { p with
      st := if lanes = 8 then 2 else 3, lanes := lanes, timedOk := lanes = 8 && decide (propNs ≤ 25), fails := [] }
    let s3 := if p.crypt then agreeKey s2 port else s2
    let s4 := if lanes = 4 then fabLog s3 0x602 port else s3
    let s5 := noteWhole (vcStart s4 port) none (portLink s port)
    .next (rejoinAll (routeChange s (resetOver s5 4 port)))

/-! ## CONTROL units (R248, R256) -/

/-- Units that a cumulative acknowledgement covers leave the replay buffer. -/
def ackVc (c : Vc) (ack : Nat) : Vc :=
  let left := c.replay.filter (fun e => decide ((ack + 4096 - e.1 - 1) % 4096 ≥ 2048))
  { c with replay := left, replays := if left.length = c.replay.length then c.replays else 0 }

/-- Replay a VC from a sequence number; the eighth replay of its oldest unit retrains the link (R256). -/
def replayVc (s : State) (n v seq : Nat) : State :=
  let c := getVc (getPort s n) v
  let out := c.replay.filter (fun e => decide ((e.1 + 4096 - seq) % 4096 < 2048))
  let s1 := portErr (modVc s n v (fun c => { c with replays := c.replays + 1 })) n 31 0 out.length
  if 8 ≤ c.replays + 1 then portRetrain (modVc (fabLog (portErr s1 n 47 32 1) 0x604 n) n v (fun c => { c with replays := 0 })) n
  else out.foldl (fun s e => wirePut s n v e.2) s1

/-- What a CONTROL unit says: acknowledgements and credits, then whatever may leave, then the NAK. -/
def ctrlTake (s : State) (n : Nat) (u : CtrlUnit) : State :=
  let s1 := (List.range 24).foldl (fun s v => modVc s n v (fun c =>
    let c1 := ackVc c (u.ack.getD v c.txSeq)
    { c1 with credits := min (vcMost v) (c1.credits + u.credit.getD v 0) })) s
  let s2 := portPump s1 n
  bufPump (match u.nak with | some k => replayVc s2 n k.1 k.2 | none => s2)

/-- CONTROL_UNIT (R248): a damaged one is lost. -/
def execControlUnit (port : Fin 12) (w : UnitWire) (fec : Nat × Nat) (s : State) : Res :=
  if !portLive s port then .next s
  else
    let s1 := countUnit s port fec
    match (if fec.2 = 0 then openUnit (getPort s port) w else none) with
    | some d => .next (if headerType w.header = 1 && d.length = 64 then ctrlTake s1 port (ctrlParse d) else s)
    | none => .next s1

/-- CONTROL_UNIT_SEND (R248): 125 unit times after the previous one. -/
def execControlUnitSend (port : Fin 12) (s : State) : Res :=
  if !portLive s port then .next s else .next (ctrlSend (bufPump s) port none)

/-! ## Notices (R255) -/

/-- LINK_DOWN: the notice spreads once. -/
def execLinkDown (port : Fin 12) (addr dim : Nat) (plus : Bool) (s : State) : Res :=
  if !portLive s port then .next s
  else
    let s1 := took s port 23
    .next (routeChange s (noteBroken s1 (some port) (addr, dim, plus)))

/-- LINK_UP. -/
def execLinkUp (port : Fin 12) (addr dim : Nat) (plus : Bool) (s : State) : Res :=
  if !portLive s port then .next s
  else
    let s1 := took s port 23
    .next (routeChange s (noteWhole s1 (some port) (addr, dim, plus)))

/-! ## End-to-end acknowledgements (R257, R258) -/

/-- A branch's acknowledgement of a multicast group. -/
def mcastAckIn (s : State) (n g seq : Nat) : State :=
  let k := g * 16 + n
  let old := mcastMin s g
  let s1 := { s with fab := { s.fab with mcastAck := tset (fun _ => 0) s.fab.mcastAck k (max seq (tget (fun _ => 0) s.fab.mcastAck k)) } }
  if old < mcastMin s1 g then mcastUp s1 g else s1

/-- E2E_ACK on VC18 or VC19 of a port: from a branch of a multicast group, or for a sending stream of module `dst`; another module's goes on (R253,
R257, R258). -/
def execE2eAck (via : AckVia) (stream seq free : Nat) (s : State) : Res :=
  let v := 18 + b2n via.up
  if !portLive s via.port then .next s
  else match via.group with
    | some g => .next (mcastAckIn (took s via.port v) via.port g seq)
    | none =>
      let h := hopIn s via.port v via.dst (.e2eAck via.dst stream seq free)
      .next (if h.2 then ackTake h.1 stream seq free else h.1)

/-- The group whose LOCAL_STREAM a stream is. -/
def localGroup (s : State) (idx : Nat) : Option Nat :=
  (List.range 128).find? (fun g => let r := mcastReg s g; r.getLsbD 63 && r.getLsbD 12 && fld r 39 20 = idx)

/-- E2E_ACK_SEND (R257, R307): a receiving stream acknowledges and advertises its free descriptors. -/
def execE2eAckSend (stream : Nat) (s : State) : Res :=
  let e := entryOf s stream
  if !onDie s || !eEnabled e || !eFabric e || eOut e || recovers s stream then .next s
  else match localGroup s stream with
    | some g => .next (mcastUp s g)
    | none => .next (ackSend s stream)

/-- FAB_E2E_TIMEOUT in nanoseconds, 10 microseconds at least (R267). -/
def e2eTimeout (s : State) : Nat := 1000 * (max 10 (fld (getReg s R.FAB_E2E_TIMEOUT) 23 0))

/-- Resend from the oldest unacknowledged unit. -/
def e2eFire (s : State) (idx : Nat) : State :=
  let s1 := fabStream s 0x60D none idx
  let s2 := modRt s1 idx (fun r => { r with e2e := { r.e2e with lastAdvance := some s.clk.time, held := none } })
  unitsOut s2 (getRt s idx).held

/-- FAB_E2E_RETRANSMIT (R257, R316): the acknowledgement has not advanced for the timeout. -/
def execFabE2eRetransmit (stream : Nat) (s : State) : Res :=
  let e := entryOf s stream
  let r := getRt s stream
  match r.e2e.lastAdvance with
  | none => .next s
  | some t =>
    if !onDie s || !eEnabled e || !eOut e || r.held.isEmpty || s.clk.time < t + e2eTimeout s then .next s
    else if s.clk.time < t + e2eTimeout s + 2000 then
      .next (modRt s stream (fun r => { r with e2e := { r.e2e with held := some s.clk.time } }))
    else .next (e2eFire s stream)

/-! ## Admission messages (R260, R261, R267) -/

/-- Send an admission message back by the port that RESERVE came by. -/
def admitBack (s : State) (port : Option Nat) (m : Msg) : State :=
  match port with | some n => portTx s n 22 m | none => s

/-- The receiving entry of an admission: enabled, KIND 4, without OUTBOUND. -/
def recvTimed (s : State) (idx : Nat) : Bool := let e := entryOf s idx; eEnabled e && e.kind = 4 && !eOut e

/-- RESERVE: the destination grants; a hop on the way holds slots and passes it on. -/
def execReserve (port : Option (Fin 12)) (m : AdmMsg) (s : State) : Res :=
  let from_ := port.map Fin.val
  if !onDie s then .next s
  else
    let s := match from_ with | some n => took s n 22 | none => s
    if m.dst = ownAddr s then
      (if recvTimed s m.dstStream then .next (admitBack s from_ (.grant m))
       else .next (admitBack s from_ (.refuse { m with reason := 4 })))
    else if 16 ≤ m.hops then .next (admitBack s from_ (.refuse { m with hops := m.hops + 1, reason := 3 }))
    else match slotPort s m.dst m.slots with
      | .inr r => .next (admitBack s from_ (.refuse { m with hops := m.hops + 1, reason := r }))
      | .inl n =>
        let m1 := { m with hops := m.hops + 1, crypt := m.crypt || (getPort s n).crypt }
        .next (portTx (holdSlots s n m.slots m1 from_) n 22 (.reserve m1))

/-- Commit a hold: it keeps the admission as GRANT brings it. -/
def commitHold (s : State) (h : Nat × Hold) (m : AdmMsg) : State :=
  { s with fab := { s.fab with holds := s.fab.holds.map (fun x => if x = h then (x.1, { x.2 with adm := m, committed := true, due := false }) else x) } }

/-- Is this admission the one of the CREATE under way. -/
def creating (s : State) (m : AdmMsg) : Bool :=
  match s.stm.cmd with | some k => k.op = 1 && k.idx = m.srcStream | none => false

/-- TIMED_RES as an admission writes it (R261). -/
def admitRes (e : StrEnt) (m : AdmMsg) : Nat := bits e.timedRes 6 5 * 32 + 256 * (m.res % 65536) + 128 + m.hops % 32

/-- GRANT at the source: the entry is enabled, or a suspended stream goes on. -/
def grantHere (s : State) (m : AdmMsg) : State :=
  let idx := m.srcStream
  if creating s m then
    match s.stm.cmd with
    | some k =>
      let e := freshEntry (createImage s k.fn (strPart s idx) k.image)
      let r := installEntry (admitStatus s 0 0 0) idx { e with timedRes := admitRes e m }
      let s1 := modRt r.1 idx (fun x => { x with e2e := { x.e2e with crypt := m.crypt } })
      (match r.2 with | .done c g => cmdFinish s1 c g | .later => s1)
    | none => s
  else if (getRt s idx).e2e.suspended then
    let s1 := modEntry s idx (fun e => { e with timedRes := admitRes e m })
    let s2 := modRt s1 idx (fun r => { r with e2e := { r.e2e with suspended := false, crypt := m.crypt } })
    sendAll (lateSend s2 idx) idx
  else s

/-- GRANT (R260): each hop commits its hold. -/
def execGrant (port : Option (Fin 12)) (m : AdmMsg) (s : State) : Res :=
  if !onDie s then .next s
  else
    let s := match port with | some n => took s n 22 | none => s
    match findHold s m with
    | none => .next s
    | some h =>
      let s1 := commitHold s h m
      if m.src = ownAddr s then .next (grantHere s1 m) else .next (admitBack s1 h.2.fromPort (.grant m))

/-- A refused admission at its source: CREATE is refused; a suspended stream stays so, and its accepted messages go on (R260, R264). -/
def refuseHere (s : State) (m : AdmMsg) : State :=
  let s1 := admitStatus s 0x608 m.hops m.reason
  if creating s m then cmdFinish s1 0x608 0
  else if (getRt s1 m.srcStream).e2e.suspended then lateSend s1 m.srcStream else s1

/-- REFUSE (R260): each hop releases its hold. One that comes for an admitted stream says that its path has broken (R264, log 130). -/
def execRefuse (port : Option (Fin 12)) (m : AdmMsg) (s : State) : Res :=
  if !onDie s then .next s
  else
    let s := match port with | some n => took s n 22 | none => s
    match findHold s m with
    | none => .next s
    | some h =>
      let s1 := dropHold s h
      if m.src = ownAddr s then .next (if h.2.committed then suspend s1 m.srcStream else refuseHere s1 m) else .next (admitBack s1 h.2.fromPort (.refuse m))

/-- RELEASE (R260): along the path, each hop frees its slots. -/
def execRelease (port : Option (Fin 12)) (m : AdmMsg) (s : State) : Res :=
  if !onDie s then .next s
  else
    let s := match port with | some n => took s n 22 | none => s
    match findHold s m with
    | none => .next s
    | some h => .next (portTx (dropHold s h) h.1 22 (.release m))

/-- The oldest hold of a port that is not committed. -/
def openHold (s : State) (n : Nat) : Option (Nat × Hold) := s.fab.holds.find? (fun h => h.1 = n && !h.2.committed)

/-- A hold's time has run out: its slots are free, and REFUSE goes back; at the source the admission has failed (R260, R267, R316). -/
def holdFire (s : State) (h : Nat × Hold) : State :=
  let s1 := dropHold s h
  let m := { h.2.adm with reason := 6 }
  if m.src = ownAddr s then refuseHere s1 m else admitBack s1 h.2.fromPort (.refuse m)

/-- ADMISSION_HOLD_TIMEOUT (R260, R316). -/
def execAdmissionHoldTimeout (port : Fin 12) (s : State) : Res :=
  match openHold s port with
  | none => .next s
  | some h =>
    if !onDie s || s.clk.time < h.2.start + 1000000 then .next s
    else if s.clk.time < h.2.start + 1002000 then
      .next { s with fab := { s.fab with holds := s.fab.holds.map (fun x => if x = h then (x.1, { x.2 with due := true }) else x) } }
    else .next (holdFire s h)

/-- TIMEOUT_HOLD_END (R315, R316): the 2,000 ns after a deadline are over and nothing has withdrawn the effect. Kind 0 is a stream's
retransmission, 1 a partition's deadlock detector, 2 its step watchdog, 3 an admission hold of a port. -/
def execTimeoutHoldEnd (kind idx : Nat) (s : State) : Res :=
  let now := s.clk.time
  if !onDie s then .next s
  else if kind = 0 then
    (match (getRt s idx).e2e.lastAdvance with
      | some t => if (getRt s idx).e2e.held.isSome && decide (t + e2eTimeout s + 2000 ≤ now) then .next (e2eFire s idx) else .next s
      | none => .next s)
  else if kind = 1 then
    (match (getPart s idx).step.deadT0 with
      | some t => if (getPart s idx).step.dlHeld && decide (t + 2002000 ≤ now) then .next (deadFire s idx) else .next s
      | none => .next s)
  else if kind = 2 then
    (match watchEnd s idx with
      | some t => if stepOpen (getPart s idx).step && (getPart s idx).step.wdHeld && decide (t + 2000 ≤ now) then .next (watchFire s idx) else .next s
      | none => .next s)
  else match openHold s idx with
    | some h => if h.2.due && decide (h.2.start + 1002000 ≤ now) then .next (holdFire s h) else .next s
    | none => .next s

/-- LINK_REKEY (R265): after 2^40 units of either direction the ports agree a new key, and traffic does not stop. -/
def execLinkRekey (port : Fin 12) (s : State) : Res :=
  let p := getPort s port
  if !portLive s port || !p.crypt || (decide (p.txCtr < 2 ^ 40) && decide (p.rxCtr < 2 ^ 40)) then .next s
  else .next (agreeKey (portTx s port 23 (.rekey (p.keyEpoch + 1))) port)

end Sys2Proof.Machine
end

