-- ==== Sys2Proof/Machine/Clocks.lean ====
section
/-! DEFINITION. Zones, TIME and crossings (R319 to R336). -/

namespace Sys2Proof.Machine

/-- ARR maximum of a cooling class (R42, R350). -/
def classMax (c : Nat) : Nat := if c = 0 then 700 else 850

/-- CLK_ZONE_CAP_z: the class maximum until the power controller writes it (R338). -/
def zoneCap (s : State) (z : Nat) : Nat :=
  let v := (getReg s (R.CLK_ZONE_CAP z)).toNat
  if v = 0 then classMax s.tun.cur.cooling else v

/-- ZONE_SETPOINT in force. -/
def setpoint (s : State) (z : Nat) : Nat := s.tun.cur.setpoint.getD z 0

/-- F_max of a zone (R321). -/
def fMax (s : State) (z : Nat) : Nat := min (setpoint s z) (min (classMax s.tun.cur.cooling) (zoneCap s z))

/-- The target as the ceiling holds it. -/
def target (s : State) (z : Nat) : Nat := max 300 (min (getZone s z).target (fMax s z))

/-- Log an event of a zone: ZONE of CLK_FAULT (R338). -/
def clkLog (s : State) (code z : Nat) : State := log s { code := code, loc := z, payload := 2 ^ 38 * (z % 16) }

/-- The same, for a code that is limited to once per zone per 1,000,000,000 ns (R400). -/
def clkMerged (s : State) (code z : Nat) : State := logMerged s { code := code, loc := z, payload := 2 ^ 38 * (z % 16) } 1000000000

/-- Flash key of a table entry. -/
def voltKey (cls z f : Nat) : Nat := 1024 * (cls * 16 + z) + f
def getVolt (s : State) (cls z f : Nat) : Nat := (tget (fun _ => none) s.flash.volts (voltKey cls z f)).getD (Config.factoryMv cls z f)
def setVolt (s : State) (cls z f v : Nat) : State :=
  { s with flash := { s.flash with volts := tset (fun _ => none) s.flash.volts (voltKey cls z f) (some v) } }

/-- The rail voltage that a zone needs at a frequency, by the table of the class in force (R350). -/
def zoneMv (s : State) (z f : Nat) : Nat := getVolt s s.tun.cur.cooling z f

/-- The rail slews toward `v` by at most 10 mV (R350). -/
def slewMv (mv v : Nat) : Nat := if mv < v then min v (mv + 10) else max v (mv - 10)

/-! ## Margins and stretches (R322 to R324) -/

/-- Count a margin evaluation in CLK_ZONE_MARGIN_z: WORST with its monitor, and saturating counts (R338). -/
def noteMargin (s : State) (z monitor code : Nat) : State :=
  modReg s (R.CLK_ZONE_MARGIN z) (fun w =>
    let w1 := if code < fld w 5 0 then setFld (setFld w 5 0 code) 12 8 (monitor % 32) else w
    let w2 := if code ≤ 4 then setFld w1 47 32 (satAt 65535 (fld w 47 32 + 1)) else w1
    if 4 < code && code ≤ 8 then setFld w2 31 16 (satAt 65535 (fld w 31 16 + 1)) else w2)

/-- ZONE_STRETCH (R322, R323): the worst monitor of a cycle reports its code; WARN withholds one VCO cycle, ALERT two. -/
def execZoneStretch (z : Fin 16) (monitor code : Nat) (s : State) : Res :=
  if !onDie s then .next s
  else
    let k := if code ≤ 4 then 2 else if code ≤ 8 then 1 else 0
    let s1 := noteMargin s z monitor (code % 64)
    let s2 := modReg s1 (R.CLK_ZONE_STRETCH z) (fun w =>
      if k = 0 then w else setFld (setFld w 31 0 ((fld w 31 0 + k) % 2 ^ 32)) 63 32 ((fld w 63 32 + 1) % 2 ^ 32))
    let s3 := modZone s2 z (fun x => { x with
      alert := x.alert || decide (code ≤ 4), warn := x.warn || decide (code < 16), stretched := x.stretched + k, owed := x.owed + 1000 * k })
    .next (if code ≤ 4 then clkMerged s3 0x203 z else s3)

/-- A new target below F_max is reported at most once a second. -/
def heldLog (s : State) (z : Nat) : State :=
  if (getZone s z).target < fMax s z then clkMerged s 0x204 z else s

/-- SLOW_LOOP (R324): the target falls after an ALERT or many stretches, rises after ten quiet intervals, or stays. -/
def execSlowLoop (z : Fin 16) (s : State) : Res :=
  let x := getZone s z
  if !onDie s || x.bypass then .next s
  else
    let t := target s z
    let down := x.alert || decide (80 * x.applied < 256 * x.stretched)
    let quiet := x.stretched = 0 && !x.warn
    let good := if quiet then x.good + 1 else 0
    let up := !down && decide (10 ≤ good)
    let t1 := if down then max 300 (t - 10) else if up then min (max 300 (fMax s z)) (t + 10) else t
    let s1 := modZone s z (fun x => { x with target := t1, alert := false, warn := false, stretched := 0, good := good })
    let s2 := if t1 < t then heldLog s1 z else s1
    .next (if x.alert && t = 300 then clkLog s2 0x205 z else s2)

/-- One slew of a zone whose generator follows its target `t`: the voltage of the next frequency is reached before the frequency rises, and follows it when
it falls (R321, R350). -/
def slewZone (s : State) (z t : Nat) (x : ZoneSt) : ZoneSt :=
  if x.applied < t then
    let f := min t (x.applied + 10)
    let mv := slewMv x.mv (zoneMv s z f)
    { x with target := t, mv := mv, applied := if zoneMv s z f ≤ mv then f else x.applied }
  else
    let f := max t (x.applied - 10)
    { x with target := t, mv := slewMv x.mv (zoneMv s z f), applied := f }

/-- ZONE_SLEW_STEP (R321, R325, R350): the applied frequency moves by at most 10 MHz toward the target, and the rail by at most 10 mV; without the
reference the frequency stays, and in BYPASS the rail takes the voltage of the 430 MHz entry. -/
def execZoneSlewStep (z : Fin 16) (s : State) : Res :=
  let x := getZone s z
  if !onDie s then .next s
  else if x.bypass then .next (modZone s z (fun x => { x with mv := slewMv x.mv (zoneMv s z 430) }))
  else if !x.locked || !s.clk.refOk then .next s
  else .next (modZone s z (slewZone s z (target s z)))

/-- ZONE_LOCK_LOST (R325): the zone runs at 425 MHz from the fixed generator. -/
def execZoneLockLost (z : Fin 16) (s : State) : Res :=
  if !onDie s || !(getZone s z).locked then .next s
  else .next (clkLog (modZone s z (fun x => { x with locked := false, bypass := true, applied := 425 })) 0x202 z)

/-- RELOCK (R325, R338): a zone in BYPASS restarts at its target, with the rail high enough for it (log 139). -/
def execRelock (fn : Fin 18) (z : Fin 16) (s : State) : Res :=
  if !mayWrite s fn (R.CLK_ZONE_CTRL z) || !(getZone s z).bypass then .next s
  else .next (modZone s z (fun x => { x with locked := true, bypass := false, target := target s z, applied := target s z, mv := max x.mv (zoneMv s z (target s z)) }))

/-- REF_LOST (R325): generators hold their last frequency. -/
def execRefLost (s : State) : Res :=
  if !onDie s || !s.clk.refOk then .next { s with clk := { s.clk with refOk := false } }
  else .next (clkLog { s with clk := { s.clk with refOk := false } } 0x201 0)

/-! ## TIME (R332 to R334) -/

/-- Distance between epoch pulses. -/
def epochNs : Nat := 1048576

/-- CLK_SYNC_DELAY. -/
def syncDelay (s : State) : Nat := fld (getReg s R.CLK_SYNC_DELAY) 15 0

/-- Messages are current: one within the last two intervals (log 34). -/
def msgsCurrent (s : State) : Bool := match s.clk.lastMsg with | some t => decide (s.clk.time < t + 2000000) | none => false

/-- Offset of local TIME from the nearest marked value plus the delay. -/
def pulseOffset (s : State) : Int :=
  let t : Int := (s.clk.time : Int) - (syncDelay s : Int)
  let n : Int := (t + (epochNs / 2 : Nat)) / (epochNs : Int)
  t - n * (epochNs : Int)

/-- A correction: OFFSET shows `o`, and TIME is `ahead` ns too far, to be slewed out (R334). -/
def correct (s : State) (o ahead : Int) : State := { s with clk := { s.clk with debt := ahead, offset := o } }

/-- An epoch pulse reaches TIME (R333, R334). A pulse is no correction while messages are current and it lies far off, nor while the reference is
lost, when messages alone keep the alignment (R325, log 135). -/
def epochPulse (s : State) : State :=
  let s1 := { s with clk := { s.clk with lastPulse := some s.clk.time, missed := 0 } }
  match s.clk.tst with
  | .free => s1
  | .seeded =>
    let t := s.clk.seed + syncDelay s
    clkLog { s1 with clk := { s1.clk with time := t, tst := .locked, debt := 0, lastPulse := some t } } 0x208 0
  | .locked =>
    let o := pulseOffset s
    if !s.clk.refOk || (msgsCurrent s && decide (1000 < o.natAbs)) then s1 else correct s1 o o

/-- EPOCH_PULSE: on SYNC_IN (R333). -/
def execEpochPulse (s : State) : Res :=
  if !onDie s then .next s
  else .next (epochPulse { s with clk := { s.clk with aux := false } })

/-- SYNC_IN_MISSED (R333): after two missed pulses the source is GPX0, when TIME_SYNC_AUX owns it. -/
def execSyncInMissed (s : State) : Res :=
  if !onDie s then .next s
  else
    let n := s.clk.missed + 1
    .next { s with clk := { s.clk with missed := n, aux := s.clk.aux || (decide (2 ≤ n) && ownedBy s 0 1) } }

/-- SYNC_OUT_PULSE (R333): a MASTER drives SYNC_OUT at each multiple; pin 2 of the trace. -/
def execSyncOutPulse (s : State) : Res :=
  if onDie s && (getReg s R.CLK_TIME_CTRL).getLsbD 0 then .next (emit (emit s (.pin 2 true)) (.pin 2 false)) else .next s

/-- CLK_TIME_SEED_WRITE (R333, R338): discarded while LOCKED. -/
def execClkTimeSeedWrite (fn : Fin 18) (v : W64) (s : State) : Res :=
  if !mayWrite s fn R.CLK_TIME_SEED || s.clk.tst = .locked then .next s
  else .next { s with clk := { s.clk with tst := .seeded, seed := v.toNat } }

/-- Used dimensions of the fabric. -/
def usedDims (s : State) : List Nat := (List.range 4).filter (fun d => extentOf s d != 1)

/-- The direction of the TIME parent: the rule of R289 over the used dimensions, with root 0. -/
def timeParent (s : State) : Option (Nat × Bool) :=
  match (usedDims s).find? (fun d => coordOf (ownAddr s) d != 0) with
  | some d => some (d, decide (extentOf s d / 2 < coordOf (ownAddr s) d))
  | none => none

/-- TIME_MESSAGE_SEND (R334): toward the parent on VC22, stamped t1. -/
def execTimeMessageSend (s : State) : Res :=
  if !onDie s || !(getReg s R.CLK_TIME_CTRL).getLsbD 1 then .next s
  else match timeParent s with
    | none => .next s
    | some d =>
      match (dirUp s d.1 d.2).head? with
      | some n => .next (portTx s n 22 (.time s.clk.time none))
      | none => .next s

/-- Offset of an exchange (R334): sent at t1, at the parent at t2, answered at t3, here at t4, with FAB_PORT_PROP of both directions taken out. It is
what TIME is behind the parent (log 136). -/
def msgOffset (t1 t4 prop : Nat) (b : TimeBack) : Int := (((b.t2 : Int) - t1 - prop) - ((t4 : Int) - b.t3 - b.prop)) / 2

/-- FAB_PORT_PROP of a port. -/
def portProp (s : State) (n : Nat) : Nat := fld (getReg s (R.FAB_PORT_PROP n)) 15 0

/-- The parent's answer (R333, R334): the first one seeds a free TIME with the next epoch, later ones slew a locked one. -/
def timeAnswer (s : State) (n t1 : Nat) (b : TimeBack) : State :=
  let s1 := { s with clk := { s.clk with lastMsg := some s.clk.time } }
  match s.clk.tst with
  | .free => { s1 with clk := { s1.clk with tst := .seeded, seed := (b.t3 / epochNs + 1) * epochNs } }
  | .seeded => s1
  | .locked =>
    let o := msgOffset t1 s.clk.time (portProp s n) b
    let k := if 20 < o.natAbs then s.clk.bigMsgs + 1 else 0
    let s2 := correct { s1 with clk := { s1.clk with bigMsgs := k } } o (-o)
    if k = 10 then clkLog { s2 with clk := { s2.clk with unaligned := true } } 0x206 0 else s2

/-- TIME_MESSAGE (R333, R334): a child's message, which carries `t1` alone, is stamped and answered; the parent's answer brings its stamps and the
propagation that it measured, and corrects TIME. -/
def execTimeMessage (port : Fin 12) (t1 : Nat) (t2 : Option Nat) (t3 prop : Nat) (s : State) : Res :=
  if !portLive s port then .next s
  else
    let s1 := took s port 22
    if !(getReg s R.CLK_TIME_CTRL).getLsbD 1 then .next s1
    else match t2 with
      | none => .next (portTx s1 port 22 (.time t1 (some ⟨s.clk.time, s.clk.time, portProp s port⟩)))
      | some t2 =>
        match timeParent s with
        | some d => .next (if (dirUp s d.1 d.2).contains port.val then timeAnswer s1 port t1 ⟨t2, t3, prop⟩ else s1)
        | none => .next s1

/-- CLK_SYNC_LOST (R334): neither a pulse nor a message for 10,000,000 ns. -/
def execClkSyncLost (s : State) : Res :=
  let gone (t : Option Nat) : Bool := match t with | some t => decide (t + 10000000 ≤ s.clk.time) | none => true
  if onDie s && s.clk.tst = .locked && gone s.clk.lastPulse && gone s.clk.lastMsg then .next (clkLog s 0x207 0) else .next s

/-- A tick of 4 ns of one zone, in thousandths of its VCO cycles: what a stretch withholds does not count (R319, R323, R338). -/
def zoneTick (x : ZoneSt) : ZoneSt :=
  let n := 32 * x.applied
  { x with cyc := x.cyc + (n - x.owed), owed := x.owed - n }

/-- One tick of TIME (R332, R334): 4 ns, or 3 or 5 on at most one tick in 16 while an offset is slewed out; the zones' cycles count. -/
def timeTick (s : State) : State :=
  let c : ClkSt := { s.clk with zones := s.clk.zones.map (fun e => (e.1, zoneTick e.2)) }
  if 15 ≤ c.slewWait && decide (c.debt ≠ 0) then
    let d : Int := if 0 < c.debt then 1 else -1
    { s with clk := { c with time := if 0 < c.debt then c.time + 3 else c.time + 5, debt := c.debt - d, slewWait := 0 } }
  else { s with clk := { c with time := c.time + 4, slewWait := c.slewWait + 1 } }

/-! ## Reset boundaries (R335, R336) -/

/-- Set FLUSH on a boundary and report it: 0 to 255 a core's port, 256 to 267 a fabric port's attach, 512 and up a core's String links
(log 35). -/
def flushSet (s : State) (b : Nat) : State :=
  let s1 := { s with clk := { s.clk with bounds := tset (fun _ => false) s.clk.bounds b true } }
  clkLog (modReg s1 R.CLK_FLUSH_COUNT (fun w => setFld w 31 0 ((fld w 31 0 + 1) % 2 ^ 32))) 0x209 0

/-- FLUSH_COMPLETE (R336): the released side has emptied its FIFOs and set its credits, and the boundary opens. -/
def execFlushComplete (b : Nat) (s : State) : Res :=
  if !onDie s || !(tget (fun _ => false) s.clk.bounds b) then .next s
  else
    let s1 := { s with clk := { s.clk with bounds := tset (fun _ => false) s.clk.bounds b false } }
    let bound (i : Nat) : Bool := tget (fun _ => false) s1.clk.bounds i
    if 256 ≤ b && b < 268 then .next (vcStart s1 (b - 256))
    else .next (if bound (b % 512) || bound (b % 512 + 512) then s1 else resetOver s1 3 (b % 512))

end Sys2Proof.Machine
end

