-- ==== Sys2Proof/Machine/Transfer.lean ====
section
/-! DEFINITION. The X slot: FETCH, PUT, POP, LMOVE, ATOM, and the events that end their requests (R169, R172, R174, R177, R205, R225, R236). -/

namespace Sys2Proof.Machine

/-! ## Queues -/

/-- Bytes into a fetch queue's ring at ring offset `o` of the running tenant. -/
def ringPut (k : Core) (f : FQ) (o : Nat) (bs : List Byte) : Core :=
  { k with store := bs.zipIdx.foldl (fun m b => memSet m (ringAddr k f (o + b.2)) b.1) k.store }

/-- Change request `id` of a fetch queue. -/
def modFReq (s : State) (c q id : Nat) (g : FReq → FReq) : State :=
  modCore s c (fun k => setFq k q { fqOf k q with reqs := (fqOf k q).reqs.map (fun r => if r.id = id then g r else r) })

/-- A new request of a put queue. -/
def pushPut (s : State) (c q len : Nat) (dst : PutDst) (waiting : Bool) (bs : List Byte) : State :=
  modCore s c (fun k =>
    let p := pqOf k q
    setPq k q { nextId := p.nextId + 1, reqs := p.reqs ++ [⟨p.nextId, len, dst, waiting, bs⟩] })

/-- A stream that a core of partition `p` may fetch from, or put to (R236). -/
def coreStream (s : State) (p idx : Nat) (put : Bool) : Bool :=
  let e := entryOf s idx
  decide (partOfIdx s idx = some p) && eEnabled e && (if put then eCoreProd e else eCoreCons e)

/-! ## FETCH (R172, R174, R177, R236) -/

/-- A fetch from checked pieces of the stack. -/
def fetchSas (s : State) (c q len : Nat) (r : XRes) : State :=
  match r with
  | .fault code => coreFault s c .x code
  | .sas l =>
    let f := fqOf (getCore s c) q
    if !fqRoom f len then hold s c 3
    else retire (sendReads (modCore s c (fun k => setFq k q (fqPush f len none))) c q f.nextId l 0) c .x

/-- A fetch from a stream: it waits at the core while no context can be had (R242). -/
def fetchStream (s : State) (c q p idx len : Nat) : State :=
  if !coreStream s p idx false then coreFault s c .x 0xA04
  else
    let f := fqOf (getCore s c) q
    if !fqRoom f len then hold s c 3
    else match ctxUse s idx with
      | none => hold (ctxWant s) c 3
      | some s1 => retire (modCore s1 c (fun k => setFq k q (fqPush f len (some idx)))) c .x

/-- A length that FETCH accepts: 32 B to 64 KiB in multiples of 32 B. -/
def fetchLen (len : Nat) : Bool := decide (32 ≤ len) && decide (len ≤ 65536) && len % 32 = 0

/-- FETCH. The misuses of R174 come before the refusals of R170. -/
def execFetch (c : Fin 256) (q : Fin 16) (src : XEnd) (len : Opnd) (s : State) : Res :=
  onUnit s c .x (.fetch q src len) (fun s =>
    let k := getCore s c
    let f := fqOf k q
    let p := (partOfCore s c).getD 16
    let n := opnd k len
    if f.remote.isSome || decide (f.size < round32 n) then coreFault s c .x 0xA04
    else if !fetchLen n then coreFault s c .x 0xA01
    else match src with
      | .mem a => fetchSas s c q n (memEnd s p (opnd k a) n false)
      | .stash w o => fetchSas s c q n (stashForm s p w (opnd k o) n false)
      | .stream idx => fetchStream s c q p idx n
      | .remote _ _ => coreFault s c .x 0xA01)

/-- Bytes of a stream land in the ring; without a journal the request is arrived at once, else after the journal write (R236, R307). -/
def streamLand (s : State) (c q idx : Nat) (r : FReq) : State :=
  let x := streamTake s idx r.len
  let s1 := modCore x.2.2 c (fun k => ringPut k (fqOf k q) r.off x.1)
  if x.2.1 then coreFault (finished s1 idx) c .x 0x803
  else if eJournal (entryOf s1 idx) then
    jrnWrite (modRt s1 idx (fun t => { t with cons := t.cons ++ [(c, q, r.id)] })) idx
  else finished (modFReq s1 c q r.id (fun r => { r with arrived := true })) idx

/-- FETCH_ARRIVED (R172, R178, R196, R236): nothing reaches a faulted core; the oldest request that has not arrived has all its bytes; poison faults the core. -/
def execFetchArrived (c : Fin 256) (q : Fin 16) (s : State) : Res :=
  if !onDie s || isFused s c || coreFaulted s c then .next s else
  match (fqOf (getCore s c) q).reqs.find? (fun r => !r.arrived) with
  | none => .next s
  | some r =>
    match r.stream with
    | none =>
      if r.got ≠ r.len then .next s
      else match r.poison with
        | some code => .next (coreFault s c .x code)
        | none => .next (modFReq s c q r.id (fun r => { r with arrived := true }))
    | some idx =>
      if (getRt s idx).jrn.writing || (getRt s idx).cons.contains (c.val, q.val, r.id) || decide (streamAvail s idx < r.len) then .next s
      else .next (resultRetry (streamLand s c q idx r) idx)

/-! ## PUT (R172, R174, R177, R182, R195, R236) -/

/-- What stands in the way of a put, or nothing: the fences and misuses of its destination (R174, R177, R182, R236). -/
def putFault (s : State) (c p n : Nat) (dst : XEnd) : Option Nat :=
  let k := getCore s c
  match dst with
  | .mem a => match memEnd s p (opnd k a) n true with | .fault code => some code | .sas _ => none
  | .stash w o => match stashForm s p w (opnd k o) n true with | .fault code => some code | .sas _ => none
  | .stream idx => if coreStream s p idx true then none else some 0xA04
  | .remote v rq =>
    match vcoreAt s p v with
    | none => some 0xA07
    | some d =>
      let f := fqOf (getCore s d.phys) rq
      if !sameUnit s p ((vcoreOf s c).getD 256) v then some 0xA07
      else if f.remote ≠ vcoreOf s c || decide (f.size < round32 n) then some 0xA04
      else none

/-- Send a put whose destination stands: packets to the stack, a stream's next descriptor, or a REMOTE queue once its ring has room (R172). -/
def putGo (s : State) (c q p : Nat) (dst : XEnd) (bs : List Byte) : State :=
  let k := getCore s c
  let id := (pqOf k q).nextId
  let sas (r : XRes) : State := match r with
    | .sas l => sendWrites (pushPut s c q bs.length .mesh false []) c q id l bs
    | .fault _ => s
  match dst with
  | .mem a => sas (memEnd s p (opnd k a) bs.length true)
  | .stash w o => sas (stashForm s p w (opnd k o) bs.length true)
  | .stream idx => pushPut s c q bs.length (.stream idx) false bs
  | .remote v rq =>
    match vcoreAt s p v with
    | some d => wakeRemote 64 (pushPut s c q bs.length (.remote d.phys rq) true bs) d.phys rq
    | none => s

/-- PUT (R172, R174): its source bytes are read at once, and their range is held until the put is complete (R173). Misuses fault before a full
queue makes the put wait. -/
def execPut (c : Fin 256) (q : Fin 16) (srcOff : Opnd) (dst : XEnd) (len : Opnd) (s : State) : Res :=
  onUnit s c .x (.put q srcOff dst len) (fun s =>
    let k := getCore s c
    let p := (partOfCore s c).getD 16
    let n := opnd k len
    let o := opnd k srcOff
    match putFault s c p n dst with
    | some code => coreFault s c .x code
    | none =>
      if n = 0 then coreFault s c .x 0xA01
      else checked s c .x [rd o n] (
        if 64 ≤ (pqOf k q).reqs.length then hold s c 3
        else retire (putGo (modCore s c (fun k => holdRanges k [rd o n] (putKind q (pqOf k q).nextId))) c q p dst (csRead k o n)) c .x))

/-- Packets of a put that are on their way or wait at the core. -/
def putBusy (s : State) (c q id : Nat) : Bool :=
  s.mesh.any (fun e => e.2.put && e.2.core = c && e.2.q = q && (e.2.id = id || e.2.more.any (fun x => x.1 = id))) ||
  (getCore s c).mwait.any (fun w => w.2.put && w.2.q = q && w.2.id = id)

/-- A request leaves its put queue, and its source's range is free (R173). -/
def dropPut (s : State) (c q id : Nat) : State :=
  modCore s c (fun k => dropRanges (setPq k q { pqOf k q with reqs := (pqOf k q).reqs.filter (fun r => r.id != id) }) (putKind q id))

/-- The oldest put of a core to a stream. -/
def firstPut (s : State) (c q idx : Nat) : Option PReq :=
  (pqOf (getCore s c) q).reqs.find? (fun r => decide (r.dst = .stream idx))

/-- A put to a stream fills the descriptor at PRODUCER and advances it, or waits for the ring (R236). -/
def streamPut (s : State) (c q idx : Nat) (r : PReq) (hostData : List Byte) : State :=
  let e := entryOf s idx
  let p := strPart s idx
  let full := decide (2 ^ e.log2 ≤ sub32 e.producer e.completed)
  if full || eClosed e || !eEnabled e || recBusy s || decide (firstPut s c q idx ≠ some r) then s
  else match ctxUse s idx with
    | none => ctxWant s
    | some s0 =>
      let d := ringDesc s0 p e e.producer hostData
      if d.len < r.len then coreFault s0 c .x 0xA04
      else
        let a := e.ring + 32 * slotOf e e.producer + 16
        let s1 := if descInvalid s0 p e { d with len := r.len } then s0 else relWrite (touchRel s0 p d.stack r.len) p d.stack r.data
        let s2 := if eRingStack e then relWrite s1 p a (natLe r.len 4) else hostWrite s1 (p + 1) a (natLe r.len 4)
        modEntry (dropPut s2 c q r.id) idx (fun e => { e with producer := m32 (e.producer + 1) })

/-- PUT_COMPLETE (R172, R195, R236): the destination of request `i` of a put queue has accepted its data. `hostData` is the descriptor
at PRODUCER when the stream's ring is in host memory. -/
def execPutComplete (c : Fin 256) (q : Fin 16) (i : Nat) (hostData : List Byte) (s : State) : Res :=
  if !onDie s || isFused s c then .next s else
  match (pqOf (getCore s c) q).reqs[i]? with
  | none => .next s
  | some r =>
    match r.dst with
    | .stream idx => .next (streamPut s c q idx r hostData)
    | .unnamed => .next (dropPut s c q r.id)
    | _ => if r.waiting || putBusy s c q r.id then .next s else .next (dropPut s c q r.id)

/-! ## POP (R172) -/

/-- POP: releases the k oldest arrived requests; fewer than k hold the unit; bytes taken by hardware make it a misuse. -/
def execPop (c : Fin 256) (q : Fin 16) (k : Nat) (s : State) : Res :=
  onUnit s c .x (.pop q k) (fun s =>
    let f := fqOf (getCore s c) q
    if (f.reqs.take k).any (fun r => r.taken != 0) then coreFault s c .x 0xA04
    else if fqReady (getCore s c) q < k then hold s c 1
    else wakeRemote 64 (retire (modCore s c (fun x => setFq x q { f with reqs := f.reqs.drop k })) c .x) c q)

/-! ## LMOVE (R225) -/

/-- An operand that the move cannot name. -/
def lBad (pl : LPlace) (len : Nat) : Bool :=
  match pl with
  | .store _ => false
  | .gr n => decide (32 < n.val + cdiv len 8)
  | .vr _ b => decide (1024 < b.val + len)

/-- Bytes of the source. -/
def lRead (k : Core) (pl : LPlace) (len : Nat) : List Byte :=
  match pl with
  | .store o => csRead k (opnd k o) len
  | .gr n => ((List.range 8).flatMap (fun i => natLe (gr k (n + i)).toNat 8)).take len
  | .vr n b => natLe ((vreg k n).toNat >>> (8 * b.val)) len

/-- Bytes into the destination; bytes of a register that the move does not cover keep their values. -/
def lWrite (k : Core) (pl : LPlace) (bs : List Byte) : Core :=
  match pl with
  | .store o => csWrite k (opnd k o) bs
  | .gr n => (chunks 8 bs).zipIdx.foldl (fun k x =>
      setGr k (n + x.2) (BitVec.ofNat 64 (leNat (x.1 ++ (natLe (gr k (n + x.2)).toNat 8).drop x.1.length)))) k
  | .vr n b =>
    let v := (vreg k n).toNat
    let lo := v % 2 ^ (8 * b.val)
    let hi := v >>> (8 * (b.val + bs.length))
    setVreg k n (BitVec.ofNat 8192 (lo + leNat bs * 2 ^ (8 * b.val) + hi * 2 ^ (8 * (b.val + bs.length))))

/-- LMOVE (R169, R173, R225). -/
def execLmove (c : Fin 256) (dst src : LPlace) (len : Nat) (s : State) : Res :=
  onUnit s c .x (.lmove dst src len) (fun s =>
    let k := getCore s c
    if len = 0 || 64 < len || lBad dst len || lBad src len then coreFault s c .x 0xA01
    else checked s c .x (lAcc k src len false ++ lAcc k dst len true)
      (retire (modCore s c (fun k => lWrite k dst (lRead k src len))) c .x))

/-! ## ATOM (R205) -/

/-- Bytes of one element. -/
def atomSize : AtomTy → Nat | .bf16 => 2 | .word64 => 8 | _ => 4

/-- An operation and type of the table of R205. -/
def atomTypeOk : AtomOp → AtomTy → Bool
  | .cas, .word32 => true | .cas, .word64 => true | .cas, _ => false
  | .add, .fp32 => true | .add, .bf16 => true | .add, .int32 => true | .add, _ => false
  | _, .fp32 => true | _, .bf16 => true | _, .int32 => true | _, .uint32 => true | _, _ => false

/-- A request that keeps the form of R205: `len` bytes of elements at window address `addr`. -/
def atomOk (s : State) (p : Nat) (op : AtomOp) (ty : AtomTy) (addr len : Nat) (fq : Option (Fin 16)) : Bool :=
  atomTypeOk op ty && decide (4 ≤ len) && decide (len ≤ 32) && len % atomSize ty = 0 && addr % atomSize ty = 0 &&
  decide (addr % 32 + len ≤ 32) && (match op with | .cas => decide (len = atomSize ty) && fq.isSome | _ => true) &&
  decide (0x800000000 ≤ addr) && decide (addr + len ≤ 0x800000000 + windowSize s) && decide (p < partCount s)

/-- Send the request; the old values come back into the named fetch queue as one request. -/
def atomGo (s : State) (c p : Nat) (op : AtomOp) (ty : AtomTy) (addr srcOff len : Nat) (fq : Option (Fin 16)) : State :=
  let bs := csRead (getCore s c) srcOff (atomOperand op len)
  let sa := (relToSa s p addr).getD 0
  let pk := corePacket s c 2 sa bs bs.length
  match fq with
  | none => retire (meshSend s c pk { core := c, put := true, q := 16, id := 0, off := 0, len := len, spec := some ⟨op, ty⟩ }) c .x
  | some q =>
    let f := fqOf (getCore s c) q
    if f.remote.isSome || decide (f.size < round32 len) then coreFault s c .x 0xA04
    else if !fqRoom f len then hold s c 3
    else
      let m : MeshReq := { core := c, put := false, q := q, id := f.nextId, off := 0, len := len, spec := some ⟨op, ty⟩ }
      retire (meshSend (modCore s c (fun k => setFq k q (fqPush f len none))) c pk m) c .x

/-- ATOM (R177, R205): an address outside every segment is STACK_FENCE first. -/
def execAtom (c : Fin 256) (op : AtomOp) (ty : AtomTy) (addr srcOff : Opnd) (len : Nat) (fq : Option (Fin 16)) (s : State) : Res :=
  onUnit s c .x (.atom op ty addr srcOff len fq) (fun s =>
    let k := getCore s c
    let p := (partOfCore s c).getD 16
    match memEnd s p (opnd k addr) len true with
    | .fault code => coreFault s c .x code
    | .sas _ =>
      if !atomOk s p op ty (opnd k addr) len fq then coreFault s c .x 0x808
      else checked s c .x [rd (opnd k srcOff) (atomOperand op len)] (atomGo s c p op ty (opnd k addr) (opnd k srcOff) len fq))

end Sys2Proof.Machine
end

