-- ==== Sys2Proof/Machine/Real.lean ====
section
/-! DEFINITION. Special functions as the manual bounds them (R155, R156, R127): fixed-point values far finer than FP32, and a result
within the stated error that nothing else constrains. -/

namespace Sys2Proof.Machine

/-- Fraction bits of the fixed-point values. -/
def rF : Nat := 640
def rOne : Nat := 2 ^ rF

/-- Product of two fixed-point values. -/
def rMul (a b : Nat) : Nat := (a * b) >>> rF
/-- Quotient of two fixed-point values. -/
def rDiv (a b : Nat) : Nat := (a <<< rF) / b

/-- `m * 2^e` as a fixed-point value. -/
def rOf (m : Nat) (e : Int) : Nat := if 0 ≤ e + rF then m <<< (e + rF).toNat else m >>> (-(e + rF)).toNat

/-- Newton's integer square root, with fuel. -/
def isqrtAux : Nat → Nat → Nat → Nat
  | 0, _, x => x
  | k + 1, n, x => let y := (x + n / x) / 2; if y < x then isqrtAux k n y else x

/-- Floor of the square root. -/
def isqrt (n : Nat) : Nat := if n = 0 then 0 else isqrtAux 4096 n (2 ^ (Nat.log2 n / 2 + 1))

/-- Square root of a fixed-point value. -/
def rSqrt (a : Nat) : Nat := isqrt (a <<< rF)

/-- Terms `t * x^n / n!` summed. -/
def expTerms (x : Nat) : Nat → Nat → Nat → Nat
  | 0, _, _ => 0
  | k + 1, n, t => t + expTerms x k (n + 1) (rMul t x / (n + 1))

def rPow2 : Nat → Nat → Nat
  | 0, a => a
  | k + 1, a => rPow2 k (rMul a a)

/-- Exponential of a value of at most 2^8. -/
def rExp (a : Nat) : Nat := rPow2 16 (expTerms (a >>> 16) 60 0 rOne)

/-- Odd series `z^(2n+1) / (2n+1)` summed. -/
def atanhTerms (z2 : Nat) : Nat → Nat → Nat → Nat
  | 0, _, _ => 0
  | k + 1, n, t => t / (2 * n + 1) + atanhTerms z2 k (n + 1) (rMul t z2)

/-- Area hyperbolic tangent of a value below one half. -/
def rAtanh (z : Nat) : Nat := atanhTerms (rMul z z) 330 0 z

/-- Natural logarithm of two. -/
def rLn2 : Nat := 2 * rAtanh (rOne / 3)

/-- Natural logarithm of `m * 2^e`, as sign and magnitude. -/
def rLn (m : Nat) (e : Int) : Bool × Nat :=
  let l := Nat.log2 m
  let v := (m <<< rF) >>> l
  let k : Int := (l : Int) + e
  let half := decide (3 * rOne < 2 * v)
  let w := if half then v / 2 else v
  let j : Int := if half then k + 1 else k
  let t := if rOne ≤ w then (false, 2 * rAtanh (rDiv (w - rOne) (w + rOne))) else (true, 2 * rAtanh (rDiv (rOne - w) (w + rOne)))
  let sum : Int := j * rLn2 + (if t.1 then -(t.2 : Int) else t.2)
  (decide (sum < 0), sum.natAbs)

/-- Square root of two times pi, at 640 bits. -/
def rSqrt2Pi : Nat := 0x281b263fec4e0b2caf9483f5ce459dc5f19f3ea6416000b50dc2f412ddeeb948b5068337b65698726847d560b8818fb98307f0f37d42a17c1c2b86baec9ffa598c96223241bdcb90c5ace95432c9127f5

/-- Density of the normal distribution. -/
def rPhi (a : Nat) : Nat := rDiv rOne (rMul rSqrt2Pi (rExp (rMul a a / 2)))

/-- Series of odd double factorials `x^(2n+1) / (2n+1)!!`. -/
def dfTerms (x2 : Nat) : Nat → Nat → Nat → Nat
  | 0, _, _ => 0
  | k + 1, n, t => t + dfTerms x2 k (n + 1) (rMul t x2 / (2 * n + 3))

/-- Distribution function of the normal distribution at magnitude `a` below 16, for the positive and the negative argument. -/
def rCdf (a : Nat) : Nat × Nat :=
  let d := rMul (rPhi a) (dfTerms (rMul a a) 1200 0 a)
  (rOne / 2 + d, rOne / 2 - d)

/-- An exact result: sign and fixed-point magnitude. -/
abbrev Exact := Bool × Nat

/-- Sigmoid of a signed magnitude. -/
def rSigmoid (neg : Bool) (a : Nat) : Nat :=
  if 256 * rOne ≤ a then (if neg then 0 else rOne)
  else let e := rExp a; if neg then rDiv rOne (rOne + e) else rDiv e (rOne + e)

/-- Fixed-point magnitude of a finite value. -/
def magOf (m : Nat) (e : Int) : Nat := rOf m e

/-- The value of a special function of a finite nonzero input, where the table of R155 gives a formula. -/
def sfnReal (f : SFn) (neg : Bool) (m : Nat) (e : Int) : Exact :=
  let a := magOf m e
  match f with
  | .recip => (neg, rDiv rOne a)
  | .rsqrt => (false, rDiv rOne (rSqrt a))
  | .sqrt => (false, rSqrt a)
  | .exp =>
    if 200 * rOne ≤ a then (false, if neg then 0 else 2 ^ 200 * rOne)
    else (false, if neg then rDiv rOne (rExp a) else rExp a)
  | .log => rLn m e
  | .tanh => if 100 * rOne ≤ a then (neg, rOne) else let x := rExp (2 * a); (neg, rDiv (x - rOne) (x + rOne))
  | .sigmoid => (false, rSigmoid neg a)
  | .gelu =>
    if 16 * rOne ≤ a then (neg, if neg then 0 else a)
    else (neg, rMul a (if neg then (rCdf a).2 else (rCdf a).1))
  | .silu => (neg, rMul a (rSigmoid neg a))
  | .div => (neg, a)

/-- Error bound in ulp of each function (R155, R156); 0 is correctly rounded. -/
def sfnUlp : SFn → Nat
  | .recip => 1 | .rsqrt => 1 | .div => 1 | .sqrt => 0 | _ => 2

/-- Unit in the last place of FP32 at a fixed-point magnitude. -/
def ulpAt (x : Nat) : Nat :=
  let q : Int := (Nat.log2 x : Int) - rF - 23
  rOf 1 (if x = 0 || q < -149 then -149 else q)

/-- Fixed-point magnitude of FP32 magnitude bits. -/
def fp32Mag (b : Nat) : Nat := match unpack lFP32 b with | .fin _ m e => rOf m e | _ => 0

/-- FP32 magnitudes within `k` ulp of an exact magnitude, the nearest one always among them. -/
def withinUlp (k x : Nat) : List Nat :=
  let b := roundMag lFP32 x (-(rF : Int))
  ((List.range (2 * k + 1)).map (fun i => b + i - k)).filter (fun c =>
    decide (c ≤ lFP32.maxBits) && (decide (c = b) ||
      decide ((fp32Mag c - x) + (x - fp32Mag c) ≤ k * ulpAt x)))

/-- A result that the manual bounds but does not state: one of the values within the bound, by a free choice on the operands. -/
def sfnPick (f : Nat) (a b k : Nat) (x : Exact) : Nat × CFlags :=
  if lFP32.maxBits < roundMag lFP32 x.2 (-(rF : Int)) then (withSign lFP32 x.1 (lFP32.maxBits + 1), { sat := true })
  else
    let l := withinUlp k x.2
    (withSign lFP32 x.1 (l.getD ((Config.ulpChoice f a b) % l.length) 0), {})

/-- Values of the slope codes (R127) in sixteenths, from code 0 upward. -/
def slopeVals : List Int := [-2, -1, 0, 1, 2, 3, 4, 6, 8, 10, 12, 14, 15, 16, 17, 18]

/-- The derivative of GELU or SiLU at a finite value, as a signed fixed-point number. -/
def slopeReal (silu neg : Bool) (a : Nat) : Int :=
  if silu then
    let s := rSigmoid neg a
    let t := rMul a (rMul s (rOne - s))
    (s : Int) + (if neg then -(t : Int) else t)
  else if 16 * rOne ≤ a then (if neg then 0 else rOne)
  else
    let t := rMul a (rPhi a)
    if neg then ((rCdf a).2 : Int) - t else ((rCdf a).1 : Int) + t

/-- Nearest slope code, ties to the lower code (R127). -/
def slopeCode (silu : Bool) (x : Num) : Nat :=
  match x with
  | .nan => 2
  | .inf n => if n then 2 else 0xD
  | .fin neg m e =>
    let d := slopeReal silu neg (magOf m e)
    let dist (i : Nat) : Nat := (16 * d - slopeVals.getD i 0 * rOne).natAbs
    (List.range 16).foldl (fun b i => if dist i < dist b then i else b) 0

end Sys2Proof.Machine
end

