-- ==== Sys2Proof/Machine/Vector.lean ====
section
/-! DEFINITION. The vector unit (R151 to R157) and the matrix-vector unit (R158 to R161). -/

namespace Sys2Proof.Machine

/-! ## Lanes (R151) -/

def vLayout : VFmt → Layout | .fp32 => lFP32 | .fp16 => lFP16 | .bf16 => lBF16
def vWidth : VFmt → Nat | .fp32 => 32 | _ => 16
/-- Encoding of lane `i`. -/
def laneBits (f : VFmt) (v : BitVec 8192) (i : Nat) : Nat := (v.toNat >>> (i * vWidth f)) % 2 ^ vWidth f

/-- Value of lane `i`. -/
def lane (f : VFmt) (v : BitVec 8192) (i : Nat) : Num := unpack (vLayout f) (laneBits f v i)

/-- A register from lane encodings, lane 0 lowest. -/
def ofLanes (w : Nat) : List Nat → Nat
  | [] => 0
  | x :: t => x % 2 ^ w + 2 ^ w * ofLanes w t

/-- What a lane delivers: encoding and the flags NAN, SAT, DIVZERO (R157). -/
structure LaneRes where
  enc : Nat
  nan : Bool := false
  sat : Bool := false
  dz : Bool := false
  deriving DecidableEq, Repr

/-- An exact value rounded to the format (R152); a NaN written sets NAN, a finite value rounded to infinity SAT (R157). -/
def roundLane (f : VFmt) (n : Num) : LaneRes :=
  let r := pack (vLayout f) n
  { enc := r.1, nan := n.isNan, sat := r.2.sat }

/-- The status word after a list of lane results (R157): FIRST_ELEM is the first flagged lane since the last read. -/
def vstatAfter (w : W64) (rs : List LaneRes) : W64 :=
  let nan := rs.any LaneRes.nan
  let sat := rs.any LaneRes.sat
  let dz := rs.any LaneRes.dz
  let first := rs.findIdx? (fun r => r.nan || r.sat || r.dz)
  let w1 := if fld w 2 0 = 0 then (match first with | some i => setFld w 24 16 i | none => w) else w
  w1 ||| at_ (b2n nan) 0 ||| at_ (b2n sat) 1 ||| at_ (b2n dz) 2

/-- Flags of one instruction in trap order: NAN, SAT, LONG, CANCEL, DIVZERO. -/
def resFlags (rs : List LaneRes) : List Bool :=
  [rs.any LaneRes.nan, rs.any LaneRes.sat, false, false, rs.any LaneRes.dz]

/-- A V instruction is done: sticky flags, then its traps (R157). -/
def vEnd (s : State) (c : Nat) (rs : List LaneRes) : State :=
  trapIf (retire (modCore s c (fun k => { k with vstat := vstatAfter k.vstat rs })) c .v) c .v (headBundle (getCore s c) .v) (resFlags rs)

/-- A register with its lowest lanes replaced; lanes beyond the results keep their bits (log 106). -/
def withLanes (f : VFmt) (old : BitVec 8192) (rs : List LaneRes) : BitVec 8192 :=
  let n := vWidth f * rs.length
  BitVec.ofNat 8192 (ofLanes (vWidth f) (rs.map LaneRes.enc) + old.toNat / 2 ^ n * 2 ^ n)

/-- Write lane results to register `d`. -/
def vPut (s : State) (c d : Nat) (f : VFmt) (rs : List LaneRes) : State :=
  vEnd (modCore s c (fun k => setVreg k d (withLanes f (vreg k d) rs))) c rs

/-- Lanes of an element-wise operation: those of its widest operand or destination (R152). -/
def vWide (fs : List VFmt) : Nat := if fs.any (fun f => f = .fp32) then 256 else 512

/-- Lane-wise operation over two registers, each in its own format; one rounding to the destination's (R152). -/
def vMap2 (f : VFmts) (k : Core) (a b : Nat) (g : Num → Num → Num) : List LaneRes :=
  (List.range (vWide [f.d, f.a, f.b])).map (fun i => roundLane f.d (g (lane f.a (vreg k a) i) (lane f.b (vreg k b) i)))

/-- Lane-wise operation over three registers. -/
def vMap3 (f : VFmts) (k : Core) (a b e : Nat) (g : Num → Num → Num → Num) : List LaneRes :=
  (List.range (vWide [f.d, f.a, f.b, f.e])).map (fun i =>
    roundLane f.d (g (lane f.a (vreg k a) i) (lane f.b (vreg k b) i) (lane f.e (vreg k e) i)))

/-! ## Arithmetic (R152) -/

/-- Order of two values that are no NaN, −0 below +0. -/
def numLt (a b : Num) : Bool :=
  match a, b with
  | .inf s, .inf t => s && !t
  | .inf s, .fin _ _ _ => s
  | .fin _ _ _, .inf t => !t
  | .fin s m e, .fin t n f =>
    if m = 0 && n = 0 then s && !t
    else match s, t with
      | true, false => true
      | false, true => false
      | false, false => !magLe (n, f) (m, e)
      | true, true => !magLe (m, e) (n, f)
  | _, _ => false

/-- Min and max: NaN when either operand is NaN. -/
def numMin (a b : Num) : Num := if a.isNan || b.isNan then .nan else if numLt b a then b else a
def numMax (a b : Num) : Num := if a.isNan || b.isNan then .nan else if numLt a b then b else a

/-- IEEE comparison: −0 and +0 are equal, a NaN is unordered (R171). -/
def numCmp (op : CmpOp) (a b : Num) : Bool :=
  let un := a.isNan || b.isNan
  let eq := !un && ((a.isZero && b.isZero) || (!numLt a b && !numLt b a))
  let lt := !un && !eq && numLt a b
  match op with
  | .lt => lt
  | .le => lt || eq
  | .eq => eq
  | .ne => !eq
  | .gt => !un && !eq && !lt
  | .ge => !un && !lt

/-- The exact value of a comparison result: 1 or 0. -/
def boolNum (b : Bool) : Num := .fin false (b2n b) 0

/-- VADD (R152). -/
def execVadd (c : Fin 256) (fmt : VFmts) (d a b : Fin 16) (s : State) : Res :=
  onUnit s c .v (.vadd fmt d a b) (fun s => vPut s c d fmt.d (vMap2 fmt (getCore s c) a b addNum))

/-- VMUL (R152). -/
def execVmul (c : Fin 256) (fmt : VFmts) (d a b : Fin 16) (s : State) : Res :=
  onUnit s c .v (.vmul fmt d a b) (fun s => vPut s c d fmt.d (vMap2 fmt (getCore s c) a b mulNum))

/-- VFMA (R152): a × b + c exact, one rounding. -/
def execVfma (c : Fin 256) (fmt : VFmts) (d a b e : Fin 16) (s : State) : Res :=
  onUnit s c .v (.vfma fmt d a b e) (fun s => vPut s c d fmt.d (vMap3 fmt (getCore s c) a b e (fun x y z => addNum (mulNum x y) z)))

/-- VMIN (R152). -/
def execVmin (c : Fin 256) (fmt : VFmts) (d a b : Fin 16) (s : State) : Res :=
  onUnit s c .v (.vmin fmt d a b) (fun s => vPut s c d fmt.d (vMap2 fmt (getCore s c) a b numMin))

/-- VMAX (R152). -/
def execVmax (c : Fin 256) (fmt : VFmts) (d a b : Fin 16) (s : State) : Res :=
  onUnit s c .v (.vmax fmt d a b) (fun s => vPut s c d fmt.d (vMap2 fmt (getCore s c) a b numMax))

/-- VCMP (R171): 1 or 0 in each lane, no flag. -/
def execVcmp (c : Fin 256) (fmt : VFmts) (op : CmpOp) (d a b : Fin 16) (s : State) : Res :=
  onUnit s c .v (.vcmp fmt op d a b) (fun s => vPut s c d fmt.d (vMap2 fmt (getCore s c) a b (fun x y => boolNum (numCmp op x y))))

/-- VSEL: lane of `a` where the lane of `m` is not zero, else of `b` (log 21). -/
def execVsel (c : Fin 256) (fmt : VFmts) (d a b m : Fin 16) (s : State) : Res :=
  onUnit s c .v (.vsel fmt d a b m) (fun s => vPut s c d fmt.d (vMap3 fmt (getCore s c) a b m (fun x y z => if z.isZero then y else x)))

/-! ## Special functions (R155, R156) -/

def fpNan : Nat := lFP32.nanBits
def fpInf (neg : Bool) : Nat := withSign lFP32 neg (lFP32.maxBits + 1)
def fpZero (neg : Bool) : Nat := withSign lFP32 neg 0
def fpOne : Nat := 0x3F800000
def fpHalf : Nat := 0x3F000000

/-- Index of a function for the free choice within its bound. -/
def sfnNo : SFn → Nat
  | .recip => 0 | .rsqrt => 1 | .sqrt => 2 | .exp => 3 | .log => 4 | .tanh => 5 | .sigmoid => 6 | .gelu => 7 | .silu => 8 | .div => 9

/-- A finite nonzero input. -/
def sfnFinite (f : SFn) (neg : Bool) (m : Nat) (e : Int) (enc : Nat) : LaneRes :=
  if neg && (f = .rsqrt || f = .sqrt || f = .log) then { enc := fpNan, nan := true }
  else let r := sfnPick (sfnNo f) enc 0 (sfnUlp f) (sfnReal f neg m e); { enc := r.1, sat := r.2.sat }

/-- The table of R155, column by column. -/
def sfnLane (f : SFn) (x : Num) (enc : Nat) : LaneRes :=
  match x with
  | .nan => { enc := fpNan }
  | .inf true => match f with
    | .recip => { enc := fpZero true }
    | .exp => { enc := fpZero false }
    | .sigmoid => { enc := fpZero false }
    | .tanh => { enc := withSign lFP32 true fpOne }
    | .gelu => { enc := fpZero true }
    | .silu => { enc := fpZero true }
    | _ => { enc := fpNan, nan := true }
  | .inf false => match f with
    | .recip => { enc := fpZero false }
    | .rsqrt => { enc := fpZero false }
    | .tanh => { enc := fpOne }
    | .sigmoid => { enc := fpOne }
    | _ => { enc := fpInf false }
  | .fin neg m e =>
    if m = 0 then match f with
      | .recip => { enc := fpInf neg, dz := true }
      | .rsqrt => { enc := fpInf neg, dz := true }
      | .log => { enc := fpInf true, dz := true }
      | .exp => { enc := fpOne }
      | .sigmoid => { enc := fpHalf }
      | _ => { enc := fpZero neg }
    else sfnFinite f neg m e enc

/-- Division of a lane (R156). -/
def divLane (a b : Num) (ea eb : Nat) : LaneRes :=
  match a, b with
  | .nan, _ => { enc := fpNan, nan := true }
  | _, .nan => { enc := fpNan, nan := true }
  | .inf _, .inf _ => { enc := fpNan, nan := true }
  | .inf s, .fin t n _ => { enc := fpInf (s != t), dz := n = 0 }
  | .fin s _ _, .inf t => { enc := fpZero (s != t) }
  | .fin s m e, .fin t n f =>
    if n = 0 then (if m = 0 then { enc := fpNan, nan := true } else { enc := fpInf (s != t), dz := true })
    else if m = 0 then { enc := fpZero (s != t) }
    else
      let x := if e - f ≥ 0 then (m <<< ((e - f).toNat + rF)) / n else (m <<< rF) / (n <<< (f - e).toNat)
      let r := sfnPick 9 ea eb 1 (s != t, x)
      { enc := r.1, sat := r.2.sat }

/-- VSFN (R155, R156): FP32 only. -/
def execVsfn (c : Fin 256) (f : SFn) (d a b : Fin 16) (s : State) : Res :=
  onUnit s c .v (.vsfn f d a b) (fun s =>
    let k := getCore s c
    vPut s c d .fp32 ((List.range 256).map (fun i =>
      let ea := laneBits .fp32 (vreg k a) i
      let eb := laneBits .fp32 (vreg k b) i
      if f = .div then divLane (unpack lFP32 ea) (unpack lFP32 eb) ea eb else sfnLane f (unpack lFP32 ea) ea)))

/-! ## Reductions (R153) -/

/-- One step of the tree: FP32 adds rounded, or comparisons; flags of the steps gather. -/
def redPair (op : RedOp) (x y : Num × LaneRes) : Num × LaneRes :=
  let v := match op with | .add => addNum x.1 y.1 | .min => numMin x.1 y.1 | .max => numMax x.1 y.1
  let r := roundLane .fp32 v
  (unpack lFP32 r.enc, { enc := r.enc, nan := r.nan || x.2.nan || y.2.nan, sat := r.sat || x.2.sat || y.2.sat })

/-- Element 2i pairs with element 2i + 1. -/
def redPairs (op : RedOp) : List (Num × LaneRes) → List (Num × LaneRes)
  | x :: y :: t => redPair op x y :: redPairs op t
  | l => l

/-- The tree, level by level. -/
def redTree (op : RedOp) : Nat → List (Num × LaneRes) → List (Num × LaneRes)
  | 0, l => l
  | n + 1, l => redTree op n (redPairs op l)

/-- The value of one register. -/
def redReg (f : VFmt) (op : RedOp) (v : BitVec 8192) : Num × LaneRes :=
  let l := (List.range (vLanes f)).map (fun i =>
    let n := lane f v i
    (n, { roundLane .fp32 n with nan := n.isNan }))
  ((redTree op 9 l).headD (.zero, { enc := 0 }))

/-- Results of several registers in ascending order. -/
def redRegs (f : VFmt) (op : RedOp) (k : Core) (a count : Nat) : Num × LaneRes :=
  ((List.range (count - 1)).foldl (fun x i => redPair op x (redReg f op (vreg k (a + 1 + i)))) (redReg f op (vreg k a)))

/-- VRED (R153): the FP32 result enters element 0 of the destination, whose other elements stay (log 21). -/
def execVred (c : Fin 256) (fmt : VFmt) (op : RedOp) (d a : Fin 16) (count : Nat) (s : State) : Res :=
  onUnit s c .v (.vred fmt op d a count) (fun s =>
    let k := getCore s c
    if count = 0 || 16 < a.val + count then coreFault s c .v 0xA01
    else
      let r := (redRegs fmt op k a count).2
      let old := (vreg k d).toNat
      vEnd (modCore s c (fun k => setVreg k d (BitVec.ofNat 8192 (old / 2 ^ 32 * 2 ^ 32 + r.enc % 2 ^ 32)))) c [r])

/-! ## Loads and stores (R151) -/

/-- A load widens into FP32 or BF16, or keeps its format. -/
def vldLegal (f : Fmt) (t : VFmt) : Bool :=
  match f, t with
  | _, .fp32 => true
  | .fp32, _ => false
  | .fp16, .fp16 => true
  | .fp16, .bf16 => false
  | _, .bf16 => true
  | _, .fp16 => false

/-- Vector formats as element formats. -/
def vFmtOf : VFmt → Fmt | .fp32 => .fp32 | .fp16 => .fp16 | .bf16 => .bf16

/-- A loaded lane: a load that keeps its format carries the bits unchanged, a NaN's too (R98, R151). -/
def loadLane (f : Fmt) (t : VFmt) (w scale : Nat) : LaneRes :=
  if f = vFmtOf t then { enc := w, nan := (unpackElem f w scale).isNan } else roundLane t (unpackElem f w scale)

/-- The value of a slope code, in sixteenths (R127). -/
def slopeNum (code : Nat) : Num := let v := slopeVals.getD code 0; .fin (decide (v < 0)) v.natAbs (-4)

/-- Lanes of a load: elements with their block scales, or the values of slope codes (R127, R128, R151). -/
def vldLanes (k : Core) (addr scaleAddr : Opnd) (mode : VldMode) (t : VFmt) : List LaneRes :=
  let n := vLanes t
  match mode with
  | .plain f =>
    let es := csRead k (opnd k addr) (planeBytes f n)
    let sc := csRead k (opnd k scaleAddr) (if fIsBlock f then n / 32 else 0)
    (List.range n).map (fun i => loadLane f t (planeElem f es i) ((sc.getD (i / 32) 0).toNat))
  | .slope =>
    let es := csRead k (opnd k addr) (n / 2)
    (List.range n).map (fun i => roundLane t (slopeNum (planeElem .bs4 es i)))

/-- VLD (R126, R127, R151): every lane of the destination from consecutive elements, or from consecutive slope codes. -/
def execVld (c : Fin 256) (d : Fin 16) (addr scaleAddr : Opnd) (mode : VldMode) (toFmt : VFmt) (s : State) : Res :=
  onUnit s c .v (.vld d addr scaleAddr mode toFmt) (fun s =>
    let k := getCore s c
    if (match mode with | .plain f => !vldLegal f toFmt | .slope => false) then coreFault s c .v 0xA01
    else checked s c .v (vldAccs k addr scaleAddr mode (vLanes toFmt)) (vPut s c d toFmt (vldLanes k addr scaleAddr mode toFmt)))

/-- Store flags: a NaN into a format without NaN, a saturation (R157). -/
def storeRes (fs : List CFlags) : List LaneRes := fs.map (fun f => { enc := 0, nan := f.nan, sat := f.sat })

/-- What a VST writes: element bytes, scale bytes and flags; a store that keeps its format carries the bits unchanged (R98). -/
def vstBytes (f : Fmt) (t : VFmt) (v : BitVec 8192) : List Byte × List Byte × List CFlags :=
  if f = vFmtOf t then (packPlane f ((List.range (vLanes t)).map (laneBits t v)), [], [])
  else packRow f ((List.range (vLanes t)).map (lane t v))

/-- VST (R122, R123, R127, R128, R133): a converting store of every lane, or the slope codes of the lanes. -/
def execVst (c : Fin 256) (a : Fin 16) (addr scaleAddr : Opnd) (fmt : Fmt) (srcFmt : VFmt) (mode : VstMode) (grad : Option Nat) (s : State) : Res :=
  onUnit s c .v (.vst a addr scaleAddr fmt srcFmt mode) (fun s =>
    let k := getCore s c
    let vs := (List.range (vLanes srcFmt)).map (lane srcFmt (vreg k a))
    let accs := vstAccs k addr scaleAddr fmt mode (vLanes srcFmt)
    match mode with
    | .plain =>
      let r := vstBytes fmt srcFmt (vreg k a)
      checked s c .v accs
        (vEnd (gradStats (modCore s c (fun k => csWrite (csWrite k (opnd k addr) r.1) (opnd k scaleAddr) r.2.1))
          ((partOfCore s c).getD 16) grad [vs]) c (storeRes r.2.2))
    | m =>
      if srcFmt ≠ .fp32 then coreFault s c .v 0xA01
      else checked s c .v accs
        (vEnd (modCore s c (fun k => csWrite k (opnd k addr) (packPlane .bs4 (vs.map (slopeCode (decide (m = .slopeSilu))))))) c []))

/-- VSTAT (R157): the status word goes to the slot and is cleared. -/
def execVstat (c : Fin 256) (st : Fin 16) (s : State) : Res :=
  onUnit s c .v (.vstat st) (fun s =>
    retire (modCore s c (fun k => { setSt k st k.vstat with vstat := 0 })) c .v)

/-! ## The matrix-vector unit (R158 to R161) -/

/-- V of a shape (R159). -/
def mvVecs (shape : Nat) : Nat := 2 ^ shape

/-- Matrix elements per CTL cycle, halved for 16-bit operands, quartered for FP32 (R159). -/
def mvW (d : MvDesc) : Nat :=
  let w := 512 / 2 ^ d.shape
  let wide := [d.matFmt, d.vecFmt]
  if wide.contains 8 then w / 4 else if wide.contains 4 || wide.contains 5 then w / 2 else w

/-- The table of R158. -/
def mvLegal (d : MvDesc) : Bool :=
  decide (d.mode ≤ 1) && (match d.src with | .queue q => decide (q < 16) | .store _ => true) && decide (d.shape ≤ 3) && decide (1 ≤ d.vectors) && decide (d.vectors ≤ mvVecs d.shape) && decide (1 ≤ d.rows) &&
  decide (64 ≤ d.depth) && decide (d.depth ≤ 65536) && decide (d.depth % 64 = 0) && decide (d.matFmt ≤ 7) &&
  [1, 2, 3, 4, 5, 8].contains d.vecFmt && decide (d.outFmt ≤ 8) && decide (mvN d * d.vectors ≤ 4096)

/-- The matrix from core store, row by row as a queue would deliver it. -/
def mvStoreMat (k : Core) (d : MvDesc) (off : Nat) : List Byte :=
  (List.range d.rows).flatMap (fun j =>
    csRead k (off + j * mvRowElems d) (mvRowElems d) ++ csRead k (d.matScale + j * mvRowScales d) (mvRowScales d))

/-- The operation that a descriptor begins: its vectors, and a matrix that stands in core store. -/
def mvStart (k : Core) (d : MvDesc) (st : Nat) (grad : Option Nat) : MvOp :=
  { desc := d, st := st, grad := grad, bundle := headBundle k .m
    vecs := (List.range d.vectors).map (fun v => csRead k (d.vecAddr + v * d.vecStride) (mvVecBytes d))
    mat := match d.src with | .store off => mvStoreMat k d off | .queue _ => [] }

/-- MV (R158): reads its descriptor in core store; refused whole when it breaks the table; waits while an operation runs. -/
def execMv (c : Fin 256) (desc : Opnd) (st : Fin 16) (s : State) (grad : Option Nat := none) : Res :=
  onUnit s c .m (.mv desc st) (fun s =>
    let k := getCore s c
    let o := opnd k desc
    let d := mvParse (csRead k o mvBytes)
    checked s c .m [rd o mvBytes] (
      if !mvLegal d then coreFault s c .m 0xA30
      else if k.mv.isSome then hold s c 1
      else checked s c .m (mvAccs d)
        (retire (modCore s c (fun k => holdRanges { k with
          mv := some (mvStart k d st grad), apend := if d.cont then k.apend else k.apend ++ [.st st] } (mvOutAccs d) mvKind)) c .m)))

/-- Element of row j, column i of the matrix bytes. -/
def mvElem (d : MvDesc) (bs : List Byte) (j i : Nat) : Num :=
  let row := (bs.drop (j * (mvRowElems d + mvRowScales d))).take (mvRowElems d + mvRowScales d)
  unpackElem (mvMatFmt d) (planeElem (mvMatFmt d) row i) ((row.getD (mvRowElems d + i / 32) 0).toNat)

/-- Element of a vector. -/
def mvVec (d : MvDesc) (bs : List Byte) (i : Nat) : Num := unpackElem (mvVecFmt d) (planeElem (mvVecFmt d) bs i) 0

/-- Groups of one output entry: 64 depths each in DOT mode, the rows of one CTL cycle each in AXPY mode (R160). -/
def mvGroups (d : MvDesc) (mat : List Byte) (x : List Byte) (i : Nat) : List (List Num) :=
  if mvAxpy d then chunks (max 1 (mvW d / d.depth)) ((List.range d.rows).map (fun j => mulNum (mvVec d x j) (mvElem d mat j i)))
  else chunks 64 ((List.range d.depth).map (fun e => mulNum (mvElem d mat i e) (mvVec d x e)))

/-- One entry: group sums added in order, the peak following every value (R109, R116, R160). -/
def mvEntry (v : A40) (peak : Nat) (gs : List (List Num)) : A40 × Nat :=
  gs.foldl (fun a g => let w := a40Add a.1 (groupSum g); (w, max a.2 (a40X w))) (v, peak)

/-- The accumulators after an operation: entry v * N + i; open ones take its sums, closed ones start from zero (R158, R161, log 22). -/
def mvRun (k : Core) (o : MvOp) (mat : List Byte) : Core :=
  let d := o.desc
  let k0 := if k.accOpen then k else { k with acc := [], accPeak := [], accCount := 0 }
  let k1 := o.vecs.zipIdx.foldl (fun k x => (List.range (mvN d)).foldl (fun k i =>
    let e := x.2 * mvN d + i
    let r := mvEntry (tget (fun _ => 0) k.acc e) (tget (fun _ => 0) k.accPeak e) (mvGroups d mat x.1 i)
    { k with acc := tset (fun _ => 0) k.acc e r.1, accPeak := tset (fun _ => 0) k.accPeak e r.2 }) k) k0
  { k1 with accCount := termAdd k1.accCount (mvLen d), accOpen := d.cont }

/-- Converted rows, one per vector. -/
def mvRows (k : Core) (d : MvDesc) : List OutRow :=
  (List.range d.vectors).map (fun v =>
    let es := (List.range (mvN d)).map (fun i =>
      (tget (fun _ => (0 : A40)) k.acc (v * mvN d + i), tget (fun _ => 0) k.accPeak (v * mvN d + i)))
    outRow (mvOutFmt d) v es k.accCount)

/-- The rows enter core store, each as whole blocks (R100, R101). -/
def mvStore (k : Core) (d : MvDesc) (rows : List OutRow) : Core :=
  rows.foldl (fun k r =>
    csWrite (csWrite k (d.outAddr + r.row * mvOutBytes d) r.elems) (d.outScale + r.row * mvOutScales d) r.scales) k

/-- The end of an operation: with CONTINUE the accumulators stay open; otherwise write-back, gradient statistics, status word, traps (R119, R120,
R133, R161). -/
def mvFinish (s : State) (c : Nat) (o : MvOp) : State :=
  let k := mvRun { getCore s c with mv := none } o o.mat
  if o.desc.cont then setCore s c k else
  let rows := mvRows k o.desc
  let w := statusWord 0 (rows.map (fun r => (r.row, r.flags)))
  let k1 := mvStore (dropRanges { k with apend := k.apend.erase (.st (Fin.ofNat 16 o.st)) } mvKind) o.desc rows
  let s1 := setCore s c { setSt k1 o.st w with acc := [], accPeak := [], accCount := 0 }
  trapIf (gradStats s1 ((partOfCore s c).getD 16) o.grad (rows.map OutRow.vals)) c .m o.bundle (wordFlags w)

/-- Bytes of a matrix that comes from a queue, taken as they arrive; the requests they empty are released (R163, R172). -/
def mvTake (s : State) (c : Nat) (o : MvOp) : MvOp × State :=
  match o.desc.src with
  | .store _ => (o, s)
  | .queue q =>
    let t := fqTake s c q (min (fqAvail (fqOf (getCore s c) q)) (mvMatBytes o.desc - o.mat.length))
    ({ o with mat := o.mat ++ t.1 }, t.2)

/-- MATVEC_DONE (R160, R161, R172): the unit takes the matrix bytes that stand in its queue; with the last element it ends. On a faulted core
the result is discarded (R178). -/
def execMatvecDone (c : Fin 256) (s : State) : Res :=
  .next (match (getCore s c).mv with
  | none => s
  | some o =>
    if !onDie s then s
    else if coreFaulted s c then modCore s c (fun k => dropRanges { k with
      mv := none, apend := k.apend.erase (.st (Fin.ofNat 16 o.st)) } mvKind)
    else
      let t := mvTake s c o
      if t.1.mat.length < mvMatBytes o.desc then modCore t.2 c (fun k => { k with mv := some t.1 })
      else mvFinish t.2 c t.1)

end Sys2Proof.Machine
end

