-- ==== Sys2Proof/Machine/Mesh.lean ====
section
/-! DEFINITION. Packets of the mesh at their endpoints, the column ports and the shared cache (R191 to R222). -/

namespace Sys2Proof.Machine

/-! ## Requests at a column port or a shared-cache slice (R194 to R199) -/

/-- The requester by its endpoint kind (R216, R221): core, host port, fabric port for the exchange engine, else the stream engine. -/
def askerOf (ep : Nat) : Asker := match ep with | 0 => .core | 3 => .grx | 4 => .host | _ => .engine

/-- NET by TYPE: the response network carries types 8 to 12 (R221). -/
def pkNet (typ : Nat) : Bool := decide (8 ≤ typ) && decide (typ ≤ 12)

/-- The header of a packet in its 96 bits (R220). -/
def headerBits (pk : Packet) : BitVec 96 :=
  BitVec.ofNat 96 (pk.dstRouter + 2 ^ 8 * pk.dstEp + 2 ^ 11 * pk.srcRouter + 2 ^ 19 * pk.srcEp + 2 ^ 22 * b2n (pkNet pk.typ) + 2 ^ 23 * pk.typ +
    2 ^ 27 * pk.len + 2 ^ 35 * pk.part + 2 ^ 39 * pk.tag + 2 ^ 49 * pk.addr + 2 ^ 85 * b2n pk.poison)

/-- The packet that a header and a payload make; none when a reserved bit is set or NET is not that of its TYPE. -/
def headerParse (h : BitVec 96) (data : List Byte) : Option Packet :=
  let n := h.toNat
  let pk : Packet :=
    { poison := nbit n 85, addr := bits n 84 49, tag := bits n 48 39, part := bits n 38 35, len := bits n 34 27, typ := bits n 26 23,
      srcEp := bits n 21 19, srcRouter := bits n 18 11, dstEp := bits n 10 8, dstRouter := bits n 7 0, data := data }
  if bits n 95 86 = 0 && nbit n 22 = pkNet pk.typ then some pk else none

/-- Flit cycles that a packet takes: its data flits, or one for a header alone (R220). -/
def pkFlits (pk : Packet) : Nat := max 1 (cdiv pk.data.length 64)

/-- Bytes that a packet names. -/
def pkLen (pk : Packet) : Nat := pk.len + 1

/-- The answer to a request: same tag, source and destination exchanged (R220). -/
def answerOf (pk : Packet) (typ : Nat) (poison : Bool) (data : List Byte) : Packet :=
  { pk with typ := typ, poison := poison, data := data, srcEp := pk.dstEp, srcRouter := pk.dstRouter, dstEp := pk.srcEp, dstRouter := pk.srcRouter }

/-- A request that the host did not send touches its columns for the partition's step (R214). -/
def touchBy (s : State) (pk : Packet) (n : Nat) : State := if pk.srcEp = 4 then s else touchColumn s pk.part pk.addr n

/-- A request that its endpoint takes now: the die is on, and at a slice no earlier request of its queue to the line is outstanding (R206). -/
def takes (s : State) (pk : Packet) : Bool := onDie s && lineTurn s pk

/-- MESH_READ (R194, R196, R199, R204, R206, R219). -/
def execMeshRead (pk : Packet) (ecc : Ecc) (s : State) : Res :=
  let n := pkLen pk
  if !takes s pk then .next s
  else if fusedPort s pk then .next (emit (meshTaken s pk) (.mesh (answerOf pk 8 false (List.replicate n 0))))
  else if !saAllowed s pk.part pk.addr n then
    .next (emit (meshTaken (logPartition s (askerOf pk.srcEp) pk.part pk.addr) pk) (.mesh (answerOf pk 8 true (List.replicate n 0))))
  else
    let r := saRead (latent (touchBy s pk n) ecc) (askerOf pk.srcEp) pk.part pk.addr n
    .next (emit (meshTaken r.2.2 pk) (.mesh (answerOf pk 8 r.2.1 r.1)))

/-- Sectors of a range become poisoned. -/
def poisonRange (s : State) (sa len : Nat) : State := (sectorsOfRange sa len).foldl (fun s k => setPoison s k true) s

/-- MESH_WRITE (R195, R196, R199, R206, R219): a partly written sector is a read-modify-write, whose read may find an error. -/
def execMeshWrite (pk : Packet) (ecc : Ecc) (s : State) : Res :=
  let n := pkLen pk
  let ack : Out := .mesh (answerOf pk 9 false [])
  if !takes s pk then .next s
  else if fusedPort s pk then .next (emit (meshTaken s pk) ack)
  else if !saAllowed s pk.part pk.addr n then .next (emit (meshTaken (logPartition s (askerOf pk.srcEp) pk.part pk.addr) pk) ack)
  else
    let s1 := saWrite (latent (touchBy s pk n) ecc) (askerOf pk.srcEp) pk.part pk.addr (fitTo n pk.data)
    .next (emit (meshTaken (if pk.poison then poisonRange s1 pk.addr n else s1) pk) ack)

/-! ## Atomics (R205) -/

/-- The signed value of a 32-bit word. -/
def int32 (w : Nat) : Int := (BitVec.ofNat 32 w).toInt

/-- A floating-point element as VADD, VMAX and VMIN treat it. -/
def atomFp (f : VFmt) (op : AtomOp) (old x : Nat) : Nat :=
  let a := unpack (vLayout f) old
  let b := unpack (vLayout f) x
  match op with
  | .add => (roundLane f (addNum a b)).enc
  | .max => (roundLane f (numMax a b)).enc
  | .min => (roundLane f (numMin a b)).enc
  | .cas => old

/-- New value of one element. -/
def atomElem (op : AtomOp) (ty : AtomTy) (old x y : Nat) : Nat :=
  match op with
  | .cas => if old = x then y else old
  | op =>
    match ty with
    | .fp32 => atomFp .fp32 op old x
    | .bf16 => atomFp .bf16 op old x
    | .int32 => (match op with
      | .add => (old + x) % 2 ^ 32
      | .max => if int32 old < int32 x then x else old
      | _ => if int32 x < int32 old then x else old)
    | _ => (match op with
      | .add => (old + x) % 2 ^ 32
      | .max => max old x
      | _ => min old x)

/-- The bytes after an atomic over `old`. -/
def atomBytes (op : AtomOp) (ty : AtomTy) (old opnd : List Byte) : List Byte :=
  let w := atomSize ty
  (List.range (old.length / w)).flatMap (fun i =>
    natLe (atomElem op ty (leAt old (w * i) w) (leAt opnd (w * i) w) (leAt opnd (w * i + old.length) w)) w)

/-- Bytes that an atomic changes: its payload, half of it for CAS. -/
def atomLen (pk : Packet) (op : AtomOp) : Nat := match op with | .cas => pkLen pk / 2 | _ => pkLen pk

/-- MESH_ATOM (R196, R204 to R206): one indivisible update at its slice, one access of the line, answered with the old values; a poisoned sector
stays poisoned. -/
def execMeshAtom (pk : Packet) (spec : AtomSpec) (ecc : Ecc) (s : State) : Res :=
  let n := atomLen pk spec.op
  if !takes s pk then .next s
  else if !saAllowed s pk.part pk.addr n || !saShared s pk.addr then
    .next (emit (meshTaken (logPartition s (askerOf pk.srcEp) pk.part pk.addr) pk) (.mesh (answerOf pk 10 true (List.replicate n 0))))
  else
    let r := saRead (latent (touchBy s pk n) ecc) (askerOf pk.srcEp) pk.part pk.addr n
    let s1 := cacheWrite r.2.2 pk.addr (atomBytes spec.op spec.ty r.1 pk.data)
    .next (emit (meshTaken s1 pk) (.mesh (answerOf pk 10 r.2.1 r.1)))

/-! ## Responses at a core (R222) -/

/-- The outstanding request that a response names. -/
def meshFind (s : State) (c tag : Nat) : Option MeshReq := (s.mesh.find? (fun e => e.1 = tagKey c tag)).map Prod.snd

/-- Bytes of a request land in its ring; a faulted core discards them (R178). -/
def landBytes (s : State) (c q id off : Nat) (bs : List Byte) (poison : Option Nat) : State :=
  match (fqOf (getCore s c) q).reqs.find? (fun r => r.id = id) with
  | none => s
  | some r =>
    if coreFaulted s c then s else
    let s1 := modCore s c (fun k => ringPut k (fqOf k q) (r.off + off) bs)
    modFReq s1 c q id (fun r => { r with got := r.got + bs.length, poison := match r.poison with | some x => some x | none => poison })

/-- Bytes of a merged response land request by request (R226). -/
def landParts (s : State) (c q : Nat) : List (Nat × Nat × Nat) → List Byte → Option Nat → State
  | [], _, _ => s
  | x :: xs, bs, code => landParts (landBytes s c q x.1 x.2.1 (fitTo x.2.2 bs) code) c q xs (bs.drop x.2.2) code

/-- A response with data at a core: its tag is free and its bytes land; poison faults when the request arrives (R196). -/
def dataBack (s : State) (pk : Packet) : State :=
  let c := pk.dstRouter
  match meshFind s c pk.tag with
  | none => s
  | some m =>
    let code := if pk.poison then some (if saFenced s pk.addr then 0x806 else 0x803) else none
    meshFree (if m.put then s else landParts s c m.q ((m.id, m.off, m.len) :: m.more) pk.data code) c pk.tag

/-- MESH_READ_DATA (R222). -/
def execMeshReadData (pk : Packet) (s : State) : Res := .next (if onDie s && pk.dstEp = 0 then dataBack s pk else s)

/-- MESH_WRITE_ACK (R222). -/
def execMeshWriteAck (pk : Packet) (s : State) : Res :=
  .next (if onDie s && pk.dstEp = 0 && (meshFind s pk.dstRouter pk.tag).isSome then meshFree s pk.dstRouter pk.tag else s)

/-- MESH_ATOM_DATA (R205): old values into the named fetch queue, or nowhere. -/
def execMeshAtomData (pk : Packet) (s : State) : Res := .next (if onDie s && pk.dstEp = 0 then dataBack s pk else s)

/-! ## REMOTE queues (R172) -/

/-- The request of a REMOTE queue whose ring space holds a core-store address. -/
def remoteReq (k : Core) (a : Nat) : Option (Nat × FReq × Nat) :=
  (k.fq.filterMap (fun e =>
    let f := e.2
    let lo := (csAlloc k).1 + f.base
    if f.remote.isSome && decide (lo ≤ a) && decide (a < lo + f.size) then
      (f.reqs.find? (fun r => !r.arrived && decide ((a - lo + f.size - r.off % f.size) % f.size < round32 r.len))).map
        (fun r => (e.1, r, (a - lo + f.size - r.off % f.size) % f.size))
    else none)).head?

/-- Bytes of a packet land in the requests whose ring space they name: one request, or several whose puts merged (R226). -/
def landQueue : Nat → State → Nat → Nat → List Byte → Option Nat → State
  | 0, s, _, _, _, _ => s
  | k + 1, s, c, a, bs, code =>
    match remoteReq (getCore s c) a with
    | none => s
    | some x =>
      let n := min bs.length (x.2.1.len - x.2.2)
      if n = 0 then s else landQueue k (landBytes s c x.1 x.2.1.id x.2.2 (bs.take n) code) c (a + n) (bs.drop n) code

/-- MESH_QUEUE_DATA (R172, R219): the bytes of a put land in the consumer's ring; a fused core's port discards them. -/
def execMeshQueueData (pk : Packet) (s : State) : Res :=
  if !onDie s then .next s
  else
    let bs := fitTo (pkLen pk) pk.data
    let s1 := if fusedPort s pk then s else landQueue 16 s pk.dstRouter pk.addr bs (if pk.poison then some 0x803 else none)
    .next (emit (meshTaken s1 pk) (.mesh (answerOf pk 9 false [])))

/-- MESH_INTERRUPT (R221): the vector stands in ADDR (log 28). -/
def execMeshInterrupt (pk : Packet) (s : State) : Res := .next (if onDie s then raiseVec s (pk.addr % 2048) else s)

/-- MESH_REG_DATA (R221): a host read completes with the bytes. -/
def execMeshRegData (pk : Packet) (s : State) : Res :=
  .next (if onDie s && pk.dstEp = 4 then emit s (.bar 0 pk.data) else s)

/-- MESH_REG_ACK (R221): a register write was posted, so nothing follows. -/
def execMeshRegAck (pk : Packet) (s : State) : Res :=
  .next (if onDie s && pk.dstEp = 0 && (meshFind s pk.dstRouter pk.tag).isSome then meshFree s pk.dstRouter pk.tag else s)

/-- MESH_BAD_PACKET (R221, R244): a reserved TYPE is discarded and logged, with the packet's partition and the router that discards it, its first
(log 113). -/
def execMeshBadPacket (pk : Packet) (s : State) : Res :=
  .next (if onDie s && decide (13 ≤ pk.typ) then
    log s { code := 0x510, part := pk.part, loc := pk.srcRouter, payload := 2 ^ 43 * (pk.part % 16) + 5 * 2 ^ 40 + pk.srcRouter % 256 } else s)

/-! ## Flushing the shared cache (R207) -/

/-- SC_FLUSH (R207): a write of STK_SC_CTRL; discarded while BUSY. -/
def execScFlush (fn : Fin 18) (v : W64) (s : State) : Res :=
  let r := getReg s R.STK_SC_CTRL
  if !mayWrite s fn R.STK_SC_CTRL || r.getLsbD 63 then .next s
  else
    let p := fld v 11 8
    let s1 := setRegFld s R.STK_SC_CTRL 11 8 p
    if v.getLsbD 0 then
      let ls := (s1.stack.lines.filter (fun e => match e.2 with | some l => l.dirty && l.part = p | none => false)).map Prod.fst
      .next { setRegFld s1 R.STK_SC_CTRL 63 63 1 with stack := { s1.stack with flush := ls } }
    else .next s1

/-- SC_FLUSH_DONE (R207): every line named at the start is written back and stays valid. -/
def execScFlushDone (s : State) : Res :=
  if !onDie s || !(getReg s R.STK_SC_CTRL).getLsbD 63 then .next s
  else
    let p := fld (getReg s R.STK_SC_CTRL) 11 8
    let s1 := s.stack.flush.foldl (fun s g => match getLine s g with | some l => if l.part = p then lineBack s g else s | none => s) s
    .next { setRegFld s1 R.STK_SC_CTRL 63 63 0 with stack := { s1.stack with flush := [] } }

/-! ## Lane training (R211 to R214) -/

/-- Flash key of spare `k` of a column. -/
def repairKey (col k : Nat) : Nat := 128 * col + k

/-- Valid entries of a column's record. -/
def repairOf (s : State) (col : Nat) : Tbl Nat :=
  (List.range 128).filterMap (fun k =>
    let e := tget (fun _ => 0) s.flash.repair (repairKey col k)
    if nbit e 15 then some (k, e % 8192) else none)

/-- The repair map as flash holds it: 64 records of 128 entries of 16 bits (R212). -/
def mapBytes (t : Tbl Nat) : List Byte := (List.range 8192).flatMap (fun k => natLe (tget (fun _ => 0) t k) 2)

/-- The CRC at its end does not match. -/
def mapBad (s : State) : Bool := decide (crc32c (mapBytes s.flash.repair) ≠ s.flash.repairCrc)

/-- The map with its CRC. -/
def setMap (s : State) (t : Tbl Nat) : State := { s with flash := { s.flash with repair := t, repairCrc := crc32c (mapBytes t) } }

/-- The next free spare takes a failing lane, which a spare can replace unless it is one itself (R211); false when none is left. -/
def takeSpare (x : Col) (lane : Nat) : Col × Bool :=
  match (if laneUse lane = .spare then none else (List.range 128).find? (fun k => !x.spares.any (fun e => e.1 = k))) with
  | some k => ({ x with spares := tput x.spares k lane, used := x.used + 1 }, true)
  | none => (x, false)

/-- Location and payload of a column's record. -/
def colEvent (col code : Nat) : Ev := { code := code, loc := col, payload := 2 ^ 41 * col }

/-- LANE_TRAINING (R212, R213): the repair map is read, its entries applied, and a worn suspect lane replaced. -/
def execLaneTraining (col : Fin 64) (s : State) : Res :=
  let x := getCol s col
  if !(s.phase = .training || s.phase = .warm) || x.st ≠ 0 && !x.fenced || x.training then .next s
  else
    let s1 := if mapBad s then log (setMap s []) (colEvent col 0x807) else s
    let rs := repairOf s1 col
    let x1 := { x with st := 0, training := true, spares := rs, used := rs.length }
    let worn := match x.suspect with | some l => decide (1024 < tget (fun _ => 0) x.corrected l) | none => false
    let r := if worn then takeSpare x1 (x.suspect.getD 0) else (x1, false)
    let s2 := modCol s1 col (fun _ => { r.1 with corrected := [], suspect := none })
    .next (if r.2 then log s2 (colEvent col 0x804) else s2)

/-- Failing lanes take spares in order; false when the spares ran out. -/
def repairLanes (s : State) (col : Nat) : List Nat → State × Bool
  | [] => (s, true)
  | l :: ls =>
    let r := takeSpare (getCol s col) l
    if r.2 then repairLanes (log (modCol s col (fun _ => r.1)) (colEvent col 0x804)) col ls else (s, false)

/-- The column's record goes back to flash. -/
def saveRepair (s : State) (col : Nat) : State :=
  let x := getCol s col
  let t := x.spares.foldl (fun t e => tset (fun _ => 0) t (repairKey col e.1) (e.2 + 32768)) s.flash.repair
  if t = s.flash.repair then s else setMap s t

/-- A fence is placed on a column (R214). -/
def fenceColumn (s : State) (col : Nat) : State :=
  log (modCol s col (fun x => { x with st := 3, training := false, fenced := true })) (colEvent col 0x806)

/-- Every byte of a column at zero, without poison (R214). -/
def zeroColumn (s : State) (col : Nat) : State :=
  { s with stack := { s.stack with
      bytes := tclear s.stack.bytes (fun a => saColumn a = col)
      poison := tclear s.stack.poison (fun k => saColumn (k * 32) = col)
      errs := tclear s.stack.errs (fun k => saColumn (k * 32) = col) } }

/-- COLUMN_FAILED (R214): the column is fenced. -/
def execColumnFailed (col : Fin 64) (s : State) : Res :=
  .next (if onDie s && !(getCol s col).fenced then fenceColumn s col else s)

/-! ## Regulators (R200) -/

/-- Partitions in round-robin order after the one last served. -/
def afterLast (last : Nat) : List Nat := (List.range 16).map (fun i => (last + 1 + i) % 16)

/-- Buckets after the gain of one MEM cycle. -/
def gainBuckets (s : State) (r : Reg) : Reg :=
  (List.range (partCount s)).foldl (fun r p =>
    { r with
      guar := tset (fun _ => 0) r.guar p (min 800 (tget (fun _ => 0) r.guar p + s.tun.cur.guarantee.getD p 0))
      ceil := tset (fun _ => 0) r.ceil p (min 800 (tget (fun _ => 0) r.ceil p + s.tun.cur.ceiling.getD p 0)) }) r

def guarOf (r : Reg) (p : Nat) : Nat := tget (fun _ => 0) r.guar p
def ceilOf (r : Reg) (p : Nat) : Nat := tget (fun _ => 0) r.ceil p

/-- The grant of one cycle: the partition served and the buckets after it. -/
def grantSlot (r : Reg) (waiting : List Nat) : Option Nat × Reg :=
  match (afterLast r.last2).find? (fun p => waiting.contains p && decide (100 ≤ guarOf r p) && decide (100 ≤ ceilOf r p)) with
  | some p => (some p, { r with
      guar := tset (fun _ => 0) r.guar p (guarOf r p - 100)
      ceil := tset (fun _ => 0) r.ceil p (ceilOf r p - 100), last2 := p })
  | none =>
    match (afterLast r.last3).find? (fun p => waiting.contains p && decide (100 ≤ ceilOf r p)) with
    | some p => (some p, { r with ceil := tset (fun _ => 0) r.ceil p (ceilOf r p - 100), last3 := p })
    | none => (none, r)

/-- Add one to a 32-bit half of a counter register. -/
def bumpHalf (s : State) (k : Nat) (hi : Bool) : State :=
  if hi then modReg s k (fun w => setFld w 63 32 ((fld w 63 32 + 1) % 2 ^ 32))
  else modReg s k (fun w => setFld w 31 0 ((fld w 31 0 + 1) % 2 ^ 32))

/-- Slots that a partition's accesses have yet to take in one direction of a column. -/
def owedSlots (s : State) (col : Nat) (write : Bool) (p : Nat) : Nat := tget (fun _ => 0) s.stack.owed (owedKey col write p)

/-- COLUMN_PORT_SLOT (R200, R202, R216): one MEM cycle of one direction. The partitions whose accesses have slots to take wait; the one that is granted
takes one (log 114). The counts are those of the monitored partition. -/
def execColumnPortSlot (row col8 : Fin 8) (write : Bool) (s : State) : Res :=
  let col := 8 * row.val + col8.val
  if !onDie s then .next s
  else
    let ws := (List.range (partCount s)).filter (fun p => decide (0 < owedSlots s col write p))
    let r0 := tget (fun _ => {}) (if write then s.stack.wr else s.stack.rd) col
    let g := grantSlot (gainBuckets s r0) ws
    let k := if write then { s.stack with wr := tset (fun _ => {}) s.stack.wr col g.2 }
      else { s.stack with rd := tset (fun _ => {}) s.stack.rd col g.2 }
    let k1 := match g.1 with
      | some p => { k with owed := tset (fun _ => 0) k.owed (owedKey col write p) (owedSlots s col write p - 1) }
      | none => k
    let s1 := { s with stack := k1 }
    let m := fld (getReg s R.STK_MON_SEL) 3 0
    .next (if g.1 = some m then bumpHalf s1 (R.STK_COL_GRANT col) write
      else if ws.contains m then bumpHalf s1 (R.STK_COL_WAIT col) write else s1)

end Sys2Proof.Machine
end

