-- ==== Sys2Proof/Machine/Tuning.lean ====
section
/-! DEFINITION. Loading, committing and zeroising a Tuning structure (R50 to R59). -/

namespace Sys2Proof.Machine

/-- STATE of TUN_STATUS is not READY (R52). -/
def tunBusy (s : State) : Bool := fld (getReg s R.TUN_STATUS) 1 0 != 0

/-- What clamping needs of this module. -/
def clampEnv (s : State) : ClampEnv := ⟨s.part.grade, s.part.fused ++ s.flash.quarantine, s.tun.runtime⟩

/-- A structure as far as partition `p` is concerned (R56, R203). -/
def partShape (grade : Nat) (t : Tuning) (p : Nat) : List Nat :=
  if t.partCount ≤ p then [] else
  let w := 1048576 * (67108864 * t.shared / t.partCount / 1048576)
  [(t.cores.getD p 0).toNat, (t.strings.getD p 0).toNat, t.base.getD p 0, t.size.getD p 0, t.swap.getD p 0,
   67108864 * (spaceTop grade t.residue t.shared) + p * w, w]

/-- Partitions whose structure differs between two structures (R56). -/
def changedParts (grade : Nat) (a b : Tuning) : List Nat :=
  (List.range 16).filter (fun p => partShape grade a p != partShape grade b p)

/-- Does a changing field lack the idleness of its scope (R53). -/
def notIdle (s : State) (t : Tuning) : Bool :=
  let c := s.tun.cur
  let fs (l : List Nat) : List Nat := l.filter (fun n => n != 0)
  let modChange := c.cooling != t.cooling || c.rampUp != t.rampUp || c.rampDown != t.rampDown || c.seamCut != t.seamCut ||
    fs c.strLens != fs t.strLens || c.partCount != t.partCount || c.residue != t.residue || c.shared != t.shared ||
    c.shape != t.shape || c.extents != t.extents || c.roles != t.roles || c.own != t.own
  let partChange (p : Nat) : Bool := (partShape s.part.grade c p).take 5 != (partShape s.part.grade t p).take 5
  (modChange && !moduleIdle s) || (List.range 16).any (fun p => partChange p && !partIdle s p)

/-- Disable a feature whose claim ends (R50, R51). -/
def stopFeature (s : State) (f : Nat) : State :=
  if f = 3 then
    let s1 := setRegFld s R.DBG_CTRL 0 0 0
    if fld (getReg s R.DBG_STATUS) 1 0 = 2 then recStop s1 0x520 else setRegFld s1 R.DBG_STATUS 1 0 0
  else if f = 4 then setRegFld (setRegFld s R.DBG_CTRL 5 5 0) R.DBG_STATUS 4 4 0
  else if f = 8 then setRegFld s R.PWR_TELEM_CTRL 0 0 0
  else if f = 9 then
    { s with parts := tmap (fun _ => {}) s.parts (fun _ x => { x with progs := tmap (fun _ => none) x.progs (fun _ q => q.map (fun g => { g with watchdog := false })) }) }
  else s

/-- Revoke the run-time claims that a structure takes over; a different feature is disabled (R51). -/
def revokeClaims (s : State) (t : Tuning) : State :=
  let hit := s.tun.runtime.filter (fun c => t.own.any (fun v => claimRes v = c.res))
  hit.foldl (fun s c =>
    let s1 := dropRes s c.res
    if t.own.any (fun v => claimRes v = c.res && claimFeat v = claimFeat c.value) then s1 else stopFeature s1 (claimFeat c.value)) s

/-- Block ranges that a commit gives the partitions (R271). -/
def commitRanges (s : State) : State :=
  let n := 64 * (usableBlocks s / partCount s / 64)
  (List.range 16).foldl (fun s p =>
    setReg s (R.GRX_PART_BLOCKS p) (if p < partCount s then at_ (p * n) 0 ||| at_ n 32 else 0)) s

/-- Areas of the stack that a partition holds under the structure in force. -/
def partAreas (s : State) (p : Nat) : List (Nat × Nat) :=
  if p < partCount s then [(regionBase s p, regionSize s p), (windowBase s p, windowSize s)] ++ blockAreas s p else []

/-- Sideband pins whose owner a commit changes (R435): a driven level ends, a new input ignores its level for 1 microsecond, and THROTTLE_OUT drives its pin. -/
def pinsAfter (a b : State) : State :=
  throttlePin ([0, 1].foldl (fun s r =>
    let f (s : State) : Option Nat := (ownerOf s r).map (fun v => claimFeat v.1)
    if f a = f b then s
    else
      let s1 := if (getGpx s r).high then emit s (.pin r false) else s
      modGpx s1 r (fun _ => { takenAt := some s.clk.time })) b) (decide (b.pwr.band = 2))

/-- TUN_ACTIVE_HASH shows a digest (R57, R58, R446). -/
def showHash (s : State) (d : List Byte) : State :=
  (List.range 6).foldl (fun s i => setReg s (R.TUN_ACTIVE_HASH i) (BitVec.ofNat 64 (leAt d (8 * i) 8))) s

/-- Every port goes down and trains with the new values (R250); a timed stream that this module sends loses its path and is suspended, since none can be
admitted while no port is UP (R264). -/
def fabCommit (s : State) : State :=
  let mine := s.fab.holds.filter (fun h => h.2.fromPort.isNone && h.2.committed)
  let s1 := eachPort { s with fab := { s.fab with broken := [], holds := [] } } portRestart
  mine.foldl (fun s h =>
    admitStatus (fabStream (modRt s h.2.adm.srcStream (fun r => { r with e2e := { r.e2e with suspended := true } })) 0x60A (some h.1) h.2.adm.srcStream)
      0x608 1 1) s1

/-- Commit a structure (R54 order 5): disabled arrays and Strings are laid again, changed partitions await their zeroise (R56),
run-time claims are revoked (R51), ports train again when the fabric changed (R250). -/
def commitTuning (s : State) (t : Tuning) : State :=
  let ch := changedParts s.part.grade s.tun.cur t
  let dis := s.part.fused ++ s.flash.quarantine
  let s1 := revokeClaims s t
  let old := ch.flatMap (fun p => (partAreas s1 p).map (fun a => (p, a)))
  let oldC := (List.range 256).filter (fun c => ch.any (fun p => (coreMask s1 p).getLsbD c))
  let fab := s.tun.cur.shape != t.shape || s.tun.cur.extents != t.extents || s.tun.cur.roles != t.roles
  let s2 := commitRanges { s1 with tun := { s1.tun with cur := t, geom := layGeom t dis, disabled := dis } }
  let newA := ch.flatMap (fun p => (partAreas s2 p).map (fun a => (p, a)))
  let newC := (List.range 256).filter (fun c => ch.any (fun p => (coreMask s2 p).getLsbD c))
  let s3 := { s2 with tun := { s2.tun with zeroising := ch, oldRegions := old ++ newA, oldCores := (List.range 256).filter (fun c => oldC.contains c || newC.contains c) } }
  let s4 := pinsAfter s s3
  if fab then fabCommit s4 else s4

/-- A load ends (R54 order 7, R59): READY, its record, the completion interrupt. -/
def endLoad (s : State) (code : Nat) : State :=
  raiseCause (log (setRegFld (setRegFld s R.TUN_STATUS 1 0 0) R.TUN_STATUS 12 8 0) { code := code }) 0 1

/-- Outcome by rank (R59). -/
def tuningLoadCode (p : TParse) (idle : Bool) (ents : List RepEnt) : Nat :=
  if p.bad then 0x104 else if !idle then 0x105 else if p.trunc then 0x103 else if p.crcBad then 0x102
  else if ents.isEmpty then 0x100 else 0x101

/-- A fenced column (R214). -/
def anyFenced (s : State) : Bool := s.stack.cols.any (fun c => c.2.fenced)

/-- Outcome of a load that a fenced column refuses: the manual names no value of CODE (log 13). -/
def fencedCode (s : State) : Nat := (Config.freeWord s.free).toNat % 65536

/-- Write the clamp report where the load's source reads it (R48). -/
def writeReport (s : State) (bus : Bool) (ents : List RepEnt) : State :=
  if bus then { s with tun := { s.tun with busReport := ents.take 4096 } }
  else
    let cap := min 4096 (getReg s R.TUN_REPORT_CAP).toNat
    if (ents.take cap).isEmpty then s
    else hostWrite s 0 (getReg s R.TUN_REPORT_ADDR).toNat ((ents.take cap).flatMap repBytes)

/-- TUN_STATUS after orders 1 to 3 (R58). -/
def loadStatus (s : State) (bus chk : Bool) (p : TParse) (n code : Nat) : State :=
  let cap := if bus then 4096 else min 4096 (getReg s R.TUN_REPORT_CAP).toNat
  setReg s R.TUN_STATUS (at_ code 32 ||| at_ (satAt 8191 n) 19 ||| at_ (b2n (decide (cap < n) || decide (8191 < n))) 18 |||
    at_ (b2n p.crcBad) 17 ||| at_ (b2n p.trunc) 16 ||| at_ (b2n chk) 15)

/-- A load (R54), from the physical function or the management bus: `bytes` are the bytes supplied. -/
def loadTuning (s0 : State) (bus chk : Bool) (bytes : List Byte) : State :=
  if tunBusy s0 then measure (log s0 { code := 0x106 }) 2 (if bus then 3 else 1) (b2n chk) 0x106 0xFF (sha384 bytes) [] else
  let s := recInput s0 5 0xFF 0 0 bytes
  let p := parseImage bytes
  let r := if p.bad then (s.tun.cur, []) else clampImage (clampEnv s) p.recs
  let fenced := !p.bad && anyFenced s && r.1 != defaultTuning s.part.grade (clampEnv s).disabled
  let idle := p.bad || !notIdle s r.1
  let code := if fenced && idle then fencedCode s else tuningLoadCode p idle r.2
  let go := !p.bad && idle && !fenced && !chk
  let s1 := if fenced then { s with free := s.free + 1 } else s
  let s2 := loadStatus (writeReport s1 bus r.2) bus chk p r.2.length code
  let s3 := measure s2 2 (if bus then 3 else 1) (b2n chk) code 0xFF (sha384 bytes) (if go then tuningDigest r.1 else [])
  if !go then endLoad s3 code else
  let s4 := showHash (commitTuning s3 r.1) (tuningDigest r.1)
  let s5 := { s4 with tun := { s4.tun with endCode := code, busLoad := bus, imageId := leAt bytes 16 8 } }
  if s5.tun.zeroising.isEmpty then endLoad s5 code
  else setRegFld (setRegFld s5 R.TUN_STATUS 1 0 3) R.TUN_STATUS 12 8 s5.tun.zeroising.length

/-- A load, from the bus or the physical function: refused while another is under way, served at once, or held with STATE PARSING until its turn
(R20, R52, R354). -/
def offerLoad (s : State) (bus chk : Bool) (bytes : List Byte) : State :=
  if tunBusy s || coreNow s then loadTuning s bus chk bytes
  else
    let q := pushJob s (.load bus chk bytes)
    setRegFld { q with tun := { q.tun with busLoad := bus } } R.TUN_STATUS 1 0 1

/-- A load of the physical function. -/
def hostLoad (s : State) (chk : Bool) (image : List Byte) : State :=
  offerLoad s false chk (image.take (min 1048576 (getReg s R.TUN_IMAGE_LEN).toNat))

/-- TUNING_LOAD (R54): a LOAD write of the physical function; other functions have no TUN block (R52). -/
def execTuningLoad (fn : Fin 18) (image : List Byte) (s : State) : Res :=
  if fn.val = 0 && mayWrite s fn R.TUN_CTRL then .next (hostLoad s false image) else .next s

/-- TUNING_CHECK_ONLY (R54, R59): orders 1 to 4 only. -/
def execTuningCheckOnly (fn : Fin 18) (image : List Byte) (s : State) : Res :=
  if fn.val = 0 && mayWrite s fn R.TUN_CTRL then .next (hostLoad s true image) else .next s

/-- A core's store and accumulator banks at zero, its groups CLOSED (R56, R67). -/
def zeroCore (s : State) (c : Nat) : State :=
  let s1 := modCore s c (fun k => { k with store := [] })
  modArr (modArr s1 (2 * c) (fun a => { a with groups := [] })) (2 * c + 1) (fun a => { a with groups := [] })

/-- What a zeroise does to a partition beside its stack areas and cores (R56, R207, R368). -/
def zeroPart (s : State) (p : Nat) : State :=
  let r := strRange s p
  let s1 := { s with
    stack := { s.stack with lines := s.stack.lines.filter (fun l => match l.2 with | some x => x.part != p | none => false) }
    stm := { s.stm with
      table := tclear s.stm.table (inRange r)
      ctxs := tclear s.stm.ctxs (inRange r)
      pending := tclear s.stm.pending (inRange r)
      rt := tclear s.stm.rt (inRange r) } }
  dropKeys (endLock s1 p 0) p

/-- Zeroise the partitions that a commit changed. -/
def zeroiseAll (s : State) : State :=
  let s1 := s.tun.zeroising.foldl (fun s p => zeroAreas s p ((s.tun.oldRegions.filter (fun a => a.1 = p)).map Prod.snd)) s
  let s2 := s1.tun.oldCores.foldl zeroCore s1
  let s3 := s2.tun.zeroising.foldl zeroPart s2
  { s3 with tun := { s3.tun with zeroising := [], oldRegions := [], oldCores := [] } }

/-- A run-time claim that a feature can make (R49, R50). -/
def claimValue (feature res part : Nat) : Nat := res + 256 * feature + (if featPart feature then 65536 * part else 0)

/-- FEATURE_ENABLE (R50): takes an unowned resource, or fails with RESOURCE_OWNED. A pair that R49 does not allow, and a resource that the same
feature owns already, change nothing and log nothing: R50 does not say, this is the model's choice (log 121). -/
def execFeatureEnable (feature res part : Nat) (s : State) : Res :=
  if !fwUp s || !featCan feature res || (featPart feature && partCount s ≤ part) then .next s else
  match ownerOf s res with
  | some o => if claimFeat o.1 = feature then .next s else .next (log s { code := 0x107, loc := res, payload := o.1 })
  | none => .next (takeRes s res (claimValue feature res part))

/-- FEATURE_DISABLE (R50): releases the resource that the feature holds at run time; a claim through Tuning stays. -/
def execFeatureDisable (feature res : Nat) (s : State) : Res :=
  if fwUp s && s.tun.runtime.any (fun c => c.res = res && claimFeat c.value = feature) then
    .next (stopFeature (dropRes s res) feature)
  else .next s

end Sys2Proof.Machine
end

