-- ==== Sys2Proof/Machine/Programs.lean ====
section
/-! DEFINITION. Program images: checks, placement, loading and unloading (R29 to R35, R137, R143 to R145, R180 to R190, R208, R209, R269 to
R271, R286). -/

namespace Sys2Proof.Machine

/-! ## The image (R185 to R187) -/

/-- Offset and length of section `k` (R185). -/
def secAt (b : List Byte) (k : Nat) : Nat × Nat := (leAt b (32 + 8 * k) 4, leAt b (36 + 8 * k) 4)
/-- Bytes of section `k`. -/
def secBytes (b : List Byte) (k : Nat) : List Byte := (b.drop (secAt b k).1).take (secAt b k).2
/-- Bytes that are all zero. -/
def zeroAt (b : List Byte) (o n : Nat) : Bool := leAt b o n = 0

/-- VCORES, VSTRINGS, GROUPS of the header. -/
def imgCores (b : List Byte) : Nat := leAt b 12 2
def imgStrs (b : List Byte) : Nat := leAt b 14 1
def imgGroups (b : List Byte) : Nat := leAt b 15 1

/-- The header is legal: identity, length, reserved fields, PLACED, sections inside the image. -/
def headerOk (b : List Byte) (avail : Nat) : Bool :=
  let n := leAt b 8 4
  decide (128 ≤ b.length) && leAt b 0 4 = 0x47525059 && leAt b 4 2 = 1 && zeroAt b 6 2 && decide (128 ≤ n) && decide (n ≤ avail) &&
  decide (n ≤ b.length) && leAt b 24 4 = 1 && zeroAt b 28 4 && zeroAt b 112 16 &&
  (List.range 12).all (fun k => decide ((secAt b k).1 + (secAt b k).2 ≤ n)) &&
  decide (1 ≤ imgCores b) && decide (imgCores b ≤ 256) && decide (imgStrs b ≤ 128)

/-- A VCORE entry (R186), not yet placed. -/
def parseCore (e : List Byte) : VCore :=
  { code := leAt e 0 4, bundles := leAt e 4 2, unit := leAt e 6 1, trap := leAt e 7 1, size := leAt e 8 4, live := leAt e 12 4,
    initOff := leAt e 16 4, initLen := leAt e 20 4, phys := 0, tenant := 0, csBase := 0 }

def imgVCores (b : List Byte) : List VCore :=
  (List.range (imgCores b)).map (fun i => parseCore (((secBytes b 0).drop (32 * i)).take 32))

/-- A VCORE entry is legal: it stands in its section, its reserved bits are zero, and its fields keep the ranges of R186 (log 88). -/
def coreOk (b : List Byte) (i : Nat) : Bool :=
  let e := ((secBytes b 0).drop (32 * i)).take 32
  let v := parseCore e
  e.length = 32 && zeroAt e 24 8 && decide (v.trap < 32) && decide (1 ≤ v.bundles) && decide (v.bundles ≤ 4096) &&
  v.size % 4096 = 0 && decide (v.size ≤ 2097152) && v.live % 4096 = 0 && decide (v.live ≤ v.size) && decide (v.initLen ≤ v.size)

def imgVStrs (b : List Byte) : List VStr :=
  (List.range (imgStrs b)).map (fun i =>
    let e := (secBytes b 1).drop (8 * i)
    { len := leAt e 0 1, seamOk := nbit (leAt e 1 1) 0, phys := 0 })

/-- A VSTRING entry is legal: 4 to 64 frets, twice the number of its unit's virtual cores. -/
def vstrOk (b : List Byte) (i : Nat) : Bool :=
  let e := ((secBytes b 1).drop (8 * i)).take 8
  let n := leAt e 0 1
  e.length = 8 && decide (leAt e 1 1 ≤ 1) && zeroAt e 2 6 && decide (4 ≤ n) && decide (n ≤ 64) &&
  n = 2 * ((imgVCores b).filter (fun v => v.unit = i)).length

def imgSegs (b : List Byte) : List Segment :=
  (List.range ((secAt b 4).2 / 16)).map (fun i =>
    let e := (secBytes b 4).drop (16 * i)
    { base := leAt e 0 8, size := leAt e 8 4, access := leAt e 12 1, kind := leAt e 13 1 })

/-- The placed image's own tables: every section but CODE and CS_INIT (log 88). -/
def tableAreas (addr : Nat) (b : List Byte) : List (Nat × Nat) :=
  (([0, 1, 4, 5, 6, 7, 8, 9].map (secAt b)).filter (fun x => x.2 != 0)).map (fun x => (addr + x.1, x.2))

/-- The SEGMENT section is legal: fields, bounds, no overlap, and no write access to the image's own tables (R186, R187). -/
def segsOk (s : State) (p addr : Nat) (b : List Byte) : Bool :=
  let xs := imgSegs b
  let room := regionSize s p - swapSize s p
  decide (xs.length ≤ 16) &&
  (List.range xs.length).all (fun i => zeroAt ((secBytes b 4).drop (16 * i)) 14 2) &&
  xs.all (fun x => x.base % 65536 = 0 && decide (x.access ≤ 2) && decide (x.kind ≤ 3) && relMapped s p x.base (65536 * x.size) &&
    (decide (regionSize s p ≤ x.base) || decide (x.base + 65536 * x.size ≤ room)) &&
    !(x.access = 2 && (tableAreas addr b).any (fun r => overlap x.base (65536 * x.size) r.1 r.2))) &&
  xs.zipIdx.all (fun x => xs.zipIdx.all (fun y => x.2 = y.2 || !overlap x.1.base (65536 * x.1.size) y.1.base (65536 * y.1.size)))

/-! ## The schedule table (R137, R143 to R145) -/

/-- A slot entry (R144). -/
def parseSlot (e : List Byte) : SlotEnt :=
  { typ := leAt e 0 1, stage := leAt e 1 1, ctx := leAt e 2 1, variant := nbit (leAt e 3 1) 0, layerFirst := leAt e 4 2,
    layerCount := leAt e 6 2, entry := leAt e 8 4, blocks := leAt e 12 2, pair := leAt e 14 2
    waitStream := if leAt e 16 4 = 0xFFFFFFFF then none else some (leAt e 16 4)
    waitCount := leAt e 20 4, alt := leAt e 24 2, tag := leAt e 28 4 }

/-- The schedule table of an image. -/
def parseSched (d : List Byte) : Sched :=
  { mainSlots := leAt d 8 2
    slots := (List.range (leAt d 8 2 + leAt d 10 2)).map (fun i => parseSlot (d.drop (64 + 32 * i)))
    layers := leAt d 12 2, stashBase := leAt d 16 8, stashBlocks := leAt d 24 4, watchdogMs := leAt d 28 4
    layerTable := leAt d 32 8, status := leAt d 40 8 }

/-- One slot entry is legal (R144, R145): reserved values and fields, its PAIR, its ALT. An entry's place says whether it is a variant (log 88). -/
def slotOk (d : List Byte) (t : Sched) (i : Nat) : Bool :=
  let b := d.drop (64 + 32 * i)
  let e := parseSlot b
  let variant := decide (t.mainSlots ≤ i)
  decide (1 ≤ e.typ) && decide (e.typ ≤ 3) && decide (e.stage < 8) && decide (e.ctx < 64) && decide (leAt b 3 1 ≤ 1) && zeroAt b 26 2 &&
  (match e.waitStream with | some x => decide (x < 1048576) | none => true) &&
  (e.typ = 1 || (decide (e.pair < t.mainSlots) && (variant || decide (e.pair < i)) &&
    (match t.slots[e.pair]? with | some f => f.typ = 1 && f.ctx = e.ctx | none => false))) &&
  (if e.alt = 0xFFFF then e.typ ≠ 2 || (match t.slots[e.pair]? with | some f => f.alt = 0xFFFF | none => false)
   else e.typ = 3 || (decide (t.mainSlots ≤ e.alt) &&
    (match t.slots[e.alt]? with | some a => (e.typ = 1 && a.typ = 1) || (e.typ = 2 && a.typ = 3) | none => false))) &&
  (!variant || t.slots.all (fun x => x.alt ≠ i) || (t.slots.take t.mainSlots).any (fun x => x.alt = i))

/-- One layer entry is legal (R136, R145). -/
def layerOk (l : List Byte) (i : Nat) : Bool :=
  let e := (l.drop (32 * i)).take 32
  e.length = 32 && decide (leAt e 0 1 < 16) && [1, 2, 5, 7].contains (leAt e 2 1) && zeroAt e 20 4 && (nbit (leAt e 0 1) 3 || leAt e 1 1 = 0)

/-- The schedule table and the layer table are legal (R137, R145); MAGIC and VERSION are those of R143, and the entries stand in the section
(log 88). -/
def schedOk (s : State) (p : Nat) (b : List Byte) : Bool :=
  let d := secBytes b 5
  let t := parseSched d
  let n := t.slots.length
  leAt d 0 4 = 0x48435354 && leAt d 4 2 = 1 && decide (64 + 32 * n ≤ d.length) && zeroAt d 14 2 && zeroAt d 48 16 &&
  decide (leAt d 6 1 ≤ 8) && decide (leAt d 7 1 ≤ 64) &&
  t.stashBase % 65536 = 0 && decide (t.stashBase + 65536 * t.stashBlocks ≤ regionSize s p - swapSize s p) &&
  (List.range n).all (slotOk d t) && (List.range t.layers).all (layerOk (secBytes b 6))

/-- The STASH segment coincides with the stash region (R186). -/
def stashSegOk (b : List Byte) : Bool :=
  let t := parseSched (secBytes b 5)
  let xs := (imgSegs b).filter (fun x => x.kind = 2)
  if t.stashBlocks = 0 then xs.all (fun x => x.size = 0)
  else match xs with
    | [x] => x.base = t.stashBase && x.size = t.stashBlocks
    | _ => false

/-! ## Placement (R180, R181) -/

/-- What has been placed: String of each virtual String, tenants of each String and core, core and tenant of each virtual core. -/
structure Placing where
  strs : Tbl (Option Nat) := []
  strUse : Tbl Nat := []
  use : Tbl Nat := []
  cores : Tbl (Option (Nat × Nat)) := []
  bad : Bool := false

def zeroNat : Nat → Nat := fun _ => 0

/-- Physical Strings eligible for a virtual String, in number order (R180). -/
def eligible (s : State) (p : Nat) (v : VStr) : List Nat :=
  (List.range s.tun.geom.length).filter (fun n => match strGeom s n with
    | some g => (strMask s p).getLsbD n && g.frets.length = v.len && (v.seamOk || !g.seam)
    | none => false)

/-- Put a virtual core on a core, as its next tenant; a fifth fails (R181). -/
def putCore (x : Placing) (v c : Nat) : Placing :=
  let t := tget zeroNat x.use c
  { x with use := tset zeroNat x.use c (t + 1), cores := tset (fun _ => none) x.cores v (some (c, t)), bad := x.bad || decide (4 ≤ t) }

/-- Put a virtual String on a physical String: virtual core i on the core of frets 2i and 2i + 1. -/
def putStr (s : State) (vs : List VCore) (x : Placing) (v n : Nat) : Placing :=
  let mine := (vs.zipIdx.filter (fun c => c.1.unit = v)).map Prod.snd
  let fr := match strGeom s n with | some g => g.frets | none => []
  let x1 := { x with strs := tset (fun _ => none) x.strs v (some n), strUse := tmod zeroNat x.strUse n (· + 1) }
  mine.zipIdx.foldl (fun x c => putCore x c.1 (fr.getD (2 * c.2) 0 / 2)) x1

/-- Strings placed on free Strings first, then on the least used (R181, 1 and 2). -/
def placeStrs (s : State) (p : Nat) (strs : List VStr) (vs : List VCore) : Placing :=
  let first := strs.zipIdx.foldl (fun x v =>
    let el := eligible s p v.1
    let free := el.filter (fun n => tget zeroNat x.strUse n = 0)
    if el.isEmpty then { x with bad := true }
    else if free.contains v.2 then putStr s vs x v.2 v.2
    else match free.head? with | some n => putStr s vs x v.2 n | none => x) ({} : Placing)
  strs.zipIdx.foldl (fun x v =>
    if (tget (fun _ => none) x.strs v.2).isSome then x
    else match leastBy (tget zeroNat x.strUse) (eligible s p v.1) with
      | some n => putStr s vs x v.2 n
      | none => { x with bad := true }) first

/-- Solo units after the Strings (R181, 4 and 5): own core, nearest free core, then the least used and nearest. -/
def placeSolo (s : State) (p : Nat) (vs : List VCore) (x : Placing) : Placing :=
  let mine := (List.range 256).filter (fun c => (coreMask s p).getLsbD c)
  let solo := (vs.zipIdx.filter (fun c => c.1.unit = 0xFF)).map Prod.snd
  let first := solo.foldl (fun x v =>
    let free := mine.filter (fun c => tget zeroNat x.use c = 0)
    match leastBy (hops v) free with
    | some c => putCore x v c
    | none => x) x
  solo.foldl (fun x v =>
    if (tget (fun _ => none) x.cores v).isSome then x
    else match leastBy (fun c => 64 * (tget zeroNat x.use c) + hops v c) mine with
      | some c => putCore x v c
      | none => { x with bad := true }) first

def place (s : State) (p : Nat) (strs : List VStr) (vs : List VCore) : Placing := placeSolo s p vs (placeStrs s p strs vs)

/-- The PLACEMENT section says what R180 and R181 give (R187). -/
def placementMatches (b : List Byte) (x : Placing) : Bool :=
  let d := secBytes b 9
  let nv := imgCores b
  decide (4 * nv + imgStrs b ≤ d.length) &&
  (List.range nv).all (fun i => match tget (fun _ => none) x.cores i with
    | some c => leAt d (4 * i) 4 = c.1 + 256 * c.2
    | none => false) &&
  (List.range (imgStrs b)).all (fun i => match tget (fun _ => none) x.strs i with
    | some n => leAt d (4 * nv + i) 1 = n
    | none => false)

/-- Virtual cores as placed, with the base of each allocation: side by side when the core's tenants fit, else 0 (R184). -/
def placedCores (vs : List VCore) (x : Placing) : List VCore :=
  let at1 := vs.zipIdx.map (fun v => match tget (fun _ => none) x.cores v.2 with
    | some c => { v.1 with phys := c.1, tenant := c.2 }
    | none => v.1)
  at1.map (fun v =>
    let mates : List VCore := at1.filter (fun w => w.phys = v.phys)
    if 2097152 < mates.foldl (fun a (w : VCore) => a + w.size) (0 : Nat) then v
    else { v with csBase := (mates.filter (fun w => decide (w.tenant < v.tenant))).foldl (fun a (w : VCore) => a + w.size) (0 : Nat) })

/-! ## The GROUP section (R269, R270) -/

/-- Header of the GROUP section, absent when the section is empty. -/
def imgHdr (b : List Byte) : Option GrpHdr :=
  let d := secBytes b 8
  if d.isEmpty then none
  else some { dims := leAt d 0 1, policy := leAt d 1 1, epochAddr := leAt d 8 8, base0 := leAt d 16 8, base1 := leAt d 24 8, size := leAt d 32 4 }

def parseGroup (e : List Byte) : GroupDef :=
  { slot := leAt e 0 1, dims := leAt e 1 1, initScale := leAt e 2 2, first := leAt e 4 4, blocks := leAt e 8 4, feed := leAt e 12 4,
    enc := leAt e 16 4, result := leAt e 20 4 }

def imgGrps (b : List Byte) : List GroupDef :=
  (List.range (imgGroups b)).map (fun i => parseGroup ((secBytes b 8).drop (64 + 32 * i)))

/-- A stream that a group may use: KIND 0 of the partition, ring in the stack, produced or consumed by cores (R270). -/
def groupStream (s : State) (p idx : Nat) (prod : Bool) : Bool :=
  let e := entryOf s idx
  partOfIdx s idx = some p && eEnabled e && e.kind = 0 && eRingStack e && eCoreProd e = prod && eCoreCons e = !prod

/-- The first byte of a range from `a` that no segment with read and write access holds: each such segment in turn carries the range on. -/
def rwReach (segs : List Segment) (a : Nat) : Nat :=
  segs.foldl (fun a _ => segs.foldl (fun a x =>
    if x.access = 2 && decide (x.base ≤ a) && decide (a < x.base + 65536 * x.size) then x.base + 65536 * x.size else a) a) a

/-- Every byte of a range lies in a segment with read and write access (R270). -/
def inRw (segs : List Segment) (a n : Nat) : Bool := decide (a + n ≤ rwReach segs a)

/-- One group entry is legal (R270). -/
def groupOk (s : State) (p : Nat) (b : List Byte) (h : GrpHdr) (i : Nat) (g : GroupDef) : Bool :=
  let e := (secBytes b 8).drop (64 + 32 * i)
  let r := partBlocks s p
  let lo := r.1 + g.first
  let others := (imgGrps b).zipIdx.filter (fun x => x.2 != i)
  decide (g.slot < 16) && decide (1 ≤ g.dims) && decide (g.dims < 16) && zeroAt e 24 8 && decide (g.feed < 1048576) &&
  decide (g.enc < 1048576) && decide (g.result < 1048576) &&
  (List.range 4).all (fun d => !nbit g.dims d || (nbit h.dims d && extentOf s d != 1)) &&
  others.all (fun x => x.1.slot != g.slot && !overlap lo g.blocks (r.1 + x.1.first) x.1.blocks) && (getGrp s g.slot).isNone &&
  decide (1 ≤ g.blocks) && decide (g.first + g.blocks ≤ r.2) &&
  s.grx.grps.all (fun x => match x.2 with | some y => !overlap lo g.blocks (blockOf s y 0) y.blocks | none => true) &&
  decide (0x0080 ≤ g.initScale) && decide (g.initScale ≤ 0x7F7F) &&
  groupStream s p g.feed false && groupStream s p g.result false && groupStream s p g.enc true

/-- The GROUP section is legal (R269, R270). -/
def groupsOk (s : State) (p : Nat) (b : List Byte) : Bool :=
  match imgHdr b with
  | none => imgGroups b = 0
  | some h =>
    let d := secBytes b 8
    let gs := imgGrps b
    let n := 65536 * h.size
    decide (64 + 32 * imgGroups b ≤ d.length) && decide (h.dims < 16) && decide (h.policy < 16) && bits h.policy 3 2 ≠ 3 &&
    zeroAt d 2 6 && zeroAt d 36 28 && (List.range 4).all (fun x => !nbit h.dims x || extentOf s x != 1) &&
    h.epochAddr % 8 = 0 && h.base0 % 65536 = 0 && h.base1 % 65536 = 0 && !(decide (0 < n) && overlap h.base0 n h.base1 n) &&
    inRw (imgSegs b) h.epochAddr 8 && (n = 0 || (inRw (imgSegs b) h.base0 n && inRw (imgSegs b) h.base1 n)) &&
    gs.zipIdx.all (fun g => groupOk s p b h g.2 g.1) &&
    (let ss := gs.flatMap (fun g => [g.feed, g.enc, g.result]); ss.eraseDups.length = ss.length)

/-! ## Loading (R188) -/

/-- The program that an image describes, with the partition's swap areas once it is loaded, or the code with which it is refused. -/
def checkImage (s : State) (p addr avail : Nat) (b : List Byte) : Except Nat (Prog × List SwArea) :=
  if !headerOk b avail || !(List.range (imgCores b)).all (coreOk b) || !(List.range (imgStrs b)).all (vstrOk b) || !segsOk s p addr b then
    .error 0xA08
  else if 16 < imgGroups b then .error 0xA0D
  else if !schedOk s p b then .error 0xB06
  else if !stashSegOk b then .error 0xA08
  else
    let vs := imgVCores b
    let x := place s p (imgVStrs b) vs
    if x.bad then .error 0xA09
    else if !placementMatches b x then .error 0xA08
    else
      let g : Prog :=
        { addr := addr, len := leAt b 8 4, hash := sha384 (b.take (leAt b 8 4)), vcores := placedCores vs x
          vstrs := (imgVStrs b).zipIdx.map (fun v => { v.1 with phys := (tget (fun _ => none) x.strs v.2).getD 0 })
          segs := imgSegs b, sched := parseSched (secBytes b 5), codeOff := (secAt b 2).1
          initOff := (secAt b 3).1, hdr := imgHdr b, groups := imgGrps b, watchdog := false, epoch := 0, stepNo := 0
          unloadReq := false }
      match placeAreas s p g with
      | none => .error 0xA0C
      | some l => if groupsOk s p b then .ok (g, l) else .error 0x70A

/-- STATE once no load runs: UNLOADING while an unload waits, else READY (R189). -/
def idleState (s : State) (p : Nat) : Nat := if (loadedProgs s p).any Prog.unloadReq then 3 else 0

/-- A program command of a partition ends: CODE, STATE, PROGRAM_DONE (R189, R390); a refusal is logged. -/
def progEnd (s : State) (p code : Nat) : State :=
  let s1 := setRegFld s (R.COR_PROG_STATUS p) 47 32 code
  let s2 := if (getPart s p).loading.isSome then s1 else setRegFld s1 (R.COR_PROG_STATUS p) 1 0 (idleState s p)
  raiseBoth (if code = 0 then s2 else log s2 { code := code, part := p }) p 2

/-- PROGRAM_BUSY: CODE says so, STATE stays (R188, R189). -/
def progBusy (s : State) (p : Nat) : State :=
  raiseBoth (log (setRegFld s (R.COR_PROG_STATUS p) 47 32 0xA0A) { code := 0xA0A, part := p }) p 2

/-- Programs loaded. -/
def progCount (s : State) (p : Nat) : Nat := (loadedProgs s p).length

/-- The index that a load gives its program: the lowest free one. R188 only says that PROGRAM shows it (DESIGN CHOICE, log 108). -/
def freeProg (s : State) (p : Nat) : Nat :=
  ((List.range 8).find? (fun k => (tget (fun _ => none) (getPart s p).progs k).isNone)).getD 0

/-- Bytes of the image that the module reads: IMAGE_LEN, as far as COR_PROG_LEN allows. -/
def readImage (s : State) (p addr avail : Nat) : List Byte × State :=
  let n := leNat (relBytes s p (addr + 8) 4)
  let m := min avail (max n 128)
  if relMapped s p addr m then let r := relRead s p addr m; (r.1, r.2.2) else ([], s)

/-- LOAD: check, measure, and begin to write, or refuse (R187, R188, R214). -/
def progLoad (s : State) (fn p : Nat) : State :=
  let addr := (getReg s (R.COR_PROG_ADDR p)).toNat
  let avail := (getReg s (R.COR_PROG_LEN p)).toNat
  let r := readImage s p addr avail
  let b := r.1.take (leAt r.1 8 4)
  let res := checkImage r.2 p addr avail r.1
  let code := if anyFenced s then fencedCode s else match res with | .error c => c | .ok _ => 0
  let dig := sha384 b
  let s1 := (List.range 6).foldl (fun s i => setReg s (R.COR_PROG_HASH p i) (BitVec.ofNat 64 (leAt dig (8 * i) 8))) r.2
  let s2 := recInput (measure s1 3 (srcOfFn fn) 0 code p dig []) 6 p 0 0 (dig ++ natLe addr 8)
  if anyFenced s then progEnd { s2 with free := s2.free + 1 } p code
  else match res with
    | .error c => progEnd s2 p c
    | .ok g =>
      let s3 := modPart s2 p (fun q => { q with loading := some (freeProg s2 p, g.1), areas := g.2 })
      setRegFld s3 (R.COR_PROG_STATUS p) 1 0 2

/-- UNLOAD waits for the next step boundary of the program (R188); for a program that is not loaded the command ends at once (log 89). -/
def progUnload (s : State) (p k : Nat) : State :=
  match tget (fun _ => none) (getPart s p).progs k with
  | none => progEnd s p 0
  | some _ =>
    let s1 := modPart s p (fun q => { q with progs := tmod (fun _ => none) q.progs k (fun x => x.map (fun g => { g with unloadReq := true })) })
    if (getPart s p).loading.isSome then s1 else setRegFld s1 (R.COR_PROG_STATUS p) 1 0 3

/-- A LOAD that R188 refuses: another load runs, or the partition holds eight programs; and while the partition is zeroised, before which it
accepts no program (R56, log 59). -/
def loadBusy (s : State) (p : Nat) : Bool :=
  (List.range 16).any (fun q => (getPart s q).loading.isSome) || decide (8 ≤ progCount s p) || s.tun.zeroising.contains p

/-- A command of COR_PROG_CTRL (R188, R189). -/
def progGo (s : State) (fn p off : Nat) (v : W64) : State :=
  let s := recInput s 7 p 0 0 (natLe off 4 ++ natLe v.toNat 8)
  let load := v.getLsbD 0
  if load && (v.getLsbD 1 || loadBusy s p) then progBusy s p
  else if load then progLoad s fn p
  else progUnload s p (fld v 10 8)

/-- A write of COR_PROG_CTRL: discarded under replay of the partition (R409). -/
def progCtrl (s : State) (fn c : Nat) (v : W64) : State :=
  let off := 0x1000000 + 0x10000 * c + 0x100
  match partOfCore s c with
  | none => s
  | some p =>
    if !mayWrite s fn off || isFused s c || fld v 1 0 = 0 || replaying s p then s
    else progGo s fn p off v

/-- PROGRAM_LOAD (R188): a write of COR_PROG_CTRL, with LOAD. -/
def execProgramLoad (fn : Fin 18) (c : Fin 256) (v : W64) (s : State) : Res := .next (progCtrl s fn c v)

/-- PROGRAM_UNLOAD (R188): a write of COR_PROG_CTRL, with UNLOAD. -/
def execProgramUnload (fn : Fin 18) (c : Fin 256) (v : W64) (s : State) : Res := .next (progCtrl s fn c v)

/-- The layer table as a program begins: CUR_FMT is INIT_FMT, and nothing has been evaluated (R135, R136). -/
def initLayers (s : State) (p : Nat) (g : Prog) : State :=
  (List.range g.sched.layers).foldl (fun s i =>
    let a := g.sched.layerTable + 32 * i
    let f := (relBytes s p (a + 2) 1).headD 0
    relWrite s p (a + 3) ([f, f] ++ List.replicate 15 0)) s

/-- Initial bytes of a virtual core. -/
def initBytes (s : State) (p : Nat) (g : Prog) (v : VCore) : List Byte := relBytes s p (g.addr + g.initOff + v.initOff) v.initLen

/-- A virtual core's swap copy: the first `n` bytes of its allocation, in its area, or in one that holds no context. -/
def saveInit (s : State) (p k : Nat) (g : Prog) (v : VCore) (n : Nat) : State :=
  let key := savedKey k v.phys v.tenant
  let id := if (getPart s p).saved.any (fun e => e.1 = key) then (tget (fun _ => noCtx) (getPart s p).saved key).area else freeArea s p v.phys
  let s1 := areaWrite s p (areaOf s p id) (fun i => decide (i < n)) (memWrite [] 0 ((initBytes s p g v).take n))
  modPart s1 p (fun q => { q with saved := tset (fun _ => noCtx) q.saved key { noCtx with area := id, bytes := n } })

/-- A virtual core that stands in core store; with tenant 0 every group of the core's arrays is CLOSED. -/
def writeInit (s : State) (p : Nat) (g : Prog) (v : VCore) : State :=
  let b := initBytes s p g v
  let s1 := modCore s v.phys (fun y => { y with store := memWrite (memZero y.store v.csBase v.size) v.csBase b })
  if v.tenant = 0 then modArr (modArr s1 (2 * v.phys) (fun a => { a with groups := [], split := 0 })) (2 * v.phys + 1) (fun a => { a with groups := [], split := 0 })
  else s1

/-- Write one virtual core of a program: into core store where the program's contexts stand in the core or none do, else its swap copy. -/
def writeTenant (s : State) (p k : Nat) (g : Prog) (v : VCore) : State :=
  if !isResident g v then saveInit s p k g v v.live
  else if residOf s p v.phys = none || residOf s p v.phys = some k then writeInit s p g v
  else saveInit s p k g v v.size

/-- Write the tenants of a program (R188, R419): cores in which nothing stands take its contexts; a program that runs shows its tenants. -/
def writeTenants (s : State) (p k : Nat) (g : Prog) (here : Bool) : State :=
  let s1 := g.vcores.foldl (fun s v => writeTenant s p k g v) s
  let s2 := modPart s1 p (fun q => { q with
    resid := (progCores g).foldl (fun t c => tmod (fun _ => none) t c (fun x => some (x.getD k))) q.resid })
  if here then loadCodes (showTenants s2 g) p g else s2

/-- Install a program's groups and write their first entries in both banks (R286). -/
def installGroups (s : State) (p k : Nat) (g : Prog) : State :=
  scaleFlush <| g.groups.foldl (fun s d =>
    let x : Grp :=
      { part := p, prog := k, dims := d.dims, initScale := d.initScale, first := d.first, blocks := d.blocks, feed := d.feed, enc := d.enc,
        result := d.result, policy := g.hdr.elim 0 GrpHdr.policy }
    let e := firstEntry s x
    (List.range d.blocks).foldl (fun s i => scalePut (scalePut s 0 (blockOf s x i) e) 1 (blockOf s x i) e) (setGrp s d.slot (some x))) s

/-- The step watchdog of a program (R149, R50): a timer of the feature, or the lowest free one, or none. -/
def claimWatchdog (s : State) (p k : Nat) (g : Prog) : State :=
  if g.sched.watchdogMs = 0 then s
  else
    let timers := (List.range 8).map (· + 2)
    let on (s : State) : State := modPart s p (fun q => { q with
      progs := tmod (fun _ => none) q.progs k (fun x => x.map (fun g => { g with watchdog := true })) })
    if timers.any (fun r => ownedBy s r 9) then on s
    else match timers.find? (fun r => (ownerOf s r).isNone) with
      | some r => on (takeRes s r (claimValue 9 r p))
      | none => log s { code := 0x107, part := p, loc := 2 }

/-- PROGRAM_LOAD_DONE (R188, order 4): everything is written; the first program of a partition begins its first step. -/
def execProgramLoadDone (p : Fin 16) (s : State) : Res :=
  match (getPart s p).loading with
  | none => .next s
  | some x =>
    if !onDie s then .next s
    else
      let k := x.1
      let g := x.2
      let first := (getPart s p).cur.isNone
      let s0 := if first then betweenNow s p else s
      let s1 := modPart s0 p (fun q => { q with
        progs := tset (fun _ => none) q.progs k (some g), loading := none, order := q.order ++ [k], cur := if first then some k else q.cur })
      let s2 := initLayers (installGroups (writeTenants s1 p k g first) p k g) p g
      let lost := (getSeal s2 (sealKey p k)).recBad && !g.groups.isEmpty
      let s3 := modRec s2 (sealKey p k) (fun _ => { recBad := lost, rejoin := lost, dims := g.hdr.elim 0 GrpHdr.dims })
      let s4 := claimWatchdog s3 p k g
      let s5 := setRegFld (modReg s4 (R.COR_PROG_STATUS p) (fun w => w ||| at_ (2 ^ k) 8)) (R.COR_PROG_STATUS p) 7 5 k
      let s6 := if g.vcores.any (fun v => v.tenant != 0) then log s5 { code := 0xA0B, part := p } else s5
      let s7 := progEnd s6 p 0
      .next (if !first then s7 else if lost then rejoinProg s7 p k else beginStep s7 p)

/-! ## Unloading (R188) -/

/-- Zero what a program's tenants hold: core store where they stand, and their swap copies (R188). -/
def zeroTenants (s : State) (p k : Nat) (g : Prog) : State :=
  g.vcores.foldl (fun s v =>
    let key := savedKey k v.phys v.tenant
    if (getPart s p).saved.any (fun e => e.1 = key) then areaWrite s p (areaOf s p (tget (fun _ => noCtx) (getPart s p).saved key).area) (fun _ => true) []
    else if residOf s p v.phys = some k then modCore s v.phys (fun y => { y with store := memZero y.store v.csBase v.size })
    else s) s

/-- Cores that show no tenant. -/
def clearCores (s : State) (g : Prog) : State :=
  (progCores g).foldl (fun s c => modCore s c (fun y => { quietCore y with
    tens := [], run := .idle, ended := true, fq := [], pq := [], tenant := 0, trap := 0 })) s

/-- The watchdog's timer goes back when no program uses it. -/
def freeWatchdog (s : State) : State :=
  if s.parts.any (fun e => e.2.progs.any (fun q => match q.2 with | some g => g.watchdog | none => false)) then s
  else (s.tun.runtime.filter (fun c => claimFeat c.value = 9)).foldl (fun s c => dropRes s c.res) s

/-- Everything a program holds goes back: groups, seal, swap copies, areas, timer, its bit of LOADED. -/
def dropProg (s : State) (p k : Nat) : State :=
  let s1 := (progSlots s p k).foldl (fun s i => setGrp s i none) s
  let s2 := modPart s1 p (fun q => { q with
    progs := tset (fun _ => none) q.progs k none, saved := tclear q.saved (fun x => decide (x / 1024 = k))
    resid := q.resid.filter (fun e => e.2 != some k), order := q.order.filter (fun j => j != k) })
  let s3 := { s2 with grx := { s2.grx with seals := tdel s2.grx.seals (sealKey p k) } }
  freeWatchdog (modReg s3 (R.COR_PROG_STATUS p) (fun w => w &&& ~~~(at_ (2 ^ k) 8)))

/-- PROGRAM_UNLOAD_APPLY (R188): at a step boundary of the program, or at once for a program that is swapped out; after the running program the
next one stands. -/
def execProgramUnloadApply (p : Fin 16) (k : Fin 8) (s : State) : Res :=
  match tget (fun _ => none) (getPart s p).progs k with
  | none => .next s
  | some g =>
    let isCur := decide ((getPart s p).cur = some k.val)
    if !onDie s || !g.unloadReq || (isCur && !atBoundary s p) || (getPart s p).swapTo = some k.val then .next s
    else
      let next := if isCur then nextProg s p k else none
      let s1 := zeroTenants s p k g
      let s2 := modPart (dropProg (if isCur then clearCores s1 g else s1) p k) p (fun q => { q with
        cur := if isCur then none else q.cur, swapTo := if isCur then none else q.swapTo })
      let s3 := progEnd s2 p 0
      .next (match next with
        | some j => (match tget (fun _ => none) (getPart s3 p).progs j with | some h => swapBegin s3 p j h | none => pruneAreas s3 p)
        | none => pruneAreas s3 p)

end Sys2Proof.Machine
end

