-- ==== Sys2Proof/Machine/Security.lean ====
section
/-! DEFINITION. The security mailbox, firmware updates and IDE (R361 to R378, R396). -/

namespace Sys2Proof.Machine

/-! ## Requests (R378) -/

/-- The header of a mailbox request. -/
structure MbHdr where
  op : Nat
  part : Nat
  signed : Bool
  len : Nat
  counter : Nat
  deriving DecidableEq, Repr

def mbHdr (r : List Byte) : MbHdr :=
  { op := leAt r 0 2, part := leAt r 2 1, signed := nbit (leAt r 3 1) 0, len := leAt r 4 4, counter := leAt r 8 8 }

/-- A request whole: its header, its body, and its signature when SIGNED. -/
def mbWhole (r : List Byte) : Bool := decide (16 ≤ r.length) && decide (16 + (mbHdr r).len + (if (mbHdr r).signed then 96 else 0) ≤ r.length)

def mbBody (r : List Byte) : List Byte := (r.drop 16).take (mbHdr r).len
def mbSig (r : List Byte) : List Byte := (r.drop (16 + (mbHdr r).len)).take 96

/-- Does the owner's signature verify over header and body (R367). -/
def ownerSigned (s : State) (p : Nat) (r : List Byte) : Bool :=
  (mbHdr r).signed && ecdsaOk (ownerKey s p) (sha384 (r.take (16 + (mbHdr r).len))) (mbSig r)

/-- The lock of a partition. -/
def lockOf (s : State) (p : Nat) : Option LockRec := (s.flash.locks.find? (fun l => l.1 = p)).map Prod.snd

/-- Checks that an owner's command passes: the code, or 0 (R367, R369). -/
def ownerCheck (s : State) (p : Nat) (r : List Byte) (key : Bool) : Nat :=
  match lockOf s p with
  | none => if key then 0x908 else 0x903
  | some l => if !ownerSigned s p r then 0x909 else if (mbHdr r).counter ≤ l.counter then 0x90A else 0

/-- The accepted COUNTER goes into the lock record. -/
def countUp (s : State) (p counter : Nat) : State :=
  { s with flash := { s.flash with locks := s.flash.locks.map (fun l => if l.1 = p then (p, { l.2 with counter := counter }) else l) } }

/-- A command's outcome: the state after it, its code, the response body. -/
abbrev MbEnd := State × Nat × List Byte

/-- The response: header and body (R378). -/
def mbResponse (op code : Nat) (body : List Byte) : List Byte :=
  natLe op 2 ++ natLe code 2 ++ natLe body.length 4 ++ List.replicate 8 0 ++ body

/-- A function may name this partition: the physical function and the bus any, a virtual function its own. -/
def mbPart (s : State) (fn p : Nat) : Bool := decide (p < partCount s) && (fn = 0 || fn = 17 || p + 1 = fn)

/-- Room for a response: SEC_MB_RSP_CAP, or the bus's buffer of 64 KiB. -/
def mbCap (s : State) (fn : Nat) : Nat := if fn = 17 then 65536 else fld (getReg s (fnKey fn R.SEC_MB_RSP_CAP)) 15 0

/-- A command runs: its code and response wait for MAILBOX_DONE. -/
def mbRun (s : State) (fn : Nat) (r : List Byte) (run : State → MbEnd) : State :=
  let s1 := recInput s 7 (if fn = 0 || fn = 17 then 0xFF else fn - 1) 0 0 r
  let e := if mbWhole r then run s1 else (s1, 0x903, [])
  let big := decide (mbCap s fn < 16 + e.2.2.length)
  let code := if big then 0x903 else e.2.1
  let body := if code = 0 then e.2.2 else []
  let s2 := if code = 0 then e.1 else secLog s1 code (mbHdr r).part 0 0
  let rsp := (mbResponse (mbHdr r).op code body).take (mbCap s fn)
  setRegFld (modFn s2 fn (fun f => { f with mbBusy := true, mbHeld := none, mbCode := code, mbRsp := rsp })) (fnKey fn R.SEC_MB_STATUS) 0 0 1

/-- GO of a function's mailbox: refused while BUSY; else the command runs, or is held until its turn (R20, R378). -/
def mailbox (s : State) (fn : Nat) (r : List Byte) (run : State → MbEnd) : State :=
  let k := fnKey fn R.SEC_MB_STATUS
  let fresh (s : State) : State := modFn s fn (fun f => { f with mbDiscard := false })
  if (getFn s fn).mbBusy then secLog (setRegFld s k 47 32 0x904) 0x904 0xFF 0 0
  else if coreNow s then mbRun (fresh s) fn r run
  else setRegFld (pushJob (modFn (fresh s) fn (fun f => { f with mbBusy := true, mbHeld := some r })) (.box fn)) k 0 0 1

/-- A GO write of a function's SEC_MB_CTRL whose request carries `op`; an opcode that no command has is refused. -/
def mbCommand (s : State) (fn op : Nat) (hostReq : List Byte) (run : State → List Byte → MbEnd) : Res :=
  let r := hostReq.take (fld (getReg s (fnKey fn R.SEC_MB_REQ_LEN)) 15 0)
  if fn = 17 || !mayWrite s fn R.SEC_MB_CTRL || replaying s (mbHdr r).part then .next s
  else if (mbHdr r).op = op then .next (mailbox s fn r (fun s => run s r))
  else if (mbHdr r).op = 0 || 9 < (mbHdr r).op then .next (mailbox s fn r (fun s => (s, 0x903, [])))
  else .next s

/-- A refusal. -/
def refuse (s : State) (code : Nat) : MbEnd := (s, code, [])

/-! ## Certificates, reports, the log (R359, R364, R365) -/

/-- GET_CERTS. -/
def mbCerts (s : State) (r : List Byte) : MbEnd :=
  if (mbHdr r).len = 0 then (s, 0, s.part.caCert ++ s.part.devCert) else refuse s 0x903

/-- Slots installed in a partition. -/
def slotCount (s : State) (p : Nat) : Nat := (s.sec.slots.filter (fun k => k.1 / 256 = p && k.2.used)).length

/-- MOD_IDENTITY (R4): layers, enabled cores, grade. -/
def identity (s : State) : W64 :=
  at_ (gradeLayers s.part.grade) 32 ||| at_ (gradeCores s.part.grade) 16 ||| at_ s.part.grade 8 ||| at_ 0x59 0

/-- The report without its signature (R365). -/
def reportBytes (s : State) (p : Nat) (nonce : List Byte) : List Byte :=
  natLe 0x54535441 4 ++ natLe 1 2 ++ natLe p 1 ++ natLe (b2n (isLocked s p)) 1 ++ natLe s.clk.time 8 ++ nonce ++ natLe (identity s).toNat 8 ++
    natLe (s.sec.running.elim 0 Bank.svn) 4 ++ natLe s.part.svnFuses 4 ++ natLe s.sec.count 8 ++ dig48 s.sec.head ++
    dig48 (s.sec.running.elim [] Bank.digest) ++ (List.range 6).flatMap (fun i => natLe (getReg s (R.TUN_ACTIVE_HASH i)).toNat 8) ++
    (if isLocked s p then sha384 (ownerKey s p) else List.replicate 48 0) ++
    sha384 ((if p = 0xFF then List.range 16 else [p]).flatMap (fun q => (loadedProgs s q).flatMap Prog.hash)) ++
    natLe (if p = 0xFF then (List.range 16).foldl (fun n q => n + slotCount s q) 0 else slotCount s p) 2 ++
    natLe (fld (getReg s R.FAB_MOD_ADDR) 15 0) 2 ++ List.replicate 4 0

/-- ATTEST. -/
def mbAttest (s : State) (fn : Nat) (r : List Byte) : MbEnd :=
  let p := (mbHdr r).part
  if (mbHdr r).len != 48 || !(mbPart s fn p || (p = 0xFF && (fn = 0 || fn = 17))) then refuse s 0x903
  else
    let b := reportBytes s p (mbBody r)
    let g := signId s (sha384 b)
    (g.2, 0, b ++ g.1)

/-- LOG_READ: each entry after its status; an overwritten one reads as zeros. -/
def mbLog (s : State) (r : List Byte) : MbEnd :=
  let b := mbBody r
  if (mbHdr r).len != 12 || 512 < leAt b 8 4 then refuse s 0x903
  else
    let first := leAt b 0 8
    let old := s.sec.count - s.sec.log.length
    let ent (i : Nat) : List Byte :=
      if i < old then natLe 0x90D 2 ++ List.replicate 128 0
      else match s.sec.log[i - old]? with | some e => natLe 0 2 ++ logEntBytes e | none => []
    (s, 0, (List.range (min (leAt b 8 4) (s.sec.count - first))).flatMap (fun i => ent (first + i)))

/-! ## Locks (R366 to R368) -/

/-- A vault that lies in the region and outside its swap region. -/
def vaultLegal (s : State) (p v : Nat) : Bool := v % 131072 = 0 && decide (v + 131072 ≤ regionSize s p - swapSize s p)

/-- An enabled stream of a partition. -/
def anyEnabled (s : State) (p : Nat) : Bool := (partIdx s p).any (fun i => eEnabled (entryOf s i))

/-- Write a partition's areas to zero and drop its shared lines (R56). -/
def zeroRegion (s : State) (p : Nat) : State :=
  let s1 := zeroAreas s p [(regionBase s p, regionSize s p), (windowBase s p, windowSize s)]
  { s1 with stack := { s1.stack with lines := s1.stack.lines.filter (fun l => match l.2 with | some x => x.part != p | none => false) } }

/-- LOCK. -/
def mbLock (s : State) (fn : Nat) (r : List Byte) : MbEnd :=
  let p := (mbHdr r).part
  let b := mbBody r
  let v := leAt b 97 8
  if (mbHdr r).len != 105 || !mbPart s fn p || isLocked s p || (ecParse (b.take 97)).isNone || !vaultLegal s p v ||
      !(loadedProgs s p).isEmpty || (getPart s p).loading.isSome || anyEnabled s p || !tabInStack s p then refuse s 0x903
  else
    let s1 := zeroRegion s p
    let l : LockRec := { owner := b.take 97, counter := 0, vault := v }
    let s2 := { s1 with flash := { s1.flash with locks := tput s1.flash.locks p l } }
    (measure s2 4 (srcOfFn fn) 0 0 p (sha384 (b.take 97)) [], 0, [])

/-- The whole partition at zero: region, window, block areas, cores, lines, stream entries, slots (R56, R368). -/
def zeroisePart (s : State) (p : Nat) : State :=
  let s1 := zeroAreas s p (partAreas s p)
  zeroPart ((List.range 256).foldl (fun s c => if (coreMask s1 p).getLsbD c then zeroCore s c else s) s1) p

/-- UNLOCK. -/
def mbUnlock (s : State) (fn : Nat) (r : List Byte) : MbEnd :=
  let p := (mbHdr r).part
  let c := ownerCheck s p r false
  if (mbHdr r).len != 0 || !mbPart s fn p then refuse s 0x903
  else if c != 0 then refuse s c
  else (zeroisePart (endLock s p (srcOfFn fn)) p, 0, [])

/-! ## Key slots (R369 to R371) -/

/-- A slot of a partition takes a secret: KEY is logged, the vault written. -/
def install (s : State) (fn p n : Nat) (secret digest : List Byte) : State :=
  vaultSave (measure (setSlot s n { used := true, part := p, secret := secret, floor := 1 }) 6 (srcOfFn fn) 0 0 p digest []) n

/-- KEY_AGREE: an ephemeral pair, a nonce, the secret of R370, the signed transcript. -/
def mbAgree (s : State) (fn : Nat) (r : List Byte) : MbEnd :=
  let p := (mbHdr r).part
  let b := mbBody r
  let n := 256 * p + leAt b 0 1
  let t := (b.drop 1).take 97
  let nt := (b.drop 98).take 32
  let c := ownerCheck s p r true
  if (mbHdr r).len != 130 || !mbPart s fn p then refuse s 0x903
  else if c != 0 then refuse s c
  else if (getSlot s n).used then refuse s 0x903
  else
    let m := Config.signNonce s.free % (ecN - 1) + 1
    let nm := natLe (Config.signNonce (s.free + 1)) 32
    match ecdh m t with
    | none => refuse s 0x903
    | some z =>
      let mp := ecPublic m
      let secret := hkdfExpand (hmac384 (nt ++ nm) z) (ascii "MFY2-SLOT" ++ natLe p 1 ++ natLe n 2) 48
      let d := sha384 (t ++ nt ++ mp ++ nm ++ natLe p 1 ++ natLe n 2 ++ dig48 s.sec.head ++ natLe s.sec.count 8)
      let g := signId { s with free := s.free + 2 } d
      (install (countUp g.2 p (mbHdr r).counter) fn p n secret (sha384 (t ++ mp)), 0, mp ++ nm ++ g.1)

/-- KEY_IMPORT: the tenant's secret, unwrapped under the parent slot. -/
def mbImport (s : State) (fn : Nat) (r : List Byte) : MbEnd :=
  let p := (mbHdr r).part
  let b := mbBody r
  let n := 256 * p + leAt b 0 1
  let par := getSlot s (256 * p + leAt b 1 1)
  let c := ownerCheck s p r true
  if (mbHdr r).len != 78 || !mbPart s fn p then refuse s 0x903
  else if c != 0 then refuse s c
  else if (getSlot s n).used || !par.used then refuse s 0x903
  else match gcmOpen (hkdfExpand par.secret (ascii "MFY2-WRAP") 32) (leAt b 2 12) (natLe n 2) ((b.drop 14).take 48) ((b.drop 62).take 16) with
    | none => refuse s 0x905
    | some x => (install (countUp s p (mbHdr r).counter) fn p n x (sha384 (b.drop 2)), 0, [])

/-- An enabled stream names the slot. -/
def slotInUse (s : State) (n : Nat) : Bool :=
  (List.range 16).any (fun p => (partIdx s p).any (fun i => eEnabled (entryOf s i) && eSealed (entryOf s i) && (entryOf s i).key % 4096 = n))

/-- KEY_DESTROY. -/
def mbDestroy (s : State) (fn : Nat) (r : List Byte) : MbEnd :=
  let p := (mbHdr r).part
  let n := 256 * p + leAt (mbBody r) 0 1
  let c := ownerCheck s p r true
  if (mbHdr r).len != 1 || !mbPart s fn p then refuse s 0x903
  else if c != 0 then refuse s c
  else if !(getSlot s n).used then refuse s 0x903
  else if slotInUse s n then refuse s 0x90E
  else (vaultSave (countUp (setSlot s n {}) p (mbHdr r).counter) n, 0, [])

/-- SVN_COMMIT: fuses up to the running image's SVN, when both banks verify at least that high (R362). -/
def mbSvn (s : State) (fn : Nat) (r : List Byte) : MbEnd :=
  let v := s.sec.running.elim 0 Bank.svn
  if (mbHdr r).len != 0 || !(fn = 0 || fn = 17) || !(s.flash.banks.all (fun b => b.valid && decide (v ≤ b.svn))) || 64 < v then refuse s 0x903
  else
    let f := max s.part.svnFuses v
    ({ s with part := { s.part with svnFuses := f } }, 0, natLe f 4)

/-! ## The mailbox commands -/

def execGetCerts (fn : Fin 18) (hostReq : List Byte) (s : State) : Res := mbCommand s fn 1 hostReq mbCerts
def execAttest (fn : Fin 18) (hostReq : List Byte) (s : State) : Res := mbCommand s fn 2 hostReq (fun s r => mbAttest s fn r)
def execLogRead (fn : Fin 18) (hostReq : List Byte) (s : State) : Res := mbCommand s fn 3 hostReq mbLog
def execLock (fn : Fin 18) (hostReq : List Byte) (s : State) : Res := mbCommand s fn 4 hostReq (fun s r => mbLock s fn r)
def execUnlock (fn : Fin 18) (hostReq : List Byte) (s : State) : Res := mbCommand s fn 5 hostReq (fun s r => mbUnlock s fn r)
def execKeyAgree (fn : Fin 18) (hostReq : List Byte) (s : State) : Res := mbCommand s fn 6 hostReq (fun s r => mbAgree s fn r)
def execKeyImport (fn : Fin 18) (hostReq : List Byte) (s : State) : Res := mbCommand s fn 7 hostReq (fun s r => mbImport s fn r)
def execKeyDestroy (fn : Fin 18) (hostReq : List Byte) (s : State) : Res := mbCommand s fn 8 hostReq (fun s r => mbDestroy s fn r)
def execSvnCommit (fn : Fin 18) (hostReq : List Byte) (s : State) : Res := mbCommand s fn 9 hostReq (fun s r => mbSvn s fn r)

/-- Any request by its opcode: what SEC_GO runs. -/
def mbAny (s : State) (fn : Nat) (r : List Byte) : MbEnd :=
  match (mbHdr r).op with
  | 1 => mbCerts s r | 2 => mbAttest s fn r | 3 => mbLog s r | 4 => mbLock s fn r | 5 => mbUnlock s fn r
  | 6 => mbAgree s fn r | 7 => mbImport s fn r | 8 => mbDestroy s fn r | 9 => mbSvn s fn r
  | _ => refuse s 0x903

/-- A held request runs. -/
def mbHeldRun (s : State) (fn : Nat) : State :=
  match (getFn s fn).mbHeld with
  | some r => mbRun s fn r (fun s => mbAny s fn r)
  | none => s

/-! ## The management core's line (R20, R354, R378) -/

/-- What waits is served in order of arrival while the core is free; a re-plan first in line waits for REPLAN. -/
def serve : Nat → State → State
  | 0, s => s
  | k + 1, s =>
    if !coreFree s then s
    else match s.tun.jobs with
      | .load bus chk bytes :: js =>
        serve k (loadTuning (setRegFld { s with tun := { s.tun with jobs := js } } R.TUN_STATUS 1 0 0) bus chk bytes)
      | .box fn :: js => serve k (mbHeldRun { s with tun := { s.tun with jobs := js } } fn)
      | _ => s

/-- The core has finished something, or runs again. -/
def fwResume (s : State) : State := serve s.tun.jobs.length s

/-- TUNING_ZEROISE_DONE (R56): the zeroise completes and the load ends. -/
def execTuningZeroiseDone (s : State) : Res :=
  if fld (getReg s R.TUN_STATUS) 1 0 = 3 && fwUp s then .next (fwResume (endLoad (zeroiseAll s) s.tun.endCode))
  else .next s

/-- The response of a command that has run, at its function. -/
def mbAnswer (s : State) (fn : Nat) (f : FnSt) : State :=
  let k := fnKey fn R.SEC_MB_STATUS
  let s1 := modFn s fn (fun f => { f with mbBusy := false, mbDiscard := false, mbRsp := [] })
  if f.mbDiscard then setRegFld s1 k 0 0 0
  else
    let s2 := setReg s1 k (at_ f.mbCode 32 ||| at_ f.mbRsp.length 16)
    if fn = 17 then { s2 with sec := { s2.sec with busRsp := f.mbRsp } }
    else
      let s3 := if f.mbRsp.isEmpty then s2 else hostWrite s2 fn (getReg s2 (fnKey fn R.SEC_MB_RSP_ADDR)).toNat f.mbRsp
      raiseCause s3 fn 3

/-- MAILBOX_DONE (R378, R383, R390): the response is written, unless an FLR discarded it; STATE is READY, and what waits follows. -/
def execMailboxDone (fn : Fin 18) (s : State) : Res :=
  let f := getFn s fn
  if !fwUp s || !f.mbBusy || f.mbHeld.isSome then .next s
  else .next (fwResume (mbAnswer s fn f))

/-! ## Firmware updates (R362) -/

/-- A bank as the image says: header, signing certificate, root key, signature, payload; the manual gives no layout (log 19). -/
def bankFrom (s : State) (b : List Byte) : Bank :=
  let hdr := b.take 56
  let ck := (b.drop 56).take 97
  let cs := (b.drop 153).take 96
  let rk := (b.drop 249).take 97
  let sg := (b.drop 346).take 96
  let pay := b.drop 442
  { valid := sha384 rk = s.part.rootDigest && ecdsaOk rk (sha384 ck) cs && ecdsaOk ck (sha384 hdr) sg &&
      decide (pay.length = leAt hdr 4 4) && sha384 pay = (hdr.drop 8).take 48
    svn := leAt hdr 0 4
    digest := (hdr.drop 8).take 48
    cert := sha384 (ck ++ cs) }

/-- FIRMWARE_UPDATE (R361, R362): the inactive bank is written, and made active once it verifies. -/
def execFirmwareUpdate (image : List Byte) (s : State) : Res :=
  if !(fwUp s || s.phase = .failed) then .next s
  else
    let k := bankFrom s image
    let other := 1 - s.flash.bank
    let ok := k.valid && decide (s.part.svnFuses ≤ k.svn)
    let s1 := { s with flash := { s.flash with
      banks := s.flash.banks.set other k, bank := if ok then other else s.flash.bank } }
    .next (measure s1 9 3 0 0 0xFF (sha384 image) [])

/-! ## IDE (R377, R396) -/

/-- IDE_KM: the host programs an IDE stream's keys, and what waited for them leaves (R377, R396). -/
def execIdeKm (stream : Fin 17) (s : State) : Res :=
  if !onDie s || s.host.width = 0 then .next s
  else .next (hostRelease { s with sec := { s.sec with
    ide := tset (fun _ => 0) s.sec.ide stream 1, ideCut := tset (fun _ => []) s.sec.ideCut stream [] } })

/-- Every transfer of a stream in flight ends as a failed host read. -/
def failHost (s : State) (idx : Nat) : State :=
  if eFabric (entryOf s idx) then s
  else ((getRt s idx).flights.filter (fun f => !f.fin)).foldl (fun s f => flightEnd s idx f.idx 0x50B 0) s

/-- HOST_IDE_ERROR (R396): the IDE stream is insecure; `hit` are the streams whose transfers it carried. -/
def execHostIdeError (stream : Fin 17) (hit : List Nat) (s : State) : Res :=
  if !onDie s || tget (fun _ => 0) s.sec.ide stream != 1 then .next s
  else
    let s1 := { s with sec := { s.sec with ide := tset (fun _ => 0) s.sec.ide stream 2, ideCut := tset (fun _ => []) s.sec.ideCut stream hit } }
    .next (hit.foldl failHost (log s1 { code := 0x516, loc := stream }))

end Sys2Proof.Machine
end

