-- ==== Sys2Proof/Machine/Power.lean ====
section
/-! DEFINITION. Supply, gates, drone, caps, telemetry and ageing (R339 to R357). -/

namespace Sys2Proof.Machine

/-- Power limit of a cooling class (R350). -/
def classWatts (c : Nat) : Nat := if c = 0 then 1100 else 2000

/-- Mean of a list, or 0. -/
def meanOf (l : List Nat) : Nat := if l.isEmpty then 0 else l.sum / l.length

/-- Input power averaged over 10 microseconds. -/
def pBar (s : State) : Nat := meanOf (s.pwr.samples.map PSample.watts)

/-- P_REF (R348). -/
def pRef (s : State) : Nat := meanOf s.pwr.refs

/-- Log a power event: ZONE, INPUT_MV, INPUT_W of PWR_FAULT (R357). -/
def pwrEv (s : State) (code z : Nat) : Ev :=
  { code := code, loc := (if code = 0x308 || code = 0x309 || code = 0x30C then z else 0xFFFF)
    payload := 2 ^ 33 * (z % 16) + 65536 * (s.pwr.mv % 131072) + pBar s % 65536 }
def pwrLog (s : State) (code z : Nat) : State := log s (pwrEv s code z)

/-- STATE of PWR_SUPPLY_STATUS changes; the POWER cause follows (R390). -/
def setBand (s : State) (b : Nat) : State :=
  let s1 := { s with pwr := { s.pwr with band := b } }
  if s.pwr.band = b then s1 else raiseCause s1 0 6

/-! ## Gates (R346) -/

def getGate (s : State) (z : Nat) : Nat := tget (fun _ => 16) s.pwr.gates z
def setGate (s : State) (z k : Nat) : State := { s with pwr := { s.pwr with gates := tset (fun _ => 16) s.pwr.gates z k } }
/-- Every gate at most `k`. -/
def closeGates (s : State) (k : Nat) : State := (List.range 16).foldl (fun s z => setGate s z (min k (getGate s z))) s

/-- The drone stops. -/
def droneOff (s : State) : State := { s with pwr := { s.pwr with droneW := 0, floorW := 0 } }

/-- A partition with a program is between steps, so the floor is in force (R348). -/
def floorOn (s : State) : Bool :=
  (List.range 16).any (fun p => (curProg s p).isSome && (getPart s p).betweenSteps)

/-- DRONE_FLOOR of the intervals that run: the highest, each as it was when its interval began (R348). -/
def floorPct (s : State) : Nat :=
  (List.range 16).foldl (fun m p => if (curProg s p).isSome && (getPart s p).betweenSteps then max m (getPart s p).floorPct else m) 0

/-- P_FLOOR, at most the class limit (R348, R349). -/
def pFloor (s : State) : Nat := min (classWatts s.tun.cur.cooling) (floorPct s * pRef s / 100)

/-- A zone in BYPASS below its ceiling (R325). -/
def bypassGate (s : State) (z : Nat) : Nat :=
  if (getZone s z).bypass && decide (fMax s z < 425) then 16 * fMax s z / 425 else 16

/-- One zone's gate: stop, throttle, class cap above 110 percent, BYPASS, and what the ramp limit allows, the lowest of them. -/
def gateFor (s : State) (z ramp : Nat) : Nat :=
  if s.phase = .tripped || halting s then 0
  else
    let cap := if 110 * (classWatts s.tun.cur.cooling) < 100 * (pBar s) then getGate s z - 1 else 16
    let low := if s.pwr.band = 2 then 2 else 16
    min (min ramp 16) (min (min cap low) (bypassGate s z))

/-- CTL cycles that the gates in force have held over the 1 microsecond since the last evaluation (R346): (16 - k) of every 16 in each core of a zone,
at twice the zone's applied ARR rate. -/
def gatedCycles (s : State) : Nat :=
  (List.range 256).foldl (fun a c =>
    let z := coreZone c
    if s.tun.disabled.contains c then a else a + 2 * (getZone s z).applied * (16 - getGate s z) / 16) 0

/-- GATE_EVAL (R345 to R349): `ramp` is, by zone, the widest gate that keeps the ramp-up limit; `progW` the power without the drone,
`droneMax` what the drone's sources can add now. -/
def execGateEval (ramp : List Nat) (progW droneMax : Nat) (s : State) : Res :=
  if !railsOn s then .next s
  else
    let s0 := modReg s R.PWR_GATED (fun w => w + BitVec.ofNat 64 (gatedCycles s))
    let s1 := (List.range 16).foldl (fun s z => setGate s z (gateFor s z (ramp.getD z 16))) s0
    let off := halting s || decide (s.pwr.band = 2)
    let on := floorOn s && !off
    let floor := if on then pFloor s else 0
    let line := max (s.pwr.line - s.tun.cur.rampDown) (1000 * (pBar s))
    let want := min (classWatts s.tun.cur.cooling) (max floor (line / 1000))
    let need := if off then 0 else want - progW
    let short := decide (droneMax < need)
    let s2 := { s1 with pwr := { s1.pwr with
      line := line, floorW := floor, droneW := min droneMax need, short := on && (s.pwr.short || short) } }
    .next (if on && short && !s.pwr.short then pwrLog s2 0x306 0 else s2)

/-! ## Bands (R339 to R341) -/

/-- A module whose supply is watched: 54 V has been there and no stop runs. -/
def supplied (s : State) : Bool :=
  match s.phase with
  | .boot => true | .bootHold => true | .training => true | .run => true | .warm => true | .stopped => true | .tripped => true | .failed => true
  | _ => false

def setMv (s : State) (mv : Nat) : State := { s with pwr := { s.pwr with mv := mv } }

/-- SUPPLY_HIGH (R339): 60 to 66 V. -/
def execSupplyHigh (mv : Nat) (s : State) : Res :=
  if !supplied s || decide (2 < s.pwr.band) || mv < 60000 || 66000 < mv then .next s
  else
    let s1 := throttlePin (setBand (setMv s mv) 1) false
    .next (logMerged s1 (pwrEv s1 0x303 0) 1000000000)

/-- SUPPLY_THROTTLE (R341): below 40 V, down to 36 V. -/
def execSupplyThrottle (mv : Nat) (s : State) : Res :=
  if !supplied s || decide (2 < s.pwr.band) || mv < 36000 || 40000 ≤ mv then .next s
  else
    let s1 := throttlePin (droneOff (closeGates (setBand (setMv s mv) 2) 2)) true
    .next (if s.pwr.band = 2 then s1 else pwrLog s1 0x301 0)

/-- V_in lets the band return to NORMAL: at or above 42 V from THROTTLE, at or below 59 V from HIGH (R340). -/
def backToNormal (band mv : Nat) : Bool :=
  decide (40000 ≤ mv) && decide (mv < 60000) && (if band = 2 then decide (42000 ≤ mv) else if band = 1 then decide (mv ≤ 59000) else true)

/-- SUPPLY_NORMAL (R340): V_in has stayed inside for 1,000,000 ns; the gates open at the next evaluations. -/
def execSupplyNormal (mv : Nat) (s : State) : Res :=
  if !supplied s || decide (2 < s.pwr.band) || !backToNormal s.pwr.band mv then .next s
  else .next (throttlePin (setBand (setMv s mv) 0) false)

/-! ## The orderly stop (R343, R425) -/

/-- LINK_DOWN leaves every UP port. -/
def allLinksDown (s : State) : State :=
  eachPort s (fun s n =>
    if portUp (getPort s n) then let l := portLink s n; portTx s n 23 (.linkDown l.1 l.2.1 l.2.2) else s)

/-- Journal changes that were merged are written behind the write in flight, and nothing that follows a write is done (R307, R343). -/
def journalsOut (s : State) : State :=
  (s.stm.rt.map Prod.fst).foldl (fun s i =>
    if (getRt s i).jrn.writing && jrnMore s i then jrnWrite (modRt s i (fun r => { r with jrn := { r.jrn with writing := false } })) i else s) s

/-- T0 of the orderly stop. -/
def beginStop (s : State) (commanded : Bool) : State :=
  let s1 := closeOpens s (fun _ => true)
  let s2 := throttlePin (journalsOut (allLinksDown (droneOff (closeGates { s1 with phase := .stopping } 0)))) false
  setBand { s2 with pwr := { s2.pwr with commanded := commanded } } 3

/-- The die goes off; the stack is held. -/
def dieOff (s : State) (ph : Phase) : State :=
  { s with phase := ph, host := { s.host with width := 0, rate := 0, half := 0 } }

/-- SUPPLY_STOP (R339, R343): below 36 V or above 66 V for 1 us. From STOPPED or a trip only retention is left to lose. -/
def execSupplyStop (mv : Nat) (s : State) : Res :=
  if 36000 ≤ mv && mv ≤ 66000 then .next s
  else match s.phase with
    | .stopped => .next (dieOff (setMv s mv) .retention)
    | .tripped => .next (dieOff (setMv s mv) .retention)
    | .failed => .next (dieOff (setMv s mv) .retention)
    | .stopping => .next { setMv s mv with pwr := { (setMv s mv).pwr with commanded := false } }
    | .charging => .next (dieOff (setMv s mv) .off)
    | .inrushWait => .next (dieOff (setMv s mv) .off)
    | .off => .next s
    | .retention => .next s
    | _ => .next (pwrLog (beginStop (setMv s mv) false) 0x302 0)

/-! ## Hold-up bank (R342, R344) -/

/-- HOLDUP_DEPLETED (R344): the stack's contents are lost, and the next power-on is a cold one. -/
def execHoldupDepleted (s : State) : Res :=
  if s.phase != .retention then .next s
  else .next { s with phase := .off, stack := { s.stack with bytes := [], poison := [] }, pwr := { s.pwr with held := none } }

/-- Put a record in the flash log alone: nothing else is powered. -/
def flashRec (s : State) (code : Nat) : State :=
  let r := { evRec s (pwrEv s code 0) with time := 0 }
  { s with flash := { s.flash with faults := keepLast 256 s.flash.faults r } }

/-- INRUSH_FAULT (R342). -/
def execInrushFault (s : State) : Res :=
  if s.phase != .charging then .next s else .next (flashRec { s with phase := .inrushWait } 0x30D)

/-- INRUSH_RETRY (R342). -/
def execInrushRetry (s : State) : Res :=
  if s.phase != .inrushWait then .next s else .next { s with phase := .charging }

/-! ## Caps (R351) -/

/-- The latest sample's hottest sensor of a zone. -/
def zoneTemp (s : State) (z : Nat) : Nat :=
  match s.pwr.samples.getLast? with | some x => (x.zones.getD z (0, 0, 0)).2.2 | none => 0

/-- Hottest zone and its temperature. -/
def hottest (s : State) : Nat × Nat :=
  (List.range 16).foldl (fun (b : Nat × Nat) z => if b.2 < zoneTemp s z then (z, zoneTemp s z) else b) (0, 0)

def hotCut (s : State) (z : Nat) : Nat := tget (fun _ => 0) s.pwr.hotCut z
def hotEp (s : State) (z : Nat) : Bool := tget (fun _ => false) s.pwr.hotEp z
def setHot (s : State) (z cut : Nat) (ep : Bool) : State :=
  { s with pwr := { s.pwr with hotCut := tset (fun _ => 0) s.pwr.hotCut z cut, hotEp := tset (fun _ => false) s.pwr.hotEp z ep } }

/-- An episode begins: its code is logged once, and POWER is set (R351, R390). -/
def episode (s : State) (code z : Nat) : State := raiseCause (pwrLog s code z) 0 6

/-- The class cap: 10 MHz lower above the limit, 10 MHz higher after ten evaluations below 95 percent. -/
def classCap (s : State) : State :=
  let w := meanOf s.pwr.watts
  let lim := classWatts s.tun.cur.cooling
  if lim < w then
    let s1 := { s with pwr := { s.pwr with clsCut := min (s.pwr.clsCut + 10) (classMax s.tun.cur.cooling - 300), clsGood := 0, clsEp := true } }
    if s.pwr.clsEp then s1 else episode s1 0x305 0
  else
    let n := if 100 * w < 95 * lim then s.pwr.clsGood + 1 else 0
    let cut := if 10 ≤ n then s.pwr.clsCut - 10 else s.pwr.clsCut
    { s with pwr := { s.pwr with clsCut := cut, clsGood := n, clsEp := s.pwr.clsEp && cut != 0 } }

/-- The thermal cap of a zone. -/
def thermalCap (s : State) (z : Nat) : State :=
  let t := zoneTemp s z
  if 100 < t then
    let s1 := setHot s z (min (hotCut s z + 10) (classMax s.tun.cur.cooling - 300)) true
    if hotEp s z then s1 else episode s1 0x308 z
  else if t < 95 then setHot s z (hotCut s z - 10) (hotEp s z && decide (10 < hotCut s z))
  else s

/-- Flash key of a zone's tables, of a class. -/
def capKey (cls z : Nat) : Nat := cls * 16 + z

/-- The ageing cap of a zone for the class in force; the class maximum where no re-plan has set one (R354). -/
def ageCap (s : State) (z : Nat) : Nat :=
  let v := tget (fun _ => 0) s.flash.ageCap (capKey s.tun.cur.cooling z)
  if v = 0 then classMax s.tun.cur.cooling else v

/-- The lowest cap that applies, at least the lowest frequency of a zone. -/
def capOf (s : State) (z : Nat) : Nat :=
  let m := classMax s.tun.cur.cooling
  max 300 (min (ageCap s z) (min (m - s.pwr.clsCut) (m - hotCut s z)))

/-- The trip: the gates close and the die's rails switch off but stack retention. -/
def trip (s : State) : State :=
  let s1 := throttlePin (setBand (droneOff (closeGates s 0)) 4) false
  dieOff (pwrLog s1 0x309 (hottest s).1) .tripped

/-- CAP_EVAL (R351). -/
def execCapEval (s : State) : Res :=
  if !railsOn s || halting s then .next s
  else if 115 < (hottest s).2 then .next (trip s)
  else
    let s1 := (List.range 16).foldl thermalCap (classCap s)
    .next ((List.range 16).foldl (fun s z => setReg s (R.CLK_ZONE_CAP z) (BitVec.ofNat 64 (capOf s z))) s1)

/-! ## Telemetry (R352) -/

/-- Time that counts for P_REF: no floor, throttle, stop, thermal action or class cap (R348). -/
def refTime (s : State) : Bool :=
  !floorOn s && decide (s.pwr.band ≤ 1) && !s.pwr.clsEp && (List.range 16).all (fun z => !hotEp s z)

/-- TELEMETRY_SAMPLE (R352, R357): every 1 us, which adds a microsecond of input power to the energy. -/
def execTelemetrySample (mv watts board : Nat) (zones : List (Nat × Nat × Nat)) (s : State) : Res :=
  if !(railsOn s || s.phase = .stopped || s.phase = .tripped) then .next s
  else
    let x : PSample := { mv := mv, watts := watts, board := board, zones := zones.take 16 }
    .next { s with pwr := { s.pwr with
      mv := mv
      samples := (s.pwr.samples ++ [x]).drop (s.pwr.samples.length + 1 - 10)
      watts := keepLast 1000 s.pwr.watts watts
      energy := s.pwr.energy + watts
      refs := if refTime s then keepLast 4000 s.pwr.refs watts else s.pwr.refs } }

/-- The lowest gate. -/
def lowGate (s : State) : Nat := (List.range 16).foldl (fun k z => min k (getGate s z)) 16

/-- A telemetry record of 64 bytes; the manual names its fields but not their places (log 19). -/
def telemBytes (s : State) : List Byte :=
  let h := hottest s
  fitTo 64 (natLe s.clk.time 8 ++ natLe s.pwr.mv 4 ++ natLe (pBar s) 4 ++ natLe h.2 1 ++ natLe h.1 1 ++ natLe s.pwr.floorW 2 ++
    natLe s.pwr.droneW 2 ++ natLe (lowGate s) 1 ++ natLe s.pwr.band 1)

/-- TELEMETRY_RECORD (R352): a period of PWR_TELEM_CTRL ends. -/
def execTelemetryRecord (s : State) : Res :=
  let c := getReg s R.PWR_TELEM_CTRL
  if !onDie s || !c.getLsbD 0 || !(List.range 8).any (fun i => ownedBy s (i + 2) 8) then .next s
  else
    let a := (getReg s R.PWR_TELEM_ADDR).toNat + 64 * (s.pwr.telem % 2 ^ (fld c 11 8 + 4))
    .next (hostWrite { s with pwr := { s.pwr with telem := s.pwr.telem + 1 } } 0 a (telemBytes s))

/-! ## Ageing (R353 to R355) -/

/-- Histogram key of a zone: applied frequency and WORST code. -/
def histKey (z f code : Nat) : Nat := 65536 * z + 64 * (f % 1024) + code % 64

/-- One hour's entry of a zone's histogram. -/
def histAdd (s : State) (z : Nat) : State :=
  let k := histKey z (getZone s z).applied (fld (getReg s (R.CLK_ZONE_MARGIN z)) 5 0)
  { s with flash := { s.flash with hist := tmod (fun _ => 0) s.flash.hist k (· + 1) } }

/-- POWERED_HOUR (R353, R354): `slow` is the slowdown of each zone in ppm, as the pairs measure it. -/
def execPoweredHour (slow : List Nat) (s : State) : Res :=
  if s.phase = .off || s.phase = .retention then .next s
  else
    let h := s.flash.hours + 1
    let s1 := { s with flash := { s.flash with hours := h } }
    let s2 := if fwUp s then (List.range 16).foldl (fun s z => histAdd { s with flash := { s.flash with
        slow := tset (fun _ => 0) s.flash.slow z (slow.getD z 0) } } z) s1 else s1
    .next (if h % 500 = 0 then pushJob s2 (.plan 0) else s2)

def zoneHist (s : State) (z : Nat) : List (Nat × Nat) := s.flash.hist.filter (fun e => e.1 / 65536 = z)
def zoneSlow (s : State) (z : Nat) : Nat := tget (fun _ => 0) s.flash.slow z

/-- One entry of a re-plan: the new voltage, and whether the entry would need more than V_MAX (R354). -/
def planEntry (s : State) (cls z f : Nat) : Nat × Bool :=
  let cur := getVolt s cls z f
  let code := Config.predictCode (zoneSlow s z) (zoneHist s z) f
  if code < 12 then
    let up := min 10 (cdiv (Config.needMv (zoneSlow s z) (zoneHist s z) f) 5 * 5)
    if Config.vMax z < cur + up then (Config.vMax z, true) else (cur + up, false)
  else if 20 ≤ code then (max (min cur (Config.factoryMv cls z f)) (cur - 5), false)
  else (cur, false)

/-- The entry farther from zero. -/
def widest (a b : Int) : Int := if a.natAbs < b.natAbs then b else a

/-- Frequencies of a class's table. -/
def tableMhz (cls : Nat) : List Nat := (List.range ((classMax cls - 300) / 10 + 1)).map (fun i => 300 + 10 * i)

/-- A re-plan of one zone: every entry, the ageing cap and its record. -/
def planZone (s : State) (cls z : Nat) : State × PlanZone :=
  let es := (tableMhz cls).map (fun f => (f, getVolt s cls z f, planEntry s cls z f))
  let s1 := es.foldl (fun s e => setVolt s cls z e.1 e.2.2.1) s
  let cap := match es.find? (fun e => e.2.2.2) with | some e => max 300 (e.1 - 10) | none => classMax cls
  let s2 := { s1 with flash := { s1.flash with ageCap := tset (fun _ => 0) s1.flash.ageCap (capKey cls z) cap } }
  let ch := es.foldl (fun (a : Int) e => widest a ((e.2.2.1 : Int) - (e.2.1 : Int))) 0
  let s3 := if cap < classMax cls then pwrLog s2 0x30C z else s2
  (s3, { change := ch, room := Config.vMax z - getVolt s3 cls z (classMax cls), cap := cap / 10, slow := zoneSlow s z })

/-- Every zone. -/
def planZones (s : State) (cls : Nat) : State × List PlanZone :=
  (List.range 16).foldl (fun (a : State × List PlanZone) z => let r := planZone a.1 cls z; (r.1, a.2 ++ [r.2])) (s, [])

/-- The zone of the smallest headroom. -/
def tightest (zs : List PlanZone) : Nat :=
  ((List.range zs.length).foldl (fun (b : Nat × Nat) z =>
    match zs[z]? with | some x => if x.room < b.2 then (z, x.room) else b | none => b) (0, 1000000)).1

/-- HOURS_LEFT (R355): the smallest headroom over its zone's mean rise per hour over the last 4 plans; a free value without a rise. -/
def hoursLeft (s : State) (zs : List PlanZone) : Nat :=
  let z := tightest zs
  let room := (zs.map PlanZone.room).foldl min 1000000
  let last := s.flash.plans.drop (s.flash.plans.length - 4)
  let rise : Int := (last.drop 1).foldl (fun a r => a + (r.zones[z]?.elim 0 PlanZone.change)) (zs[z]?.elim 0 PlanZone.change)
  let span := s.flash.hours - (last.head?.elim 0 PlanRec.hours)
  if rise ≤ 0 || span = 0 then (Config.freeWord s.free).toNat % 2 ^ 32 else satAt 4294967295 (room * span / rise.toNat)

/-- The plan record of 256 bytes (R355). -/
def planBytes (r : PlanRec) : List Byte :=
  let z (x : PlanZone) : List Byte :=
    natLe (x.change % 256).toNat 1 ++ natLe (satAt 255 x.room) 1 ++ natLe x.cap 1 ++ [0] ++ natLe x.slow 4
  let b := natLe r.plan 4 ++ natLe r.hours 4 ++ natLe r.time 8 ++ natLe r.cls 1 ++ natLe r.cause 1 ++ [0, 0] ++ natLe r.left 4 ++
    r.zones.flatMap z ++ List.replicate 100 0
  b ++ natLe (crc32c b) 4

/-- A re-plan (R354, R355). -/
def replan (s : State) (cause : Nat) : State :=
  let cls := s.tun.cur.cooling
  let r := planZones s cls
  let left := hoursLeft r.1 r.2
  let x : PlanRec := { plan := r.1.flash.planCount + 1, hours := r.1.flash.hours, time := r.1.clk.time, cls := cls, cause := cause, left := left, zones := r.2 }
  let s1 := { r.1 with
    free := r.1.free + 1
    flash := { r.1.flash with planCount := r.1.flash.planCount + 1, plans := keepLast 1024 r.1.flash.plans x } }
  let s2 := pwrLog s1 0x30A 0
  if left < 8760 || r.2.any (fun z => decide (z.room < 20)) then pwrLog s2 0x30B 0 else s2

/-- REPLAN (R354): a write of PWR_AGE_CTRL, discarded while a re-plan runs; or the management core runs the re-plan whose turn has come. -/
def execReplan (write : Option (Fin 18)) (s : State) : Res :=
  match write with
  | some fn =>
    if !mayWrite s fn R.PWR_AGE_CTRL || (coreFree s && planNext s) then .next s else .next (pushJob s (.plan 1))
  | none =>
    match s.tun.jobs with
    | .plan c :: js => if coreFree s then .next (fwResume (replan { s with tun := { s.tun with jobs := js } } c)) else .next s
    | _ => .next s

end Sys2Proof.Machine
end

