-- ==== Sys2Proof/Machine/Reset.lean ====
section
/-! DEFINITION. Power-on, boot, the resets and the commanded stop (R361, R412 to R425). -/

namespace Sys2Proof.Machine

/-! ## Fresh dies -/

/-- Re-plans that are due stay due (R20, R354); loads and mailbox commands do not outlive a reset (R420). -/
def keptJobs (s : State) : List Job := s.tun.jobs.filter (fun j => match j with | .plan _ => true | _ => false)

/-- A die whose logic has just been powered, over a part, its flash and the stack it keeps (R415, R417). -/
def freshDie (s : State) (ph : Phase) (stack : StackSt) : State :=
  let dis := s.part.fused ++ s.flash.quarantine
  let t := defaultTuning s.part.grade dis
  { State.reset with
    pending := s.pending, phase := ph, part := s.part, flash := s.flash, stack := stack, out := s.out, free := s.free
    tun := { State.reset.tun with cur := t, geom := layGeom t dis, disabled := dis, jobs := keptJobs s }
    clk := { State.reset.clk with refOk := s.clk.refOk }
    pwr := { State.reset.pwr with mv := s.pwr.mv } }

/-- The stack after its die logic is reset: bytes and poison stay, lines and regulators do not; `st` gives each column's new state. -/
def heldStack (s : State) (col : Col → Col) : StackSt :=
  { State.reset.stack with bytes := s.stack.bytes, poison := s.stack.poison, errs := s.stack.errs, cols := tmap (fun _ => {}) s.stack.cols (fun _ c => col c) }

/-- A column that will train again: its repairs come from the map; its suspect waits for the training (R213). -/
def untrained (c : Col) : Col := { c with st := 0, training := false, spares := [], used := 0 }

/-- LAST_RESET, LAST_SCOPE and WARM_COUNT (R397, R414). -/
def noteReset (s : State) (last scope warm : Nat) : State :=
  let s1 := setRegFld { s with began := last } R.MOD_STATUS 3 2 last
  setRegFld (setRegFld s1 R.MOD_RESET_STATUS 10 8 scope) R.MOD_RESET_STATUS 31 16 (satAt 65535 warm)

/-- How the present start came; LAST_RESET shows it until a write replaces it (R12). -/
def lastReset (s : State) : Nat := s.began

/-! ## Power-on (R417) -/

/-- POWER_ON: the connector meets the bus, and the hold-up bank charges. -/
def execPowerOn (mv : Nat) (s : State) : Res :=
  if s.phase != .off then .next s
  else .next (setMv (freshDie s .charging State.reset.stack) mv)

/-- HOLDUP_CHARGED (R342, R417): rails start with V_in at least 40 V, and TIME is FREE from 0. -/
def execHoldupCharged (mv : Nat) (s : State) : Res :=
  if s.phase != .charging || mv < 40000 then .next s else .next { setMv s mv with phase := .boot }

/-- REF_PRESENT (R325, R417): the generators lock; a held start goes on. -/
def execRefPresent (s : State) : Res :=
  let s1 := { s with clk := { s.clk with refOk := true } }
  .next (if s.phase = .bootHold then { s1 with phase := .boot } else s1)

/-- BOOT_REF_TIMEOUT (R417): a module held without REF_OK records it in flash. -/
def execBootRefTimeout (s : State) : Res :=
  if s.phase = .bootHold && !s.clk.refOk then .next (log s { code := 0x201, flash := true }) else .next s

/-! ## The boot ROM (R361, R364) -/

/-- A bank that verifies: its checks hold and its SVN is at least the fuses blown. -/
def bankOk (s : State) (b : Nat) : Option Bank :=
  match s.flash.banks[b]? with
  | some k => if k.valid && decide (s.part.svnFuses ≤ k.svn) then some k else none
  | none => none

/-- Hash values of every loaded program, in partition and program order (R363). -/
def allHashes (s : State) : List Byte := (List.range 16).flatMap (fun p => (loadedProgs s p).flatMap Prog.hash)

/-- TUN_ACTIVE_HASH as bytes. -/
def activeHash (s : State) : List Byte := (List.range 6).flatMap (fun i => natLe (getReg s (R.TUN_ACTIVE_HASH i)).toNat 8)

/-- The zone generators lock at 300 MHz (R417). -/
def lockZones (s : State) : State :=
  (List.range 16).foldl (fun s z => modZone s z (fun x =>
    if x.bypass then x else { x with locked := true, target := 300, applied := 300, mv := zoneMv s z 300 })) s

/-- The image starts: FIRMWARE, and after a ride-through a STATE entry (R361, R364). -/
def startImage (s : State) (k : Bank) (fell : Bool) : State :=
  let s1 := { s with phase := .training, sec := { s.sec with running := some k, runBank := if fell then 1 - s.flash.bank else s.flash.bank, fallback := fell } }
  let s2 := measure s1 1 4 0 0 0xFF k.digest k.cert
  let s3 := if lastReset s = 3 then measure s2 8 0 0 0 0xFF (activeHash s2) (sha384 (allHashes s2)) else s2
  let s4 := lockZones s3
  if fell then secLog s4 0x901 0xFF 0 0 else s4

/-- BOOT_ROM (R361, R417): the active bank, then the other; held without the reference. -/
def execBootRom (s : State) : Res :=
  if s.phase != .boot then .next s
  else if !s.clk.refOk then .next { s with phase := .bootHold }
  else match bankOk s s.flash.bank, bankOk s (1 - s.flash.bank) with
    | some k, _ => .next (startImage s k false)
    | none, some k => .next (startImage s k true)
    | none, none => .next (secLog { s with phase := .failed } 0x902 0xFF 0 0)

/-! ## The stack trains (R212, R214, R416, R417) -/

/-- No column waits to train. -/
def settled (s : State) : Bool := (List.range 64).all (fun c => (getCol s c).st != 0 && !(getCol s c).training)

/-- Everything loaded is unloaded: a column that trained again has lost 1/64 of it (R214). -/
def unloadAll (s : State) : State :=
  (List.range 16).foldl (fun s p =>
    let ks := ((getPart s p).progs.filter (fun e => e.2.isSome)).map Prod.fst
    let s1 := ks.foldl (fun s k => modSeal (dropProg s p k) (sealKey p k) (fun x => { x with recBad := true })) s
    modPart s1 p (fun q => { q with cur := none, swapTo := none, step := {} })) s

/-- Stack bytes and poison are gone with power. -/
def stackClear (s : State) : State := { s with stack := { s.stack with bytes := [], poison := [], errs := [] } }

/-- Every lock ends. -/
def endLocks (s : State) : State := (s.flash.locks.map Prod.fst).foldl (fun s p => endLock s p 0) s

/-- A structure comes into force, its digest is shown and measured (R57, R363); its OUTCOME 0x0000 is the model's choice (log 120). -/
def forceTuning (s : State) (t : Tuning) : State :=
  measure (showHash (commitTuning s t) (tuningDigest t)) 2 0 0 0 0xFF (tuningDigest t) (tuningDigest t)

/-- Every zone aims at F_MAX. -/
def zoneTargets (s : State) : State := (List.range 16).foldl (fun s z => modZone s z (fun x => { x with target := fMax s z })) s

/-- READY; nothing of an earlier Tuning waits. -/
def bootReady (s : State) : State :=
  { s with phase := .run, tun := { s.tun with zeroising := [], oldRegions := [], oldCores := [] } }

/-- The end of power-on and cold reset: the stack is zero, locks are gone, the default Tuning is committed and measured (R57, R368). -/
def bootFinish (s : State) : State :=
  let s1 := endLocks (stackClear s)
  fwResume (bootReady (zoneTargets (forceTuning s1 (defaultTuning s1.part.grade (s1.part.fused ++ s1.flash.quarantine)))))

/-- The column's own end: READY, LOW or FAILED; a fence that stood is released over a zeroed column. -/
def columnDone (s : State) (col : Nat) (failed : List Nat) : State :=
  let r := repairLanes s col failed
  let s1 := saveRepair r.1 col
  if !r.2 then fenceColumn s1 col
  else
    let low := decide (120 < (getCol s1 col).used)
    let was := (getCol s1 col).fenced
    let s2 := if was then zeroColumn s1 col else s1
    let s3 := modCol s2 col (fun x => { x with st := if low then 2 else 1, training := false, fenced := false })
    let s4 := if was then unloadAll s3 else s3
    if low then log s4 (colEvent col 0x805) else s4

/-- LANE_TRAINING_DONE (R212, R214, R417): the last column of a power-on or cold reset ends the start. -/
def execLaneTrainingDone (col : Fin 64) (failed : List (Fin 4672)) (s : State) : Res :=
  if !railsOn s || !(getCol s col).training then .next s
  else
    let s1 := columnDone s col (failed.map Fin.val)
    .next (if settled s1 && s.phase = .training && lastReset s ≤ 1 then bootFinish s1 else s1)

/-! ## Warm reset (R415, R418) -/

/-- What a register keeps: its RWS fields, COR_PROG_HASH and COR_PROG_STATUS LOADED (R415, R419). -/
def keptBits (key : Nat) : W64 :=
  if key < 0x100000000 then (match regAt key with | some r => fieldsMask r.1.sticky | none => 0)
  else if key < 0x1000000000 then
    let off := key % 0x1000
    if 0x120 ≤ off && off < 0x150 then fmask 63 0
    else if off = 0x118 then fmask 47 32 ||| fmask 15 8
    else 0
  else 0

/-- The registers after a warm reset. -/
def keptRegs (s : State) : Tbl W64 :=
  s.regs.foldl (fun t e => tset regReset t e.1 ((e.2 &&& keptBits e.1) ||| (regReset e.1 &&& ~~~(keptBits e.1)))) []

/-- A partition keeps its programs; what they left in core store and swap areas is rewritten (R419). -/
def keptPart (q : PartSt) : PartSt :=
  { progs := tmap (fun _ => none) q.progs (fun _ x => x.map (fun g => { g with unloadReq := false, watchdog := false }))
    cur := q.cur, areas := q.areas, order := q.order }

/-- A seal keeps its record; a program whose last step is undecided rejoins (R296). -/
def keptSeal (x : SealSt) : SealSt :=
  { st := x.st, recStep := x.recStep, recEpoch := x.recEpoch, recBad := x.recBad, dims := x.dims, lastSeal := x.lastSeal, outcome := x.outcome
    fp := x.fp, rejoin := x.recBad || !(x.st = .flipped || x.st = .aborted) }

/-- A group as its program installed it (R269). -/
def keptGrp (x : Grp) : Grp :=
  { part := x.part, prog := x.prog, dims := x.dims, initScale := x.initScale, first := x.first, blocks := x.blocks, feed := x.feed
    enc := x.enc, result := x.result, policy := x.policy }

/-- TIME and zones: kept with die power, else TIME is FREE from 0; a zone in BYPASS stays there (R325, R415). -/
def keptClk (s : State) (loss : Bool) : ClkSt :=
  if loss then
    { State.reset.clk with refOk := s.clk.refOk, zones := tmap (fun _ => {}) s.clk.zones (fun _ x => { ({} : ZoneSt) with bypass := x.bypass, applied := if x.bypass then 425 else 0, cyc := x.cyc }) }
  else { s.clk with bounds := [], zones := tmap (fun _ => {}) s.clk.zones (fun _ x => { x with alert := false, warn := false, good := 0, stretched := 0 }) }

/-- Security: kept with die power, else a new log and slots from the vault (R364, R371). -/
def keptSec (s : State) (loss : Bool) : SecSt :=
  if loss then State.reset.sec else { s.sec with busReq := [], busRsp := [] }

/-- A function keeps its configuration space; its mailbox command is abandoned (R420). -/
def keptFn (f : FnSt) : FnSt := { d3 := f.d3, noBusMaster := f.noBusMaster }

/-- TUN_STATUS goes on counting a zeroise that was interrupted (R420). -/
def keptZeroise (s : State) : State :=
  if s.tun.zeroising.isEmpty then s
  else setRegFld (setRegFld s R.TUN_STATUS 1 0 3) R.TUN_STATUS 12 8 s.tun.zeroising.length

/-- The die after a warm reset (R415): `loss` when it has lost power under R344. -/
def warmDie (s : State) (loss : Bool) : State :=
  let d := { State.reset with
    pending := s.pending, phase := if loss then .boot else .warm, part := s.part, flash := s.flash, out := s.out, free := s.free
    regs := keptRegs s
    fns := if loss then [] else tmap (fun _ => {}) s.fns (fun _ f => keptFn f)
    flog := if loss then State.reset.flog else { s.flog with opens := [] }
    tun := { s.tun with runtime := [], busBuf := [], busReport := [], jobs := keptJobs s }
    parts := tmap (fun _ => {}) s.parts (fun _ q => keptPart q)
    stack := heldStack s (fun c => if loss || c.fenced then untrained c else c)
    stm := { State.reset.stm with table := s.stm.table }
    grx := { grps := tmap (fun _ => none) s.grx.grps (fun _ x => x.map keptGrp), seals := tmap (fun _ => {}) s.grx.seals (fun _ x => keptSeal x), cacheDirty := [] }
    clk := keptClk s loss
    pwr := { State.reset.pwr with mv := s.pwr.mv, refs := s.pwr.refs, hotCut := s.pwr.hotCut, hotEp := s.pwr.hotEp, energy := s.pwr.energy }
    sec := keptSec s loss
    host := if loss then State.reset.host else { s.host with wait := [] } }
  keptZeroise d

/-- T0 of a warm reset: what is open is written, neighbours hear, journals come to rest, the die is reset (R400, R418). -/
def warmEnter (s : State) (loss : Bool) : State :=
  let s1 := if onDie s then journalsOut (allLinksDown (closeOpens s (fun _ => true))) else s
  let n := fld (getReg s R.MOD_RESET_STATUS) 31 16
  noteReset (warmDie s1 loss) (if loss then 3 else 2) 1 (n + 1)

/-! ## Cold reset (R422) -/

/-- The die's rails cycle, and the start runs from T0 + 14 ms. -/
def coldEnter (s : State) : State :=
  let s1 := if onDie s then allLinksDown s else s
  noteReset (freshDie s1 .boot (heldStack s1 untrained)) 1 2 0

/-! ## MOD_RESET_CTRL (R412, R413, R421) -/

/-- Rank of a module scope: COLD, WARM, SHUTDOWN. -/
def scopeRank (scope : Nat) : Nat := if scope = 2 then 3 else if scope = 1 then 2 else 1

/-- The scope of a module reset that runs, or 0. -/
def scopeNow (s : State) : Nat :=
  match s.phase with
  | .warm => 1
  | .boot => if lastReset s = 3 then 1 else 2
  | .bootHold => if lastReset s = 3 then 1 else 2
  | .training => if lastReset s = 3 then 1 else 2
  | _ => 0

/-- The physical function and the management bus reach MOD_RESET_CTRL while the module runs, has stopped, or has tripped. -/
def mayReset (s : State) (fn : Nat) : Bool :=
  (fn = 0 || fn = 17) && !(getFn s fn).d3 && (railsOn s || s.phase = .stopped || s.phase = .tripped)

/-- A module-scope write that MOD_RESET_CTRL takes: its CONFIRM is right, and no wider reset runs. -/
def scopeTaken (s : State) (fn : Nat) (v : W64) (scope : Nat) : Bool :=
  mayReset s fn && fld v 2 0 = scope && fld v 15 8 = 0xC5 && (scopeNow s = 0 || decide (scopeRank (scopeNow s) < scopeRank scope))

/-- Held while an orderly stop runs; the wider of two stays (R413, R421). -/
def holdReset (s : State) (scope : Nat) : State :=
  { s with pwr := { s.pwr with held := some (match s.pwr.held with
      | some h => if scopeRank h < scopeRank scope then scope else h
      | none => scope) } }

/-- A trip clears only once every sensor reads below 90 degrees (R351). -/
def coolEnough (s : State) : Bool := s.phase != .tripped || decide ((hottest s).2 < 90)

/-- WARM_RESET (R412, R413, R418). -/
def execWarmReset (fn : Fin 18) (v : W64) (s : State) : Res :=
  if !scopeTaken s fn v 1 || !coolEnough s then .next s
  else if halting s then .next (holdReset s 1)
  else .next (warmEnter s false)

/-- COLD_RESET (R413, R422); a trip does not clear by it (R351). -/
def execColdReset (fn : Fin 18) (v : W64) (s : State) : Res :=
  if !scopeTaken s fn v 2 || s.phase = .tripped then .next s
  else if halting s then .next (holdReset s 2)
  else .next (coldEnter s)

/-- A core or port reset that runs ends (R413). -/
def endSmall (s : State) : State := if s.small.isSome then setRegFld { s with small := none } R.MOD_RESET_STATUS 1 0 0 else s

/-- SHUTDOWN (R413, R425): the orderly stop, with the input switch closed. -/
def execShutdown (fn : Fin 18) (v : W64) (s : State) : Res :=
  if !scopeTaken s fn v 5 || s.phase = .tripped || s.phase = .stopped then .next s
  else if halting s then .next (holdReset s 5)
  else .next (beginStop (endSmall s) true)

/-- PERST (R383, R413): warm reset, with the host link down; it counts as WARM. -/
def execPerst (s : State) : Res :=
  let down (s : State) : State := { s with host := { s.host with width := 0, rate := 0, half := 0 } }
  if scopeNow s != 0 || !(railsOn s || s.phase = .stopped) then .next (down s)
  else if halting s then .next (holdReset (down s) 1)
  else .next (down (warmEnter s false))

/-- RETENTION_ENTER (R343, R421, R425): the stop ends in STOPPED or RETENTION; a held reset takes effect. -/
def execRetentionEnter (s : State) : Res :=
  if !halting s then .next s
  else if !s.pwr.commanded then .next (dieOff s .retention)
  else
    let s1 := setRegFld (dieOff s .stopped) R.MOD_RESET_STATUS 1 0 2
    .next (match s.pwr.held with
      | some 1 => warmEnter s1 false
      | some 2 => coldEnter s1
      | _ => { s1 with pwr := { s1.pwr with held := none } })

/-- SUPPLY_RIDE_THROUGH (R344): V_in back at 42 V while the stack is held. -/
def execSupplyRideThrough (mv : Nat) (s : State) : Res :=
  if s.phase != .retention || mv < 42000 then .next s
  else match s.pwr.held with
    | some 2 => .next (setMv (coldEnter s) mv)
    | _ => .next (pwrLog (setMv (warmEnter s true) mv) 0x304 0)

/-! ## After a warm reset (R371, R419, R420) -/

/-- A key slot from the vault: the first copy that verifies, or FREE (R371). -/
def reinstall (s : State) (v n : Nat) : State :=
  let a := v + 512 * (n % 256)
  match vaultCopy s n a, vaultCopy s n (a + 256) with
  | some k, _ => setSlot s n k
  | none, some k => setSlot s n k
  | none, none =>
    if leNat (relBytes s (n / 256) a 256) = 0 && leNat (relBytes s (n / 256) (a + 256) 256) = 0 then s else secLog s 0x90C (n / 256) n 0

/-- The slots of one lock record. -/
def reinstallLock (s : State) (l : Nat × LockRec) : State :=
  (List.range 256).foldl (fun s i => reinstall s l.2.vault (256 * l.1 + i)) s

/-- Every slot of every locked partition. -/
def reinstallAll (s : State) : State := s.flash.locks.foldl reinstallLock s

/-- Programs of a partition written again from their placed images. -/
def reloadPart (s : State) (p : Nat) : State :=
  (getPart s p).progs.foldl (fun s e => match e.2 with
    | some g => claimWatchdog (writeTenants s p e.1 g (decide ((getPart s p).cur = some e.1))) p e.1 g
    | none => s) s

/-- The step of a program whose last step is undecided: as its record says (R296, R418). -/
def undecidedStep (s : State) (x : SealSt) : Step :=
  let said := x.st = .readySent || x.st = .pendingSeal || x.st = .sealed
  { active := true, begun := s.clk.time, ready := said, aborted := if said then none else some 0x705, epoch0 := x.recEpoch }

/-- A partition goes on: it rejoins, at once where its domain is this module alone, or its next step begins. -/
def resumePart (s : State) (p : Nat) : State :=
  match (getPart s p).cur with
  | none => s
  | some k =>
    let s := recordRead s (sealKey p k)
    let x := getSeal s (sealKey p k)
    if !x.rejoin then stepBoundary s p
    else
      let s1 := modPart s p (fun q => { q with step := undecidedStep s x })
      if (sealDims x.dims).isEmpty then rejoinProg s1 p k else s1

/-- Zones restart at their targets, with the rail at its table's voltage; BYPASS stays (R325). -/
def relockZones (s : State) : State :=
  (List.range 16).foldl (fun s z => modZone s z (fun x =>
    let t := max 300 (min (if x.target = 0 then fMax s z else x.target) (fMax s z))
    if x.bypass then x else { x with locked := true, target := t, applied := t, mv := zoneMv s z t })) s

/-- WARM_RESET_RESTART (R418 to R420): once no column trains, firmware runs, programs are reloaded, ports train, STATE is READY. -/
def execWarmResetRestart (s : State) : Res :=
  let loss := s.phase = .training && lastReset s = 3
  if !(s.phase = .warm || loss) || !settled s then .next s
  else
    let s1 := relockZones { s with phase := .run }
    let s2 := if loss then reinstallAll s1 else s1
    let s3 := (List.range 16).foldl reloadPart s2
    let s4 := eachPort s3 portRestart
    .next (fwResume ((List.range 16).foldl resumePart s4))

/-! ## Core and port reset (R423, R424) -/

/-- Taken while no core or port reset runs (R413). -/
def smallReset (s : State) (fn : Nat) (v : W64) (scope : Nat) : Bool :=
  mayWrite s fn R.MOD_RESET_CTRL && onDie s && fld v 2 0 = scope && fld (getReg s R.MOD_RESET_STATUS) 1 0 != 1

/-- STATE is BUSY. -/
def beginSmall (s : State) (scope target : Nat) : State :=
  { setRegFld (setRegFld (setRegFld s R.MOD_RESET_STATUS 1 0 1) R.MOD_RESET_STATUS 10 8 scope) R.MOD_RESET_STATUS 47 40 target with
    small := some (scope, target) }

/-- Tenant 0 of each loaded program is written again on one core (R423). -/
def reloadCore (s : State) (p c : Nat) : State :=
  (getPart s p).progs.foldl (fun s e => match e.2 with
    | some g =>
      match tenantOf g c 0 with
      | some v =>
        let s1 := writeTenant s p e.1 g v
        if (getPart s p).cur = some e.1 then modCore (loadCode s1 p g v (codePlace g v)) c (fun k => { k with tens := tenRegs g c, ended := true })
        else s1
      | none => s
    | none => s) s

/-- The step of a core's partition aborts on the core that receives the first poisoned response (R335, R423). -/
def crossAbort (s : State) (p c : Nat) : State :=
  let st := (getPart s p).step
  if !stepOpen st then s
  else abortStep (log s { code := 0x20A, part := p, loc := c, core := some c, payload := c % 256 }) p 0x20A (runIndex s p)

/-- Requests of other cores that wait at core `c`'s port (R335). -/
def crossing (s : State) (c : Nat) : List (Nat × MeshReq) := s.mesh.filter (fun e => e.2.core != c && decide (e.2.dst = (0, c)))

/-- Each is answered poisoned, and the core that receives the answer faults (R335). -/
def crossPoison (s : State) (l : List (Nat × MeshReq)) : State :=
  let s1 := { s with mesh := s.mesh.filter (fun e => !l.any (fun x => x.1 = e.1)) }
  let s2 := modReg s1 R.CLK_FLUSH_COUNT (fun w => setFld w 63 32 ((fld w 63 32 + l.length) % 2 ^ 32))
  (l.map (fun e => e.2.core)).eraseDups.foldl (fun s k => if coreFaulted s k then s else coreFaultAt s k .x 0x20A (some ⟨k, k % 256⟩)) s2

/-- CORE_RESET (R423). -/
def execCoreReset (fn : Fin 18) (v : W64) (s : State) : Res :=
  let c := fld v 23 16
  if !smallReset s fn v 3 || isFused s c then .next s
  else
    let s1 := flushSet (beginSmall s 3 c) c
    let f := fretOf s (2 * c)
    let g := fretOf s (2 * c + 1)
    let s2 := if f.isSome || g.isSome then flushSet s1 (512 + c) else s1
    let stop (s : State) (x : Option (Nat × Nat)) : State :=
      match x with | some y => if (getStr s y.1).run = .fault then s else strFault s y.1 0xA20 y.2 | none => s
    let s2a := crossPoison s2 (crossing s2 c)
    let s3 := match partOfCore s c with | some p => crossAbort s2a p c | none => s2a
    let s4 := stop (stop s3 f) g
    let s5 := setReg (setArr (setArr (setCore s4 c {}) (2 * c) {}) (2 * c + 1) {}) (R.COR_FAULT c) 0
    let s6 := { s5 with mesh := s5.mesh.filter (fun e => e.2.core != c) }
    .next (match partOfCore s c with | some p => reloadCore s6 p c | none => s6)

/-- PORT_RESET (R424). -/
def execPortReset (fn : Fin 18) (v : W64) (s : State) : Res :=
  let n := fld v 23 16
  if !smallReset s fn v 4 || 11 < n then .next s
  else
    let s1 := flushSet (beginSmall s 4 n) (256 + n)
    let bare (e : Nat × Vc) : Nat × Vc := (e.1, { e.2 with txq := [], replay := if 22 ≤ e.1 then [] else e.2.replay })
    let s2 := portTrain (modPort s1 n (fun p => { p with vcs := p.vcs.map bare })) n
    .next (if (getPort s2 n).st = 1 then s2 else resetOver s2 4 n)

/-! ## SEAL_PULSE (R435) -/

/-- SEAL_PULSE_END: 1 us after the last flip the pin falls. -/
def execSealPulseEnd (s : State) : Res :=
  .next ([0, 1].foldl (fun s r =>
    let g := getGpx s r
    match g.endAt with
    | some t => if g.high && decide (t ≤ s.clk.time) then emit (modGpx s r (fun g => { g with high := false, endAt := none })) (.pin r false) else s
    | none => s) s)

end Sys2Proof.Machine
end

