-- ==== Sys2Proof/Machine/Host.lean ====
section
/-! DEFINITION. The host link, functions, BAR2 and interrupts (R381 to R391). -/

namespace Sys2Proof.Machine

/-! ## The link (R382) -/

/-- HOST_LINK_CHANGE: x16 or x8, rates 1 to 7, `half` 0 for all lanes, 1 or 2 for a half; a width or rate other than that of the last training is
HOST_LINK; waiting transfers resume. -/
def execHostLinkChange (width rate half : Nat) (s : State) : Res :=
  let legal := (width = 16 && half = 0) || (width = 8 && (half = 1 || half = 2))
  if !(s.phase = .run || s.phase = .stopping || s.phase = .warm) || !legal || rate = 0 || 7 < rate then .next s
  else
    let s1 := { s with host := { s.host with width := width, rate := rate, half := half, was := (width, rate), downLogged := false } }
    let s2 := if s.host.was = (0, 0) || s.host.was = (width, rate) then s1 else raiseCause s1 0 7
    let s3 := if width < 16 || rate < 7 then log s2 { code := 0x512 } else s2
    let s4 := hostRelease s3
    .next (drainRing s4.flog.onDie.length s4)

/-- The link goes down: logged once. -/
def linkLost (s : State) : State :=
  let s1 := { s with host := { s.host with width := 0, rate := 0, half := 0, downLogged := true } }
  if s.host.downLogged then s1 else log s1 { code := 0x513 }

/-- HOST_LINK_DOWN. -/
def execHostLinkDown (s : State) : Res := if railsOn s then .next (linkLost s) else .next s

/-- HOT_RESET (R383): the link trains again; no function state changes. -/
def execHotReset (s : State) : Res := if railsOn s && decide (s.host.width ≠ 0) then .next (linkLost s) else .next s

/-! ## Function resets (R383) -/

/-- Registers of one function go to their reset values: causes, mask, STM_CMD, mailbox, MSI-X table; a running mailbox command goes on
and its response is discarded. -/
def fnReset (s : State) (fn : Nat) : State :=
  let busy := (getFn s fn).mbBusy
  let keys := [R.MOD_INT_CAUSE, R.MOD_INT_MASK, R.STM_CMD_STATUS, R.SEC_MB_REQ_ADDR, R.SEC_MB_REQ_LEN, R.SEC_MB_RSP_ADDR, R.SEC_MB_RSP_CAP,
    R.SEC_MB_STATUS] ++ (List.range 4).map R.STM_CMD_ARG
  let s1 := keys.foldl (fun s k => setReg s (fnKey fn k) (regReset (fnKey fn k))) s
  let s2 := if busy then setRegFld s1 (fnKey fn R.SEC_MB_STATUS) 0 0 1 else s1
  { modFn s2 fn (fun f => { f with d3 := false, mbDiscard := f.mbBusy }) with
    msix := tclear s2.msix (fun v => fnOfVec v = fn)
    stm := { s2.stm with
      cmd := (match s2.stm.cmd with | some k => if k.fn = fn then none else some k | none => none)
      cmdWait := s2.stm.cmdWait.filter (fun k => k.fn != fn) } }

/-- A stream of an FLR's partition without a journal is disabled. -/
def flrStream (s : State) (idx : Nat) : State :=
  if eEnabled (entryOf s idx) && !eJournal (entryOf s idx) then
    modRt (modEntry s idx (fun e => { e with flags := setFlag e.flags 0 false })) idx (fun _ => {})
  else s

/-- VF FLR of VF p + 1. -/
def vfReset (s : State) (p : Nat) : State :=
  if !fnLive s (p + 1) then s
  else
    let s1 := modFn (fnReset s (p + 1)) (p + 1) (fun f => { f with noBusMaster := true })
    let s2 := (partIdx s1 p).foldl flrStream s1
    log s2 { code := 0x517, part := p }

/-- VF_FLR. -/
def execVfFlr (v : Fin 16) (s : State) : Res := if railsOn s then .next (vfReset s v) else .next s

/-- PF_FLR: the PF's own registers, and every VF. -/
def execPfFlr (s : State) : Res := if railsOn s then .next ((List.range 16).foldl vfReset (fnReset s 0)) else .next s

/-! ## Power states and bus master (R381, R383) -/

/-- What a function that reaches the host again has waiting leaves. -/
def hostResume (s : State) : State := let s1 := hostRelease s; drainRing s1.flog.onDie.length s1

/-- FUNCTION_POWER_STATE: D3hot closes memory space; D0 opens it, and host transfers resume. -/
def execFunctionPowerState (fn : Fin 18) (d3 : Bool) (s : State) : Res :=
  if fn.val = 17 || !railsOn s then .next s
  else
    let s1 := modFn s fn (fun f => { f with d3 := d3 })
    .next (if d3 then s1 else hostResume s1)

/-- BUS_MASTER_ENABLE. -/
def execBusMasterEnable (v : Fin 16) (s : State) : Res :=
  if !railsOn s then .next s
  else .next (hostResume (modFn s (v.val + 1) (fun f => { f with noBusMaster := false })))

/-! ## BAR2 (R196 to R199, R385, R387) -/

/-- The partition whose space a function's BAR2 shows. -/
def barPart (s : State) (fn : Nat) : Nat := if fn = 0 then fld (getReg s R.STK_BAR2_PART) 3 0 else fn - 1

/-- A function whose memory space answers. -/
def barOpen (s : State) (fn : Nat) : Bool := railsOn s && decide (s.host.width ≠ 0) && fn != 17 && !(getFn s fn).d3

/-- A BAR2 range that shows bytes: the function serves (R384), no lock hides the partition (R366), every byte is mapped (R198). -/
def barShows (s : State) (fn off len : Nat) : Bool := fnLive s fn && !isLocked s (barPart s fn) && relMapped s (barPart s fn) off len

/-- BAR2_READ: completion 0 success, 1 Completer Abort, 3 success with EP; the bytes. -/
def execBar2Read (fn : Fin 18) (off len : Nat) (ecc : Ecc) (s : State) : Res :=
  let p := barPart s fn
  if !barOpen s fn then .next s
  else if !barShows s fn off len then .next (emit s (.bar 0 (List.replicate len 0)))
  else match relToSa s p off with
    | none => .next (emit s (.bar 0 (List.replicate len 0)))
    | some sa =>
      if !saAllowed s p sa len then .next (emit (logPartition s .host p sa) (.bar 1 []))
      else
        let r := saRead (latent s ecc) .host p sa len
        .next (emit r.2.2 (.bar (if r.2.1 then 3 else 0) r.1))

/-- BAR2_WRITE. -/
def execBar2Write (fn : Fin 18) (off : Nat) (data : List Byte) (s : State) (ecc : Ecc := .ok) : Res :=
  let p := barPart s fn
  if !barOpen s fn || !barShows s fn off data.length then .next s
  else match relToSa s p off with
    | none => .next s
    | some sa =>
      if !saAllowed s p sa data.length then .next (emit (logPartition s .host p sa) (.bar 1 []))
      else .next (saWrite (latent s ecc) .host p sa data)

/-! ## Causes and vectors (R390, R391) -/

/-- Raise the vectors of the causes in a mask. -/
def raiseMask (s : State) (fn : Nat) (m : W64) : State :=
  (List.range 9).foldl (fun s b => if m.getLsbD b then raiseVec s (vecBase fn + b) else s) s

/-- MOD_INT_CAUSE_CLEAR: W1C, but a cause whose event comes in the same cycle stays set (R13); causes that remain set and unmasked raise their vectors again. -/
def execModIntCauseClear (fn : Fin 18) (v : W64) (s : State) (ev : W64 := 0) : Res :=
  if !mayWrite s fn R.MOD_INT_CAUSE then .next s
  else
    let k := fnKey fn R.MOD_INT_CAUSE
    let c := getReg s k &&& ~~~(v &&& ~~~ev)
    let s1 := setReg s k c
    .next (raiseMask s1 fn (if v &&& fmask 8 0 = 0 then 0 else c &&& getReg s (fnKey fn R.MOD_INT_MASK)))

/-- MOD_INT_MASK_WRITE: a set cause that is unmasked now raises its vector. -/
def execModIntMaskWrite (fn : Fin 18) (v : W64) (s : State) : Res :=
  if !mayWrite s fn R.MOD_INT_MASK then .next s
  else
    let k := fnKey fn R.MOD_INT_MASK
    let m := v &&& fmask 8 0
    .next (raiseMask (setReg s k m) fn (getReg s (fnKey fn R.MOD_INT_CAUSE) &&& m &&& ~~~(getReg s k)))

/-- A vector is unmasked; its pending message goes out. -/
def unmaskVec (s : State) (v : Nat) : State :=
  let e := getMsix s v
  let s1 := modMsix s v (fun e => { e with unmasked := true, pba := false })
  if e.pba then hostEmit s1 (fnOfVec v) (.msix v e.addr e.data) else s1

/-- MSIX_UNMASK. -/
def execMsixUnmask (vec : Nat) (s : State) : Res :=
  if !railsOn s || 2048 ≤ vec || !fnLive s (fnOfVec vec) || (getFn s (fnOfVec vec)).d3 then .next s else .next (unmaskVec s vec)

end Sys2Proof.Machine
end

