-- ==== Sys2Proof/Machine/Debug.lean ====
section
/-! DEFINITION. The fault log's host side, quarantine, Record mode, Replay mode and the core trace (R400 to R411). -/

namespace Sys2Proof.Machine

/-! ## The fault log (R400, R401) -/

/-- FAULT_MERGE_END (R400): the interval of one open record has ended. -/
def execFaultMergeEnd (i : Nat) (s : State) : Res :=
  match s.flog.opens[i]? with
  | some o => if o.until_ ≤ s.clk.time then .next (closeOpens s (fun x => x = o)) else .next s
  | none => .next s

/-- FAULT_RING_DRAIN (R401): a write of DBG_FLOG_TAIL makes room, and held records follow. -/
def execFaultRingDrain (fn : Fin 18) (v : W64) (s : State) : Res :=
  if !mayWrite s fn R.DBG_FLOG_TAIL then .next s
  else let s1 := setReg s R.DBG_FLOG_TAIL v; .next (drainRing s1.flog.onDie.length s1)

/-! ## Quarantine (R405) -/

/-- A core joins the list, or the list is full. -/
def joinList (s : State) (c : Nat) : State :=
  if s.flash.quarantine.contains c then s
  else if 16 ≤ s.flash.quarantine.length then log s { code := 0xA42, loc := c, core := some c }
  else log { s with flash := { s.flash with quarantine := s.flash.quarantine ++ [c] } } { code := 0xA41, loc := c, core := some c }

/-- The powered hour of a core's last CORE_HW_FAULT. -/
def lastHw (s : State) (c : Nat) : Option Nat := tget (fun _ => none) s.flash.hwErr c

/-- CORE_HW_FAULT (R91, R404, R405): the step aborts; an array's failure stops its String too; the second fault within 24 powered hours
quarantines the core. -/
def execCoreHwFault (c : Fin 256) (array : Option (Fin 2)) (s : State) : Res :=
  if !onDie s || isFused s c then .next s
  else
    let s1 := coreFault s c (match array with | some a => unitOfArr a | none => .c) 0xA40
    let s2 := match array with
      | some a => (match fretOf s1 (arrOf c a) with | some f => strFault s1 f.1 0xA20 f.2 | none => s1)
      | none => s1
    let again := match lastHw s c with | some h => decide (s.flash.hours ≤ h + 24) | none => false
    let s3 := { s2 with flash := { s2.flash with hwErr := tset (fun _ => none) s2.flash.hwErr c (some s.flash.hours) } }
    .next (if again then joinList s3 c else s3)

/-- QUARANTINE_ADD: a write of DBG_QUAR_CTRL with ADD. -/
def execQuarantineAdd (fn : Fin 18) (v : W64) (s : State) : Res :=
  if !mayWrite s fn R.DBG_QUAR_CTRL || !v.getLsbD 8 then .next s else .next (joinList s (fld v 7 0))

/-- QUARANTINE_REMOVE: a write of DBG_QUAR_CTRL with REMOVE; its CORE_HW_FAULT events count from zero. -/
def execQuarantineRemove (fn : Fin 18) (v : W64) (s : State) : Res :=
  if !mayWrite s fn R.DBG_QUAR_CTRL || !v.getLsbD 9 then .next s
  else
    let c := fld v 7 0
    .next { s with flash := { s.flash with
      quarantine := s.flash.quarantine.filter (fun x => x != c), hwErr := tset (fun _ => none) s.flash.hwErr c none } }

/-! ## Record mode (R406, R408) -/

/-- A DEBUG entry: the DBG configuration written (R363). -/
def debugMeasure (s : State) (src : Nat) : State :=
  measure s 7 src 0 0 0xFF (sha384 (natLe (getReg s R.DBG_CTRL).toNat 8 ++ natLe (getReg s R.DBG_REC_PARTS).toNat 8)) []

/-- TRACE_BUF is resource 10; another feature's claim fails with RESOURCE_OWNED (R49, R50). -/
def takeTrace (s : State) (feature : Nat) : Option State :=
  match ownerOf s 10 with
  | none => some (takeRes s 10 (claimValue feature 10 0))
  | some o => if claimFeat o.1 = feature then some s else none

def traceOwned (s : State) : State := log s { code := 0x107, loc := 10, payload := match ownerOf s 10 with | some o => o.1 | none => 0 }

/-- TRACE_BUF goes back from a run-time claim of the feature. -/
def freeTrace (s : State) (feature : Nat) : State :=
  if s.tun.runtime.any (fun c => c.res = 10 && claimFeat c.value = feature) then dropRes s 10 else s

/-- Recording starts. -/
def recStart (s : State) : State :=
  debugMeasure (setRegFld { s with dbg := { s.dbg with recSeq := 0 } } R.DBG_STATUS 1 0 2) 1

def debugBusy (s : State) : State := log s { code := 0x524 }

/-- REC_EN: record mode, armed when REC_ARM is set. -/
def recEnable (s : State) : State :=
  if (getReg s R.DBG_CTRL).getLsbD 0 then s
  else if fld (getReg s R.DBG_STATUS) 3 2 = 1 then debugBusy s
  else match takeTrace s 3 with
    | none => traceOwned s
    | some s1 =>
      let s2 := setRegFld s1 R.DBG_CTRL 0 0 1
      if (getReg s2 R.DBG_CTRL).getLsbD 2 then setRegFld s2 R.DBG_STATUS 1 0 1 else recStart s2

/-- REC_EN is cleared: a recording that runs ends, and the buffer goes back. -/
def recDisable (s : State) : State :=
  let s1 := if fld (getReg s R.DBG_STATUS) 1 0 = 2 then recStop s 0x520 else s
  freeTrace (setRegFld (setRegFld s1 R.DBG_CTRL 0 0 0) R.DBG_STATUS 1 0 0) 3

/-- REC_EN (R406). -/
def execRecEn (fn : Fin 18) (s : State) : Res := if mayWrite s fn R.DBG_CTRL then .next (recEnable s) else .next s

/-- REC_ARM is set; a record mode that has not started waits for the edge. -/
def recArmSet (s : State) : State :=
  let s1 := setRegFld s R.DBG_CTRL 2 2 1
  if (getReg s R.DBG_CTRL).getLsbD 0 && fld (getReg s R.DBG_STATUS) 1 0 != 2 then setRegFld s1 R.DBG_STATUS 1 0 1 else s1

/-- REC_ARM (R406). -/
def execRecArm (fn : Fin 18) (s : State) : Res := if mayWrite s fn R.DBG_CTRL then .next (recArmSet s) else .next s

/-- REC_STOP (R408). -/
def recHalt (s : State) : State :=
  match fld (getReg s R.DBG_STATUS) 1 0 with
  | 2 => recStop s 0x520
  | 1 => setRegFld s R.DBG_STATUS 1 0 3
  | _ => s

/-- REC_STOP: writes END and stops recording. -/
def execRecStop (fn : Fin 18) (s : State) : Res := if mayWrite s fn R.DBG_CTRL then .next (recHalt s) else .next s

/-- GPX0_EDGE (R333, R406, R435): ignored for 1 us after the pin was taken; an epoch pulse, or the start of an armed recording. -/
def execGpx0Edge (s : State) : Res :=
  let early := match (getGpx s 0).takenAt with | some t => decide (s.clk.time < t + 1000) | none => false
  if !onDie s || early then .next s
  else if ownedBy s 0 1 then (if s.clk.aux then .next (epochPulse s) else .next s)
  else if ownedBy s 0 2 && fld (getReg s R.DBG_STATUS) 1 0 = 1 then .next (recStart s)
  else .next s

/-! ## Replay mode (R409) -/

/-- Partitions named in DBG_REC_PARTS. -/
def recParts (s : State) : List Nat := (List.range 16).filter (fun p => (getReg s R.DBG_REC_PARTS).getLsbD p)

/-- REPLAY_EN: the outside is fenced off and replay starts, or it is refused. -/
def replayStart (s : State) : State :=
  if fld (getReg s R.DBG_STATUS) 3 2 = 1 then s
  else if (getReg s R.DBG_CTRL).getLsbD 0 || (recParts s).any (fun p => !partIdle s p) then debugBusy s
  else match (recParts s).find? (fun p => isLocked s p) with
    | some p => secLog s 0x907 p 0 0
    | none =>
      match takeTrace s 3 with
      | none => traceOwned s
      | some s1 =>
        let s2 := setRegFld (setRegFld s1 R.DBG_CTRL 4 4 1) R.DBG_STATUS 3 2 1
        debugMeasure (eachPort { s2 with dbg := { s2.dbg with waitData := [], waitSince := some s2.clk.time } } portTrain) 1

/-- REPLAY_EN (R409). -/
def execReplayEn (fn : Fin 18) (s : State) : Res := if mayWrite s fn R.DBG_CTRL then .next (replayStart s) else .next s

/-- Replay ends with a state and a code: the fence is released. -/
def replayEnd (s : State) (st code : Nat) : State :=
  let s1 := setRegFld (setRegFld s R.DBG_CTRL 4 4 0) R.DBG_STATUS 3 2 st
  log (eachPort (freeTrace { s1 with dbg := { s1.dbg with waitData := [], waitSince := none } } 3) portTrain) { code := code }

/-- REPLAY_EN is cleared: replay stops. -/
def replayClear (s : State) : State :=
  if fld (getReg s R.DBG_STATUS) 3 2 = 1 then replayEnd s 3 0x521 else setRegFld s R.DBG_CTRL 4 4 0

/-- A value read from a payload. -/
def pay64 (b : List Byte) (o : Nat) : W64 := BitVec.ofNat 64 (leAt b o 8)

/-- A command write of an entry (R407): STM_CMD, STM_RECOVER, COR_PROG_CTRL, or a whole mailbox request. -/
def replayCmd (s : State) (p : Nat) (b bulk : List Byte) : State :=
  let off := leAt b 0 4
  let v := pay64 b 4
  if b.length ≠ 12 then mailbox s 0 b (fun s => mbAny s 0 b)
  else if off = R.STM_CMD then stmCmdGo s 0 (fld v 7 0) (fld v 63 8) bulk
  else if off = R.STM_RECOVER then recoverGo s v
  else if 0x1000000 ≤ off then progGo s 0 p off v
  else s

/-- RESULT records of an entry, in place of the exchange for their blocks. -/
def replayResult (s : State) (idx : Nat) (b : List Byte) : Option State :=
  match s.grx.grps.find? (fun e => match e.2 with | some g => g.result = idx && grpRuns s g | none => false) with
  | some (slot, some g) =>
    let m := b.length / 272
    if !engineRoom s g.result || g.blocks < g.done + m then none
    else
      let s1 := (List.range m).foldl (fun s i =>
        scalePut s ((grpEpoch s g + 1) % 2) (blockOf s g (g.done + i)) (leAt b (272 * i + 4) 4)) s
      let s2 := modGrp (engineProduce s1 g.part g.result b) slot (fun g => { g with done := g.done + m })
      some (if g.done + m = g.blocks then (match getGrp s2 slot with | some g => grpEnd s2 slot g | none => s2) else s2)
  | _ => none

/-- A seal decision of an entry. -/
def replaySeal (s : State) (p : Nat) (b : List Byte) : Option State :=
  match (getPart s p).cur with
  | some k =>
    if !(getPart s p).step.ready && (getPart s p).step.aborted.isNone then none
    else some (if leAt b 9 1 = 1 then applySeal s p k else applyAbort s p k (leAt b 10 2))
  | none => none

/-- What an entry does when its turn has come; `none` while it waits. -/
def replayApply (s : State) (typ p src key : Nat) (b bulk : List Byte) : Option State :=
  match typ with
  | 1 => if eEnabled (entryOf s src) && nextIdx s src = key then (ctxUse s src).map (fun s => wakeStep (acceptGo s src (descParse (b.take 32)) true) src) else none
  | 2 => some (bell s p (leAt b 0 4) (pay64 b 4))
  | 3 => (match (getRt s src).flights.find? (fun f => f.idx = key && !f.fin && !f.landed) with | some f => some (moveIn s src f b) | none => none)
  | 4 =>
    if (nextRecv s src).isNone then none
    else some (deliverUnit s (leAt b 0 4) src { vc := 0, mcast := false, last := leAt b 12 1 = 1, lseq := 0, dst := ownAddr s, dstStream := src
                                                eseq := leAt b 4 8 % 65536, data := b.drop 13 })
  | 5 => some (loadTuning s false false b)
  | 6 => if fld (getReg s (R.COR_PROG_STATUS p)) 1 0 = 0 && (loadedProgs s p).isEmpty then none else some s
  | 7 => some (replayCmd s p b bulk)
  | 8 => some { s with dbg := { s.dbg with waitData := s.dbg.waitData ++ [(timerdKey src, b.drop 8)] } }
  | 9 => replayResult s src b
  | 10 => replaySeal s p b
  | _ => some s

/-- Does the data of an entry fail its recorded digest: bulk data of a digest entry, or a program's image. -/
def replayBad (s : State) (typ fmt p : Nat) (b bulk : List Byte) : Bool :=
  (fmt = 1 && sha384 bulk != (if typ = 4 then b.drop 13 else b)) ||
  (typ = 6 && (List.range 6).flatMap (fun i => natLe (getReg s (R.COR_PROG_HASH p i)).toNat 8) != b.take 48)

/-- Start of the 2,000,000 ns that an entry may wait. -/
def replayWaits (s : State) : State :=
  if s.dbg.waitSince.isSome then s else { s with dbg := { s.dbg with waitSince := some s.clk.time } }

/-- The next entry has been taken: HEAD moves, and the turn of the one after it begins; at TAIL replay is done. -/
def replayNext (s : State) (n : Nat) : State :=
  let size := max 1 (getReg s R.DBG_REC_SIZE).toNat
  let s1 := setReg { s with dbg := { s.dbg with waitSince := some s.clk.time } } R.DBG_REC_HEAD (BitVec.ofNat 64 (((getReg s R.DBG_REC_HEAD).toNat + n) % size))
  if getReg s1 R.DBG_REC_HEAD = getReg s1 R.DBG_REC_TAIL && s1.dbg.waitData.isEmpty then replayEnd s1 2 0x523 else s1

/-- REPLAY_ENTRY (R408, R409): `entry` is the entry at DBG_REC_HEAD, `bulk` what the host has placed for a digest entry or an image. -/
def execReplayEntry (entry bulk : List Byte) (s : State) : Res :=
  if !onDie s || fld (getReg s R.DBG_STATUS) 3 2 != 1 then .next s
  else if !s.dbg.waitData.isEmpty then .next (replayWaits s)
  else
    let typ := leAt entry 16 1
    let fmt := leAt entry 17 1
    let p := leAt entry 18 1
    let b := (entry.drop 32).take (leAt entry 20 4)
    if typ = 15 then .next (replayEnd s 2 0x523)
    else if p < 16 && !(recParts s).contains p then .next (replayNext s entry.length)
    else if typ = 6 && (replayApply s 6 p 0 0 b bulk).isNone then .next (replayWaits s)
    else if replayBad s typ fmt p b bulk then .next (replayEnd s 3 0x522)
    else match replayApply s typ p (leAt entry 24 4) (leAt entry 28 4) (if fmt = 1 then (if typ = 4 then b.take 13 ++ bulk else bulk) else b) bulk with
      | some s1 => .next (replayNext s1 entry.length)
      | none => .next (replayWaits s)

/-- REPLAY_DIVERGED (R409): an entry has waited for more than 2,000,000 ns. -/
def execReplayDiverged (s : State) : Res :=
  match s.dbg.waitSince with
  | some t => if onDie s && fld (getReg s R.DBG_STATUS) 3 2 = 1 && decide (t + 2000000 < s.clk.time) then .next (replayEnd s 3 0x521) else .next s
  | none => .next s

/-! ## The core trace (R410) -/

/-- Cores selected for the trace. -/
def traceCores (s : State) : List Nat := (List.range 256).filter (fun c => (getReg s (R.DBG_TRACE_CORES (c / 64))).getLsbD (c % 64))

/-- TRACE_EN is set: refused for a locked partition's cores, and when another feature owns TRACE_BUF. -/
def traceStart (s : State) : State :=
  if (getReg s R.DBG_STATUS).getLsbD 4 then s
  else match (traceCores s).find? (fun c => match partOfCore s c with | some p => isLocked s p | none => false) with
    | some c => secLog s 0x907 ((partOfCore s c).getD 0xFF) 0 0
    | none =>
      match takeTrace s 4 with
      | none => traceOwned s
      | some s1 => debugMeasure (setRegFld (setRegFld { s1 with dbg := { s1.dbg with trace := [] } } R.DBG_CTRL 5 5 1) R.DBG_STATUS 4 4 1) 1

/-- TRACE_EN is cleared. -/
def traceStop (s : State) : State :=
  freeTrace (setRegFld (setRegFld s R.DBG_CTRL 5 5 0) R.DBG_STATUS 4 4 0) 4

/-- TRACE_EN (R410): bit 5 of the value written to DBG_CTRL. -/
def execTraceEn (fn : Fin 18) (v : W64) (s : State) : Res :=
  if !mayWrite s fn R.DBG_CTRL then .next s else .next (if v.getLsbD 5 then traceStart s else traceStop s)

/-- The trace buffer goes to host memory, oldest event first. -/
def traceDump (s : State) : State :=
  if s.dbg.trace.isEmpty then s else hostWrite s 0 (getReg s R.DBG_TRACE_ADDR).toNat s.dbg.trace.flatten

/-- DUMP (R410). -/
def execDump (fn : Fin 18) (s : State) : Res := if mayWrite s fn R.DBG_CTRL then .next (traceDump s) else .next s

end Sys2Proof.Machine
end

