-- ==== Sys2Proof/Machine/Strings.lean ====
section
/-! DEFINITION. The commands and events of Strings (R76 to R91). -/

namespace Sys2Proof.Machine

/-! ## The Bow descriptor (R78) -/

def bowSlices (d : Nat) : Nat := bits d 115 104 + 1
def bowBows (d : Nat) : Nat := bits d 103 101 + 1
def bowSplit (d : Nat) : Nat := bits d 97 96
def bowDepth (d : Nat) : Nat := bits d 93 92
def bowStat (d : Nat) : Nat := bits d 91 88
def bowStrm (d : Nat) : Nat := bits d 87 84
def bowOpen (d : Nat) : Bool := nbit d 83
def bowClose (d : Nat) : Bool := nbit d 82
def bowPre (d : Nat) : Bool := nbit d 81
def bowFence (d : Nat) : Bool := nbit d 80
def bowBridge (d : Nat) : Nat := bits d 79 78
def bowFq (d : Nat) : Nat := bits d 75 72
def bowRows (d : Nat) : Nat := bits d 70 64
def bowPq (d : Nat) : Nat := bits d 55 52
def bowOut (d : Nat) : Nat := bits d 51 48
def bowTag (d : Nat) : Nat := bits d 31 0

/-- Streamed and stationary format of a descriptor that R80 let pass. -/
def bowStrmFmt (d : Nat) : Fmt := (fmtOf (bowStrm d)).getD .e2m1
def bowStatFmt (d : Nat) : Fmt := (fmtOf (bowStat d)).getD .e2m1
/-- Columns that one slice carries: c times the sections (R62, R63). -/
def bowCols (d : Nat) : Nat := colsPerCycle (bowStatFmt d) (bowStrmFmt d) * sectionsOf (bowDepth d)
/-- Bytes of one slice: its payload, then its scale bytes (R62, R172). -/
def bowPayload (d : Nat) : Nat := planeBytes (bowStrmFmt d) (bowCols d * depthOf (bowDepth d))
def bowScales (d : Nat) : Nat := if fIsBlock (bowStrmFmt d) then bowCols d * (depthOf (bowDepth d) / 32) else 0
def bowSliceBytes (d : Nat) : Nat := bowPayload d + bowScales d

/-- A descriptor that the Nut refuses (R80, R102). -/
def bowInvalid (d : Nat) : Bool :=
  bits d 127 116 != 0 || nbit d 94 || bits d 77 76 != 0 || nbit d 71 || bits d 63 56 != 0 || bits d 47 32 != 0 ||
  decide (7 < bowStat d) || decide (7 < bowStrm d) || decide (8 < bowOut d) || decide (bowBridge d = 3) ||
  decide (splitGroups (bowSplit d) < bowBase d + bowBows d) ||
  (bowSum d && (decide (bowRows d = 0) || decide (96 < bowRows d))) ||
  (!bowSum d && decide (splitEntries (bowSplit d) < bowSlices d * bowCols d)) ||
  (!bowSum d && decide (bowBridge d = 2)) || (bowSum d && decide (bowBridge d ≠ 2)) ||
  (decide (bowBridge d = 1) && decide (256 < bowSlices d)) || (decide (1 < bowBows d) && decide (bowBridge d ≠ 1)) ||
  (bowPre d && !bowOpen d) ||
  (decide (bowDepth d = 2) && (fIsBlock (bowStatFmt d) || fIsBlock (bowStrmFmt d)))

/-- A Bow that the Nut refuses: the flag is set and the program faults; nothing else changes on the String (R77, R80, R93). -/
def bowRefuse (s : State) (c : Nat) (u : UnitId) (n code : Nat) : State :=
  coreFaultAt (flagString s n code 0) c u code (some ⟨n, 0⟩)

/-- The core is the Nut core of String `n`, in the partition that holds it (R77). -/
def nutCore (s : State) (c n : Nat) : Bool :=
  (match strGeom s n with | some g => decide (g.frets.headD 512 / 2 = c) | none => false) && decide (partOfStr s n = partOfCore s c)

/-- BOW (R77, R78, R80): the Nut of the core's String takes the descriptor. The refusal of R77 comes before those of R170. -/
def execBow (c : Fin 256) (a : Fin 2) (desc : Opnd) (st : Fin 16) (s : State) : Res :=
  onUnit s c (unitOfArr a) (.bow desc st) (fun s =>
    let u := unitOfArr a
    let k := getCore s c
    let o := opnd k desc
    let d := leNat (csRead k o 16)
    match fretOf s (arrOf c a) with
    | none => coreFaultAt s c u 0xA25 (some ⟨0xFFFF, 0⟩)
    | some nf =>
      if !nutCore s c nf.1 then bowRefuse s c u nf.1 0xA25
      else if o % 16 ≠ 0 then coreFault s c u 0xA01
      else checked s c u [rd o 16] (
        if bowInvalid d then bowRefuse s c u nf.1 0xA23
        else
          retire (modCore (modStr (traceEv s c 2 nf.1) nf.1 (fun x => { x with
            waiting := x.waiting ++ [⟨d, st, c, k.tenant, (partOfCore s c).getD 0, headBundle k u⟩] })) c
            (fun k => if bowSum d then { k with apend := k.apend ++ [.st st] } else k)) c u))

/-! ## Issue at the Nut (R83) -/

/-- Frets of a String. -/
def fretsOf (s : State) (n : Nat) : List Nat := match strGeom s n with | some g => g.frets | none => []

/-- The first fret whose array satisfies `p`. -/
def firstFret (s : State) (n : Nat) (p : Arr → Bool) : Option Nat := (fretsOf s n).findIdx? (fun a => p (getArr s a))

/-- Groups that a tile targets. -/
def bowGroups (d : Nat) : List Nat := (List.range (bowBows d)).map (fun b => bowBase d + b)

/-- What the Nut finds before slice 0: a fault with its fret, a wait cause, or nothing in the way (R67, R83). -/
inductive NutChk where
  | fault (fret : Nat)
  | wait (cause : Nat)
  | go
  deriving DecidableEq, Repr

/-- Every fret holds a loaded shadow: its ready token stands at the Nut (R64, R92). -/
def tokensIn (s : State) (n : Nat) : Bool := (fretsOf s n).all (fun a => decide ((getArr s a).sh = .loaded))

/-- Every fret reports every group of a list as an OPEN tile needs it. -/
def groupsReady (s : State) (n d : Nat) (gs : List Nat) : Bool :=
  (fretsOf s n).all (fun a => gs.all (fun g =>
    if bowPre d then decide ((getGroup (getArr s a) g).st = .preloaded) else grpClosed (getArr s a) g))

/-- What every Bow of a tile meets at the Nut, with the groups that its frets must report (R67, R83); a sum Bow needs no token. -/
def bowCheck (s : State) (n d : Nat) (gs : List Nat) : NutChk :=
  match firstFret s n (fun a => a.split != bowSplit d) with
  | some f => .fault f
  | none =>
    if !bowSum d && bowOpen d && !bowPre d &&
        (firstFret s n (fun a => gs.any (fun g => decide ((getGroup a g).st = .preloaded)))).isSome then .fault 0
    else if bowSum d then .go
    else if !tokensIn s n then .wait 1
    else if bowOpen d && !groupsReady s n d gs then .wait 2
    else .go

/-- A tile with FENCE, or one whose MODE or SPLIT differs from the tile before, waits for the drain (R83). -/
def mustDrain (s : State) (n d : Nat) : Bool :=
  !strDrained s n && (bowFence d || (match (getStr s n).prevMode with
    | some m => decide (m ≠ (b2n (bowSum d), bowSplit d)) | none => false))

/-- Issue conditions of a descriptor's slice 0 (R67, R83). -/
def nutCheck (s : State) (n d : Nat) : NutChk :=
  match bowCheck s n d (bowGroups d) with
  | .fault f => .fault f
  | r => if mustDrain s n d then .wait 4 else r

/-- The core of a fret is quarantined (R74, R405). -/
def fretLost (s : State) (a : Nat) : Bool := s.flash.quarantine.contains (a / 2)

/-- The first fret of a String whose core is quarantined: a sum Bow that begins reaches it (R74, R93). -/
def firstLost (s : State) (n : Nat) : Option Nat := (fretsOf s n).findIdx? (fun a => fretLost s a)

/-- One fret as slice 0 of Bow `b` reaches it (R65, R67, R72): the slots swap, the group is entered; or the code that faults. -/
def enterFret (x : Arr) (d b : Nat) : Arr × Option Nat :=
  let g := bowBase d + b
  let y := { x with active := x.shadow, shadow := none, sh := .free }
  let t := activeTile y (bowStatFmt d)
  let gr := getGroup x g
  if bowOpen d then
    if (if bowPre d then decide (gr.st = .preloaded) else grpClosed x g) then (setGroup y g (openGroup gr (bowPre d) (some t.map) false), none)
    else (y, some 0xA21)
  else if gr.st ≠ .open_ then (y, some 0xA21)
  else match gr.map with
    | some m => if sameMap m t.map then (y, none) else (y, some 0xA22)
    | none => (y, none)

/-- Slice 0 at every fret in order; the first fault ends the Bow (R91). -/
def enterFrets (s : State) (d b : Nat) : List (Nat × Nat) → State × Option (Nat × Nat)
  | [] => (s, none)
  | (a, f) :: t =>
    if fretLost s a then (s, some (0xA20, f)) else
    let r := enterFret (getArr s a) d b
    let s1 := setArr s a r.1
    match r.2 with
    | some code => (s1, some (code, f))
    | none => enterFrets s1 d b t

/-- Columns of slices as values: column i of a slice takes its depths in order (R62, R101, log 19). -/
def sliceCols (d : Nat) (bs : List Byte) : List (List Num) :=
  let f := bowStrmFmt d
  let dep := depthOf (bowDepth d)
  (List.range (bowCols d)).map (fun i => (List.range dep).map (fun k =>
    unpackElem f (planeElem f (bs.take (bowPayload d)) (i * dep + k))
      ((bs.getD (bowPayload d + i * (dep / 32) + k / 32) 0).toNat)))

/-- Slices from index `j` into Bow `b`'s group at one fret (R61, R107 to R111). -/
def fretSlices (x : Arr) (d b j : Nat) (sl : List (List Byte)) : Arr :=
  let g := bowBase d + b
  let t := activeTile x (bowStatFmt d)
  let cols := sl.flatMap (sliceCols d)
  let y := cols.zipIdx.foldl (fun y ce => addColumn t y (j * bowCols d + ce.2) ce.1) (getGroup x g)
  setGroup x g { y with used := max y.used (j * bowCols d + cols.length) }

/-- Every fret applies the slices. -/
def applySlices (s : State) (n d b j : Nat) (sl : List (List Byte)) : State :=
  (fretsOf s n).foldl (fun s a => modArr s a (fun x => fretSlices x d b j sl)) s

/-- Term counters rise by 96 for a tile (R113). -/
def countTile (s : State) (n g : Nat) : State :=
  (fretsOf s n).foldl (fun s a => modArr s a (fun x =>
    let y := getGroup x g
    setGroup x g { y with count := termAdd y.count 96 })) s

/-- The last slice of a Bow has left the Nut: CLOSE waits for its commit (R67), a wrapped tile for its next Bow (R84). -/
def bowIssued (s : State) (n : Nat) (c : CurBow) : State :=
  let d := c.ent.desc
  let s1 := countTile s n (bowBase d + c.bow)
  let s2 := if bowClose d then (fretsOf s1 n).foldl (fun s a => modArr s a (fun x =>
      let y := getGroup x (bowBase d + c.bow)
      setGroup x (bowBase d + c.bow) { y with closing := true, bow := true })) s1 else s1
  let s3 := modStr s2 n (fun x => { x with
    prevMode := some (0, bowSplit d)
    cur := if c.bow + 1 < bowBows d then some { c with bow := c.bow + 1, slice := 0, started := false } else none
    wrap := if c.bow + 1 < bowBows d then x.wrap else [] })
  strSettle s3 n

/-- STR_STALLED_n counts one for each attempt at which the Nut waits or issues a bubble (R94, log 96). -/
def nutStalled (s : State) (n : Nat) : State := modReg s (R.STR_STALLED n) (fun w => w + 1)

/-- Wait at the Nut (R83, R94). STATE shows DRAIN while a descriptor waits for the drain, and at no other time: last slices that commit with no
such descriptor leave STATE as it is (DESIGN CHOICE, log 104). -/
def nutWait (s : State) (n cause : Nat) : State :=
  nutStalled (modStr s n (fun x => { x with run := if cause = 4 then .drain else .wait, cause := cause })) n

/-- The slices of a row Bow that its queue holds: all that remain, or a bubble follows (R83). -/
def issueSlices (s : State) (n : Nat) (c : CurBow) : State :=
  let d := c.ent.desc
  let q := bowFq d
  let have_ := fqAvail (fqOf (getCore s c.ent.core) q) / bowSliceBytes d
  let m := min have_ (bowSlices d - c.slice)
  let t := fqTake s c.ent.core q (m * bowSliceBytes d)
  let sl := chunks (bowSliceBytes d) t.1
  let s1 := applySlices t.2 n d c.bow c.slice sl
  let s2 := modReg s1 (R.STR_ISSUED n) (fun w => w + BitVec.ofNat 64 m)
  let c2 := { c with slice := c.slice + m, started := true }
  let s3 := modStr s2 n (fun x => { x with
    cur := some c2, slice := c2.slice, wrap := if bowBridge d = 1 then x.wrap ++ sl else []
    run := if c2.slice < bowSlices d then .wait else .run
    cause := if c2.slice < bowSlices d then 3 else 0 })
  if c2.slice = bowSlices d then bowIssued s3 n c2 else nutStalled s3 n

/-- Slice 0 of a Bow reaches every fret, then `go` issues its slices. -/
def startBow (s : State) (n : Nat) (c : CurBow) (go : State → CurBow → State) : State :=
  let c1 := { c with started := true }
  let s1 := modStr s n (fun x => { x with cur := some c1, tag := bowTag c.ent.desc, bowNo := c.bow, slice := 0, run := .run, cause := 0 })
  let r := enterFrets s1 c.ent.desc c.bow (fretsOf s1 n).zipIdx
  match r.2 with
  | some e => strFault r.1 n e.1 e.2
  | none => go r.1 c1

/-- The head descriptor is taken up when R83 allows it. -/
def nutStart (s : State) (n : Nat) (e : BowEnt) : State :=
  match nutCheck s n e.desc with
  | .fault f => strFault (modStr s n (fun x => { x with tag := bowTag e.desc })) n 0xA21 f
  | .wait w => nutWait s n w
  | .go =>
    if bowSum e.desc then
      match firstLost s n with
      | some f => strFault (modStr s n (fun x => { x with tag := bowTag e.desc })) n 0xA20 f
      | none =>
      modReg (modStr s n (fun x => { x with
        waiting := x.waiting.drop 1, cur := some ⟨e, 0, 0, true⟩, run := .sum, cause := 0, tag := bowTag e.desc, bowNo := 0
        slice := bowSlices e.desc, prevMode := some (1, bowSplit e.desc) }))
        (R.STR_ISSUED n) (fun w => w + BitVec.ofNat 64 (bowSlices e.desc))
    else if fqAvail (fqOf (getCore s e.core) (bowFq e.desc)) < bowSliceBytes e.desc then nutWait s n 3
    else startBow (modStr s n (fun x => { x with waiting := x.waiting.drop 1, wrap := [] })) n ⟨e, 0, 0, false⟩
      (fun s c => issueSlices s n c)

/-- NUT_ISSUE (R83): slice 0 once every condition holds, and then every slice at the head of FETCH_Q. -/
def execNutIssue (n : Fin 128) (s : State) : Res :=
  .next (if !onDie s || halting s || (strGeom s n).isNone || decide ((getStr s n).run = .fault) then s
  else match (getStr s n).cur with
    | some c => if c.started && !bowSum c.ent.desc && decide (c.slice < bowSlices c.ent.desc) then issueSlices s n c else s
    | none => match (getStr s n).waiting with
      | [] => s
      | e :: _ => nutStart s n e)

/-- WRAP_BOW_START (R83, R84): Bow b + 1 of a wrapped tile, from the wrap buffer, under the conditions that Bow 0 met: splits, tokens, and its
own group at every fret. -/
def execWrapBowStart (n : Fin 128) (s : State) : Res :=
  .next (match (getStr s n).cur with
    | some c =>
      if !onDie s || halting s || decide ((getStr s n).run = .fault) || c.started || c.bow = 0 then s
      else match bowCheck s n c.ent.desc [bowBase c.ent.desc + c.bow] with
      | .fault f => strFault s n 0xA21 f
      | .wait w => nutWait s n w
      | .go => startBow s n c (fun s c =>
        let sl := (getStr s n).wrap
        let s1 := applySlices s n c.ent.desc c.bow 0 sl
        let s2 := modReg s1 (R.STR_ISSUED n) (fun w => w + BitVec.ofNat 64 sl.length)
        bowIssued (modStr s2 n (fun x => { x with slice := sl.length })) n { c with slice := sl.length })
    | none => s)

/-- GROUP_DONE (R67): the last slice of a tile with CLOSE has committed. -/
def execGroupDone (arr : Fin 512) (g : Fin 8) (s : State) : Res :=
  let x := getGroup (getArr s arr) g
  if onDie s && decide (x.st = .open_) && x.closing then
    let s1 := modArr s arr (fun a => setGroup a g { x with st := .done, closing := false, bow := false })
    match fretOf s arr with
    | some nf => .next (strSettle s1 nf.1)
    | none => .next s1
  else .next s

/-! ## Sum Bows (R88, R89) -/

/-- Entries per row of a sum Bow: 32 for each flit of a row (R88). A flit count that SUM_ROWS does not divide is not stated: flits beyond whole
rows are dropped, and fewer flits than rows make one flit a row (DESIGN CHOICE, log 105). -/
def sumEntries (d : Nat) : Nat := 32 * max 1 (bowSlices d / bowRows d)

/-- The travelling sum of one entry: fret values in order, peaks over every running value (R89, R110, R116). -/
def sumEntry (gs : List Group) (row e : Nat) : A40 × Nat :=
  match gs with
  | [] => (0, 0)
  | g :: t => t.foldl (fun vp x =>
      let v := a40Add vp.1 (a40Num (entVal x row e))
      (v, max (max vp.2 (entPeak x row e)) (a40X v))) (entVal g row e, entPeak g row e)

/-- Rows of a sum Bow at the Bridge, converted (R88, R119). -/
def sumOut (d : Nat) (gs : List Group) : List OutRow :=
  let count := gs.foldl (fun a g => termAdd a g.count) 0
  let f := (fmtOf (bowOut d)).getD .fp32
  (List.range (bowRows d)).map (fun r => outRow f r ((List.range (sumEntries d)).map (sumEntry gs r)) count)

/-- The sum Bow has passed: every fret's group is CLOSED without a write-back, and the Nut goes on (R67, R88). -/
def sumPassed (s : State) (n g : Nat) : State :=
  let s1 := (fretsOf s n).foldl (fun s a => modArr s a (fun x => setGroup x g {})) s
  strSettle (modStr s1 n (fun x => { x with cur := none, run := .run, cause := 0 })) n

/-- SUM_BOW_DONE (R88, R119, R120, R178): the Bridge has written its last result; every fret's group is CLOSED; flits wait for a group that
is not DONE (R89). On a faulted core the results are discarded. -/
def execSumBowDone (n : Fin 128) (grad : Option Nat) (s : State) : Res :=
  .next (match (getStr s n).cur with
    | some c =>
      let d := c.ent.desc
      let g := bowBase d
      if !onDie s || !bowSum d || decide ((getStr s n).run = .fault) then s
      else if !(fretsOf s n).all (fun a => decide ((getGroup (getArr s a) g).st = .done)) then nutStalled (modStr s n (fun x => { x with cause := 5 })) n
      else
        let rows := sumOut d ((fretsOf s n).map (fun a => getGroup (getArr s a) g))
        let w := statusWord g (rows.map (fun r => (r.row, r.flags)))
        if coreFaulted s c.ent.core then sumPassed (modCore s c.ent.core (fun k => { k with apend := k.apend.erase (.st c.ent.st) })) n g
        else
        let s1 := pushUnnamed s ((fretsOf s n).getLastD 0 / 2) (bowPq d) (rows.flatMap OutRow.elems ++ rows.flatMap OutRow.scales)
        let s3 := modCore s1 c.ent.core (fun k => setSt { k with apend := k.apend.erase (.st c.ent.st) } c.ent.st w)
        let s4 := gradStats s3 c.ent.part grad (rows.map OutRow.vals)
        trapIf (sumPassed s4 n g) c.ent.core .a0 c.ent.bundle (wordFlags w)
    | none => s)

/-- ARRAY_FAULT (R91): an array of a String faults. -/
def execArrayFault (arr : Fin 512) (s : State) : Res :=
  match fretOf s arr with
  | some nf => .next (if onDie s then strFault s nf.1 0xA20 nf.2 else s)
  | none => .next s

/-- STRING_FAULT_CLEAR (R13, R91, R94): a W1C write to STR_FAULT_n; a bit whose event comes in the same cycle stays set; with every flag clear
the String returns to IDLE. -/
def execStringFaultClear (fn : Fin 18) (n : Fin 128) (v : W64) (s : State) (ev : W64 := 0) : Res :=
  .next (if !mayWrite s fn (R.STR_FAULT n) || (strGeom s n).isNone then s
  else
    let s1 := modReg s (R.STR_FAULT n) (fun w => w &&& ~~~(v &&& fmask 4 0 &&& ~~~ev))
    if fld (getReg s1 (R.STR_FAULT n)) 4 0 = 0 && decide ((getStr s n).run = .fault) then
      modStr s1 n (fun x => { x with run := .idle, cause := 0 })
    else s1)

end Sys2Proof.Machine
end

