-- ==== Sys2Proof/Machine/Regs.lean ====
section
/-! DEFINITION. Reading and writing BAR0: registers, MSI-X table and PBA, register packets (R10 to R16, R221, R385, R386, R439). -/

namespace Sys2Proof.Machine

/-! ## What registers show -/

/-- A register word from fields (high bit, low bit, value). -/
def word (l : List (Nat × Nat × Nat)) : W64 :=
  l.foldl (fun w f => w ||| (at_ f.2.2 f.2.1 &&& fmask f.1 f.2.1)) 0

/-- 64 bits, bit `j` by `f j`. -/
def bitWord (f : Nat → Bool) : W64 :=
  BitVec.ofNat 64 ((List.range 64).foldl (fun n j => if f j then n + 2 ^ j else n) 0)

/-- MOD_STATUS STATE (R397). -/
def modState (s : State) : Nat :=
  match s.phase with
  | .run => 1 | .stopping => 2 | .stopped => 2 | .failed => 3 | _ => 0

/-- The MOD block. -/
def viewMod (s : State) (fn off : Nat) : Option W64 :=
  if off = R.MOD_IDENTITY then some (identity s)
  else if off = R.MOD_STATUS then
    some (word [(8, 8, b2n (s.tun.cur = defaultTuning s.part.grade s.tun.disabled)), (3, 2, fld (getReg s off) 3 2), (1, 0, modState s)])
  else if off = R.MOD_HOST_LINK then some (word [(15, 12, s.host.half), (11, 8, s.host.rate), (4, 0, s.host.width)])
  else if off = R.MOD_VEC_BASE then some (word [(27, 16, if fn = 0 then 256 else 112), (10, 0, vecBase fn)])
  else none

/-- TUN_OWNER_n (R59). -/
def viewOwner (s : State) (r : Nat) : W64 :=
  match ownerOf s r with
  | some o => word [(23, 16, claimFeat o.1), (15, 8, if featPart (claimFeat o.1) then claimPart o.1 else 0xFF), (1, 0, o.2)]
  | none => word [(15, 8, 0xFF)]

/-- CLK_ZONE_STATUS_z. -/
def viewZone (s : State) (z : Nat) : W64 :=
  let x := getZone s z
  let st := if x.bypass then 3 else if !x.locked then 0 else if x.applied = target s z then 1 else 2
  word [(41, 32, target s z), (29, 20, setpoint s z), (17, 8, x.applied), (1, 0, st)]

/-- The CLK block (R338). -/
def viewClk (s : State) (off : Nat) : Option W64 :=
  if off = R.CLK_REF_STATUS then
    some (word ([(1, 1, b2n s.clk.refOk), (2, 2, b2n s.clk.refOk), (0, 0, b2n s.clk.refOk)] ++
      (List.range 16).map (fun z => (4 + z, 4 + z, b2n (getZone s z).locked))))
  else if off = R.CLK_TIME then some (BitVec.ofNat 64 s.clk.time)
  else if off = R.CLK_TIME_STATUS then
    some (word [(47, 16, (BitVec.ofInt 32 s.clk.offset).toNat), (3, 3, b2n s.clk.aux), (2, 2, b2n s.clk.unaligned),
      (1, 0, match s.clk.tst with | .free => 0 | .seeded => 1 | .locked => 2)])
  else if 0x21000 ≤ off && off < 0x21400 && off % 0x40 = 0 then some (viewZone s (instNo off 0x21000 0x40))
  else if 0x21000 ≤ off && off < 0x21400 && off % 0x40 = 0x18 then
    some (BitVec.ofNat 64 ((getZone s (instNo off 0x21000 0x40)).cyc / 8000))
  else if 0x21000 ≤ off && off < 0x21400 && off % 0x40 = 0x20 then some (BitVec.ofNat 64 (zoneCap s (instNo off 0x21000 0x40)))
  else none

/-- Mean of a zone's field over the samples of the last 10 us (R352). -/
def zoneMean (s : State) (z : Nat) (f : Nat × Nat × Nat → Nat) : Nat := meanOf (s.pwr.samples.map (fun x => f (x.zones.getD z (0, 0, 0))))

/-- Mean input voltage. -/
def meanMv (s : State) : Nat := meanOf (s.pwr.samples.map PSample.mv)

/-- Hottest zone by its mean, and that mean. -/
def meanHot (s : State) : Nat × Nat :=
  (List.range 16).foldl (fun (b : Nat × Nat) z =>
    let t := zoneMean s z (fun x => x.2.2)
    if b.2 < t then (z, t) else b) (0, 0)

/-- The last plan recorded. -/
def lastPlan (s : State) : Option PlanRec := s.flash.plans.getLast?

/-- The PWR block (R357). -/
def viewPwr (s : State) (off : Nat) : Option W64 :=
  if off = R.PWR_SUPPLY_STATUS then some (word [(48, 32, meanMv s), (31, 16, pBar s), (2, 0, s.pwr.band)])
  else if off = R.PWR_CLASS then
    some (word [(1, 0, s.tun.cur.cooling), (25, 16, classMax s.tun.cur.cooling), (42, 32, classWatts s.tun.cur.cooling)])
  else if off = R.PWR_DRONE then
    some (word [(63, 48, pRef s), (47, 32, s.pwr.floorW), (31, 16, s.pwr.droneW), (8, 8, b2n (floorOn s)), (6, 0, s.tun.cur.droneFloor)])
  else if off = R.PWR_RAMP then some (word [(9, 0, s.tun.cur.rampUp), (25, 16, s.tun.cur.rampDown)])
  else if off = R.PWR_ENERGY then some (BitVec.ofNat 64 (s.pwr.energy / 1000))
  else if off = R.PWR_TEMP then
    some (word [(7, 0, (meanHot s).2), (11, 8, (meanHot s).1), (23, 16, meanOf (s.pwr.samples.map PSample.board))])
  else if 0x30100 ≤ off && off < 0x30200 && off % 16 = 0 then
    let z := instNo off 0x30100 16
    some (word [(9, 0, zoneMean s z Prod.fst), (27, 16, zoneMean s z (fun x => x.2.1)), (39, 32, zoneMean s z (fun x => x.2.2)),
      (51, 48, getGate s z % 16)])
  else if off = R.PWR_AGE_STATUS then
    some (word [(63, 32, s.flash.hours), (31, 12, satAt 0xFFFFF ((lastPlan s).elim 0 PlanRec.left)), (11, 2, satAt 1023 s.flash.planCount),
      (1, 0, b2n (planNext s && coreFree s))])
  else none

/-- The SEC block (R380). -/
def viewSec (s : State) (off : Nat) : Option W64 :=
  if off = R.SEC_STATE then
    some (word ([(31, 16, s.sec.running.elim 0 Bank.svn), (15, 8, s.part.svnFuses),
        (1, 1, s.sec.runBank), (0, 0, b2n s.sec.fallback)] ++
      (List.range 16).map (fun p => (32 + p, 32 + p, b2n (isLocked s p)))))
  else if off = R.SEC_LOG_COUNT then some (BitVec.ofNat 64 s.sec.count)
  else if R.SEC_LOG_HEAD 0 ≤ off && off ≤ R.SEC_LOG_HEAD 5 then some (BitVec.ofNat 64 (leAt s.sec.head (lessBy off (R.SEC_LOG_HEAD 0)) 8))
  else none

/-- Contexts in a state. -/
def ctxCount (s : State) (f : Nat → Ctx → Bool) : Nat :=
  (s.stm.ctxs.filter (fun e => match e.2 with | some c => f e.1 c | none => false)).length

/-- The STM block (R244). -/
def viewStm (s : State) (off : Nat) : Option W64 :=
  if off = R.STM_CACHE_STATUS then
    some (word [(47, 32, ctxCount s (fun _ c => c.st = .evicting)), (31, 16, ctxCount s (fun i c => c.st = .valid && ctxPinned s i c)),
      (15, 0, ctxCount s (fun _ c => c.st = .valid))])
  else if off = R.STM_PENDING then some (BitVec.ofNat 64 (s.stm.pending.filter (fun e => e.2)).length)
  else none

/-- GRX_SEAL_p and GRX_SEAL_FP_p: of the partition's program, zero without one. -/
def viewSeal (s : State) (p : Nat) (fp : Bool) : W64 :=
  match (getPart s p).cur with
  | none => 0
  | some k =>
    let x := getSeal s (sealKey p k)
    if fp then BitVec.ofNat 64 x.fp
    else word [(63, 48, x.outcome), (37, 36, sealRole s x), (35, 32, sealCode x.st), (31, 0, x.recStep)]

/-- STATE of GRX_GROUP_g (log 40). -/
def grpState (s : State) (g : Grp) : Nat :=
  if grpDone s g then 4
  else if !grpRuns s g then 0
  else if g.encNext < g.blocks then 1
  else if g.done = 0 && g.final.isEmpty then 2
  else 3

/-- GRX_GROUP_g. -/
def viewGroup (s : State) (g : Nat) : W64 :=
  match getGrp s g with
  | none => 0
  | some x =>
    word [(55, 52, x.part), (51, 48, x.dims), (47, 44, (List.range 4).foldl (fun n d => if (lineAt x d).isSome then n + 2 ^ d else n) 0),
      (34, 32, grpState s x), (21, 0, x.done)]

/-- The GRX block (R299). -/
def viewGrx (s : State) (off : Nat) : Option W64 :=
  if off = R.GRX_STATUS then some (word ((List.range 16).map (fun g => (g, g, b2n (getGrp s g).isSome))))
  else if 0x60100 ≤ off && off < 0x60300 && off % 0x20 = 0x10 then some (viewSeal s (instNo off 0x60100 0x20) false)
  else if 0x60100 ≤ off && off < 0x60300 && off % 0x20 = 0x18 then some (viewSeal s (instNo off 0x60100 0x20) true)
  else if 0x60400 ≤ off && off < 0x60500 && off % 0x10 = 0 then some (viewGroup s (instNo off 0x60400 0x10))
  else none

/-- Links known to be broken, each once: those told, and this module's own directions without a port that routes. -/
def brokenLinks (s : State) : List (Nat × Nat × Bool) :=
  let own := ((List.range 4).flatMap (fun d => [(d, true), (d, false)])).filter (fun x => !(dirPorts s x.1 x.2).isEmpty && (dirUp s x.1 x.2).isEmpty)
  ((s.fab.broken ++ own.map (fun x => (ownAddr s, x.1, x.2))).map (fun b =>
    if b.2.2 then b else (neighbourOf s b.1 b.2.1 false, b.2.1, true))).eraseDups

/-- One port's window (R267). -/
def viewPort (s : State) (n off : Nat) : Option W64 :=
  let p := getPort s n
  if off = 8 then
    some (word [(47, 32, p.neighbour), (31, 28, roleOf s n), (11, 8, p.lanes), (7, 7, b2n (p.crypt && portUp p)), (6, 6, b2n p.timedOk), (2, 0, p.st)])
  else if off = 0x28 then some (word ([(34, 32, p.slots.length)] ++ p.slots.map (fun i => (i % 32, i % 32, 1))))
  else if 0x100 ≤ off && off < 0x1C0 && off % 8 = 0 then
    let c := getVc p (instNo off 0x100 8)
    some (word [(31, 16, c.replay.length), (15, 0, c.credits)])
  else none

/-- The FAB block (R267). -/
def viewFab (s : State) (off : Nat) : Option W64 :=
  if off < 0x7C000 then viewPort s (instNo off 0x70000 0x1000) (off % 0x1000)
  else if off = R.FAB_ROUTE_STATUS then
    some (word ([(47, 32, (brokenLinks s).length)] ++
      (List.range 12).map (fun n => (n, n, b2n (roleOf s n != 0 && !portUp (getPort s n))))))
  else if off = R.FAB_TIMED_COUNT then some (BitVec.ofNat 64 (timedCount s))
  else if 0x7F800 ≤ off && off < 0x7FC00 && off % 8 = 0 then
    let l := mcastLag s (instNo off 0x7F800 8)
    some (word [(51, 48, l.2), (47, 0, l.1)])
  else none

/-- Regions and windows of a partition. -/
def viewRegion (s : State) (p : Nat) : W64 :=
  if partCount s ≤ p then 0
  else word [(58, 48, windowSize s / 1048576), (41, 32, p * windowSize s / 1048576), (23, 16, s.tun.cur.swap.getD p 0),
    (15, 8, s.tun.cur.size.getD p 0), (7, 0, s.tun.cur.base.getD p 0)]

/-- The STK block (R216). -/
def viewStk (s : State) (off : Nat) : Option W64 :=
  if off = R.STK_GEOMETRY then
    some (word [(47, 32, columnBytes s.part.grade / 1048576), (31, 16, stackBytes s.part.grade / 1048576), (11, 8, gradeLayers s.part.grade), (7, 0, 64)])
  else if off = R.STK_REGIONS then
    some (word [(31, 24, stackUnits s.part.grade - 1), (23, 16, stackUnits s.part.grade - 1 - s.tun.cur.residue), (15, 8, topOf s), (7, 0, topOf s)])
  else if 0x80100 ≤ off && off < 0x80200 && off % 16 = 0 then some (viewRegion s (instNo off 0x80100 16))
  else if 0x80100 ≤ off && off < 0x80200 && off % 16 = 8 then
    some (word [(6, 0, s.tun.cur.guarantee.getD (instNo off 0x80100 16) 0), (14, 8, s.tun.cur.ceiling.getD (instNo off 0x80100 16) 0)])
  else if 0x81000 ≤ off && off < 0x81800 && off % 0x20 = 0 then
    let x := getCol s (instNo off 0x81000 0x20)
    let l := if x.st = 0 then none else x.suspect
    some (word [(48, 48, b2n l.isSome), (47, 32, l.getD 0), (15, 8, x.used), (1, 0, x.st)])
  else none

/-- The DBG block (R411). -/
def viewDbg (s : State) (off : Nat) : Option W64 :=
  if R.DBG_QUAR 0 ≤ off && off ≤ R.DBG_QUAR 3 then
    some (bitWord (fun j => s.flash.quarantine.contains (lessBy off (R.DBG_QUAR 0) * 8 + j)))
  else none

/-- An array that the structure in force has. -/
def arrOn (s : State) (a : Nat) : Bool := !s.tun.disabled.contains (a / 2)

/-- An array that is a fret. -/
def arrInStr (s : State) (a : Nat) : Bool := s.tun.geom.any (fun g => g.frets.contains a)

/-- STR_GEOM_n; PARTITION of a String that no partition holds reads 0, which R94 leaves open (DESIGN CHOICE, log 39). -/
def viewGeom (s : State) (n : Nat) : W64 :=
  match strGeom s n with
  | none => 0
  | some g =>
    word [(52, 49, (partOfStr s n).getD 0), (48, 48, b2n g.seam), (47, 44, g.zoneCross), (43, 38, g.bypass),
      (37, 30, 2 * (g.bypass + g.zoneCross)), (29, 23, g.frets.length), (17, 9, g.nutPos), (8, 0, g.bridgePos)]

/-- STATE of STR_RUN_n. -/
def strRunCode : StrRun → Nat | .idle => 0 | .run => 1 | .wait => 2 | .drain => 3 | .sum => 4 | .fault => 5

/-- STR_RUN_n. -/
def viewRun (s : State) (n : Nat) : W64 :=
  let x := getStr s n
  word [(63, 32, x.tag), (31, 20, x.slice), (19, 17, x.bowNo), (11, 8, x.cause), (2, 0, strRunCode x.run)]

/-- The STR block (R94). -/
def viewStr (s : State) (off : Nat) : Option W64 :=
  let i := off % 0x40 / 8
  if off < 0xA0040 then some (bitWord (fun j => capoAt s.tun.geom s.tun.disabled (64 * i + j)))
  else if off < 0xA0080 then some (bitWord (fun j => arrOn s (64 * i + j)))
  else if off < 0xA00C0 then some (bitWord (fun j => arrInStr s (64 * i + j)))
  else if off = R.STR_COUNT then
    some (word [(24, 16, ((List.range 512).filter (fun a => arrOn s a && !arrInStr s a)).length), (7, 0, s.tun.geom.length)])
  else if off = R.STR_FAULT_SUM 0 || off = R.STR_FAULT_SUM 1 then
    let lo := 8 * (lessBy off (R.STR_FAULT_SUM 0))
    some (bitWord (fun j => decide (lo + j < s.tun.geom.length) && fld (getReg s (R.STR_FAULT (lo + j))) 4 0 != 0))
  else
    let n := instNo off 0xA1000 0x40
    if (strGeom s n).isNone then some 0
    else if i = 0 then some (viewGeom s n)
    else if i = 1 then some (viewRun s n)
    else none

/-- RUN of COR_STATE. -/
def runCode : RunSt → Nat | .idle => 0 | .run => 1 | .wait => 2 | .stall => 3 | .fault => 4 | .swap => 5

/-- COR_STATE. -/
def viewCore (s : State) (c : Nat) : W64 :=
  let k := getCore s c
  word [(43, 40, runCode k.run), (34, 32, (k.tens.filter (fun t => t.2.isSome)).length), (19, 16, (partOfCore s c).getD 0),
    (2, 2, b2n (arrInStr s (2 * c) || arrInStr s (2 * c + 1))), (1, 1, b2n (s.flash.quarantine.contains c)), (0, 0, b2n (isFused s c))]

/-- COR_VMAP_i: four virtual cores of the running program. -/
def viewVmap (s : State) (c i : Nat) : W64 :=
  match partOfCore s c with
  | none => 0
  | some p =>
    match curProg s p with
    | none => 0
    | some g => word ((List.range 4).flatMap (fun j =>
        match g.vcores[4 * i + j]? with
        | some v => [(16 * j + 15, 16 * j + 15, 1), (16 * j + 13, 16 * j + 12, v.tenant), (16 * j + 7, 16 * j, v.phys)]
        | none => []))

/-- A core window (R189). -/
def viewCor (s : State) (c off : Nat) : Option W64 :=
  let k := getCore s c
  if off = 0 then some (viewCore s c)
  else if isFused s c then some 0
  else if off = 8 then some (word [(4, 0, k.trap)])
  else if off = 0x18 then some (word [(13, 12, k.tenant), (11, 0, k.pc)])
  else if 0x40 ≤ off && off < 0x80 then
    some (match tget (fun _ => none) k.tens ((off - 0x40) / 16) with
      | some t => if off % 16 = 0 then word [(40, 40, 1), (39, 32, t.vcore), (20, 0, t.base)] else word [(21, 0, t.size)]
      | none => 0)
  else if 0x100 ≤ off && off < 0x150 then some (match partOfCore s c with | some p => getReg s (partKey p off) | none => 0)
  else if 0x200 ≤ off && off < 0x400 then some (viewVmap s c (instNo off 0x200 8))
  else none

/-- What a register that is no plain storage shows. -/
def viewOf (s : State) (fn off : Nat) : Option W64 :=
  if 0x1000000 ≤ off && off < 0x2000000 then viewCor s (instNo off 0x1000000 0x10000) (off % 0x10000)
  else match off / 0x10000 with
    | 0 => viewMod s fn off
    | 1 => if R.TUN_OWNER 0 ≤ off && off ≤ R.TUN_OWNER 10 then some (viewOwner s (instNo off (R.TUN_OWNER 0) 8)) else none
    | 2 => viewClk s off
    | 3 => viewPwr s off
    | 4 => viewSec s off
    | 5 => viewStm s off
    | 6 => viewGrx s off
    | 7 => viewFab s off
    | 8 => viewStk s off
    | 9 => viewDbg s off
    | 10 => viewStr s off
    | _ => none

/-- Where a register stands in State: its function's own (R386), its partition's (R189), or the module's. The bus has its own mailbox and
reads the physical function's other registers (R439, R440). -/
def regKey (s : State) (fn off : Nat) : Nat :=
  if perFn off then
    (if fn = 17 then (if off / 0x10000 = 4 then fnKey 17 off else off) else fnKey fn off)
  else if 0x1000000 ≤ off && off < 0x2000000 && 0x100 ≤ off % 0x10000 && off % 0x10000 < 0x150 then
    match partOfCore s (instNo off 0x1000000 0x10000) with
    | some p => partKey p (off % 0x10000)
    | none => off
  else off

/-- Bits that a read answers with a free value (log 39): the partition of a core that none holds; a gate of 16/16; the lock bits without a reference; STATE after a trip. -/
def openBits (s : State) (off : Nat) : W64 :=
  if 0x1000000 ≤ off && off < 0x2000000 then
    let c := instNo off 0x1000000 0x10000
    if off % 0x10000 = 0 && (partOfCore s c).isNone then fmask 19 16 else 0
  else if 0x30100 ≤ off && off < 0x30200 && off % 16 = 0 && getGate s (instNo off 0x30100 16) = 16 then fmask 51 48
  else if off = R.CLK_REF_STATUS && !s.clk.refOk && s.phase != .boot && s.phase != .bootHold then fmask 2 1
  else if off = R.MOD_STATUS && s.phase = .tripped then fmask 1 0
  else 0

/-- Registers answer while the fixed domain or the stop's remains have power. -/
def regsUp (s : State) : Bool :=
  railsOn s || s.phase = .stopped || s.phase = .tripped || s.phase = .failed

/-- A port's window has credits at offsets that the table of RegMap does not list. -/
def isCredit (off : Nat) : Bool := decide (0x70000 ≤ off) && decide (off < 0x7C000) && decide (0x100 ≤ off % 0x1000) && decide (off % 0x1000 < 0x1C0) && off % 8 = 0

/-- An MSI-X table word (R385, R389): address, or data with the mask bit; the PBA. -/
def readMsix (s : State) (fn off : Nat) : W64 :=
  let n := if fn = 0 || fn = 17 then 256 else 112
  let base := if fn = 17 then 0 else vecBase fn
  if off < 0x2010000 then
    let i := instNo off 0x2000000 16
    if n ≤ i then 0
    else
      let e := getMsix s (base + i)
      if off % 16 = 0 then BitVec.ofNat 64 e.addr else word [(32, 32, b2n (!e.unmasked)), (31, 0, e.data)]
  else
    let i := instNo off 0x2010000 8
    bitWord (fun j => decide (64 * i + j < n) && (getMsix s (base + 64 * i + j)).pba)

def isMsix (off : Nat) : Bool := decide (0x2000000 ≤ off) && decide (off < 0x2010100)

/-- The 64-bit register at an aligned offset, as function `fn` reads it, and the state after the free value it may take (R12, R16, R384). -/
def readReg (s : State) (fn off : Nat) : W64 × State :=
  if isMsix off then (if fnLive s fn || fn = 17 then (readMsix s fn off, s) else (0, s))
  else if !fnSees s fn off then (0, s)
  else if isCredit off then ((viewOf s fn off).getD 0, s)
  else match regAt off with
    | none => (0, s)
    | some r =>
      let v := (viewOf s fn off).getD (getReg s (regKey s fn off)) &&& r.1.readMask
      let m := openBits s off
      if m = 0 then (v, s)
      else
        let x := freshWord s
        ((v &&& ~~~m) ||| (x.1 &&& m), x.2)

/-- RC fields that an access reaches whole (R15): all, or those in the addressed half. -/
def rcHit (r : RegRow) (lo hi : Nat) : W64 := fieldsMask (r.rc.filter (fun f => decide (lo ≤ f.2) && decide (f.1 ≤ hi)))

/-- Clear RC fields that were read; an event of the same cycle leaves its contribution (R13). -/
def clearRead (s : State) (fn off lo hi : Nat) (ev : W64) : State :=
  match regAt off with
  | none => s
  | some r =>
    let m := rcHit r.1 lo hi
    if m = 0 || !fnSees s fn off then s
    else modReg s (regKey s fn off) (fun w =>
      (w &&& ~~~m) ||| ((if ev &&& m = 0 then regReset (regKey s fn off) else ev) &&& m))

/-- A read of `width` bits at any offset: the bytes it returns, and the state after it (R13, R15). -/
def readAny (s : State) (fn off width : Nat) (ev : W64) : List Byte × State :=
  if (width = 64 && off % 8 = 0) || (width = 32 && off % 4 = 0) then
    let base := off / 8 * 8
    let lo := if width = 64 then 0 else off % 8 * 8
    let r := readReg s fn base
    ((natLe r.1.toNat 8).drop (lo / 8) |>.take (width / 8), clearRead r.2 fn base lo (lo + width - 1) ev)
  else (List.replicate (width / 8) 0, s)

/-- READ_CLEAR (R12 to R16): a read of BAR0; `ev` is what events of the same cycle contribute to RC fields that the read clears. -/
def execReadClear (fn : Fin 18) (off width : Nat) (ev : W64) (s : State) : Res :=
  if !regsUp s || (getFn s fn).d3 then .next s
  else
    let r := readAny s fn off width ev
    .next (emit r.2 (.bar 0 r.1))

/-! ## Writes -/

/-- The state of an outcome. -/
def outState (s : State) : Res → State
  | .next t => t
  | _ => s

/-- A write of the MSI-X table: address, or data with the mask bit; clearing the mask sends a pending message (R391). -/
def writeMsix (s : State) (fn off : Nat) (v : W64) : State :=
  let i := instNo off 0x2000000 16
  let g := vecBase fn + i
  if fn = 17 || !fnLive s fn || (if fn = 0 then 256 else 112) ≤ i then s
  else if off % 16 = 0 then modMsix s g (fun e => { e with addr := v.toNat / 4 * 4 })
  else
    let s1 := modMsix s g (fun e => { e with data := fld v 31 0 })
    if v.getLsbD 32 then modMsix s1 g (fun e => { e with unmasked := false })
    else if (getMsix s1 g).unmasked then s1 else unmaskVec s1 g

/-- A plain write: RW and RWS fields take the value, ones in W1C fields clear their bits but those that an event of the same cycle sets, the rest
is discarded (R12 to R14). -/
def writePlain (s : State) (fn off : Nat) (v ev : W64) : State :=
  match regAt off with
  | none => s
  | some r => modReg s (regKey s fn off) (fun w =>
      let m := fieldsMask r.1.rw
      ((w &&& ~~~m) ||| (v &&& m)) &&& ~~~(v &&& ~~~ev &&& fieldsMask r.1.w1c))

/-- The lowest timer that nothing owns (R49). -/
def freeTimer (s : State) : Option Nat := (List.range 8).map (fun i => i + 2) |>.find? (fun r => (ownerOf s r).isNone)

/-- PWR_TELEM_CTRL (R352): ENABLE needs a timer for TELEMETRY_SAMPLE; clearing it gives a timer taken at run time back. -/
def writeTelem (s : State) (v : W64) : State :=
  let was := (getReg s R.PWR_TELEM_CTRL).getLsbD 0
  let s1 := writePlain s 0 R.PWR_TELEM_CTRL v 0
  let mine := (List.range 8).any (fun i => ownedBy s (i + 2) 8)
  if v.getLsbD 0 && !was then
    let s2 := { s1 with pwr := { s1.pwr with telem := 0 } }
    if mine then s2
    else match freeTimer s2 with
      | some r => takeRes s2 r (claimValue 8 r 0)
      | none => log (setRegFld s2 R.PWR_TELEM_CTRL 0 0 0) { code := 0x107, loc := 2, payload := match ownerOf s 2 with | some o => o.1 | none => 0 }
  else if !v.getLsbD 0 && was then
    (s1.tun.runtime.filter (fun c => claimFeat c.value = 8)).foldl (fun s c => dropRes s c.res) s1
  else s1

/-- DBG_CTRL (R406 to R411): REC_DIGEST and REC_ARM first, so that REC_EN arms; then the other bits. -/
def writeDebug (s : State) (v : W64) : State :=
  let c := getReg s R.DBG_CTRL
  let s1 := setRegFld s R.DBG_CTRL 1 1 (b2n (v.getLsbD 1))
  let s2 := if v.getLsbD 2 then (if c.getLsbD 2 then s1 else recArmSet s1) else setRegFld s1 R.DBG_CTRL 2 2 0
  let s3 := if v.getLsbD 0 then recEnable s2 else if c.getLsbD 0 then recDisable s2 else s2
  let s4 := if v.getLsbD 3 then recHalt s3 else s3
  let s5 := if v.getLsbD 4 then (if c.getLsbD 4 then s4 else replayStart s4) else if c.getLsbD 4 then replayClear s4 else s4
  let s6 := if v.getLsbD 5 then (if c.getLsbD 5 then s5 else traceStart s5) else if c.getLsbD 5 then traceStop s5 else s5
  if v.getLsbD 6 then traceDump s6 else s6

/-- MOD_RESET_CTRL by SCOPE (R412). -/
def writeReset (s : State) (fn : Fin 18) (v : W64) : State :=
  match fld v 2 0 with
  | 1 => outState s (execWarmReset fn v s)
  | 2 => outState s (execColdReset fn v s)
  | 3 => outState s (execCoreReset fn v s)
  | 4 => outState s (execPortReset fn v s)
  | 5 => outState s (execShutdown fn v s)
  | _ => s

/-! Registers whose write is a command of its own, by block; `none` for plain registers. -/

def writeMod (s : State) (fn : Fin 18) (off : Nat) (v ev : W64) : Option State :=
  if off = R.MOD_INT_CAUSE then some (outState s (execModIntCauseClear fn v s ev))
  else if off = R.MOD_INT_MASK then some (outState s (execModIntMaskWrite fn v s))
  else none

def writeClk (s : State) (fn : Fin 18) (off : Nat) (v : W64) : Option State :=
  if off = R.CLK_TIME_SEED then some (outState s (execClkTimeSeedWrite fn v s))
  else if 0x21000 ≤ off && off < 0x21400 && off % 0x40 = 0x28 then
    some (if v.getLsbD 0 then outState s (execRelock fn (Fin.ofNat 16 (instNo off 0x21000 0x40)) s) else s)
  else none

def writePwr (s : State) (fn : Fin 18) (off : Nat) (v : W64) : Option State :=
  if off = R.PWR_TELEM_CTRL then some (writeTelem s v)
  else if off = R.PWR_AGE_CTRL then some (if v.getLsbD 0 then outState s (execReplan (some fn) s) else s)
  else none

def writeStm (s : State) (fn : Fin 18) (off : Nat) (v : W64) : Option State :=
  if off = R.STM_CMD then
    some (if fld v 3 0 = 1 && !tabInStack s (strPart s (fld v 27 8)) then s else stmCmd s fn (fld v 3 0) (fld v 27 8) [])
  else if off = R.STM_RECOVER then some (outState s (execStmRecover fn v s))
  else if 0x50100 ≤ off && off < 0x50200 then some (outState s (execPartTableWrite fn off v s))
  else none

def writeGrx (s : State) (fn : Fin 18) (off : Nat) (v : W64) : Option State :=
  if 0x60100 ≤ off && off < 0x60300 && off % 0x20 = 0 then
    some (outState s (execGrxPartBlocksWrite fn (Fin.ofNat 16 (instNo off 0x60100 0x20)) v s))
  else none

def writeFab (s : State) (fn : Fin 18) (off : Nat) (v : W64) : Option State :=
  if off < 0x7C000 && off % 0x1000 = 0 then
    some (outState s (execPortDisable fn (Fin.ofNat 12 (instNo off 0x70000 0x1000)) v s))
  else if off = R.FAB_MOD_ADDR then some (outState s (execFabModAddrWrite fn v s))
  else none

def writeStk (s : State) (fn : Fin 18) (off : Nat) (v : W64) : Option State :=
  if off = R.STK_SC_CTRL then some (outState s (execScFlush fn v s)) else none

/-- Place or size of the fault ring changes; held records leave while the ring has room (R401). -/
def writeRing (s : State) (fn off : Nat) (v : W64) : State :=
  let s1 := writePlain s fn off v 0
  drainRing s1.flog.onDie.length s1

/-- ADD and REMOVE of DBG_QUAR_CTRL, in this order (R405). -/
def writeQuar (s : State) (fn : Fin 18) (v : W64) : State :=
  let s1 := outState s (execQuarantineAdd fn v s)
  outState s1 (execQuarantineRemove fn v s1)

def writeDbg (s : State) (fn : Fin 18) (off : Nat) (v : W64) : Option State :=
  if off = R.DBG_CTRL then some (writeDebug s v)
  else if off = R.DBG_FLOG_TAIL then some (outState s (execFaultRingDrain fn v s))
  else if off = R.DBG_FLOG_ADDR || off = R.DBG_FLOG_SIZE then some (writeRing s fn off v)
  else if off = R.DBG_QUAR_CTRL then some (writeQuar s fn v)
  else none

def writeStr (s : State) (fn : Fin 18) (off : Nat) (v ev : W64) : Option State :=
  if 0xA1000 ≤ off && off < 0xA3000 && off % 0x40 = 0x20 then
    some (outState s (execStringFaultClear fn (Fin.ofNat 128 (instNo off 0xA1000 0x40)) v s ev))
  else none

def writeCor (s : State) (fn : Fin 18) (off : Nat) (v : W64) : Option State :=
  let c := instNo off 0x1000000 0x10000
  if off % 0x10000 = 0x100 then some (progCtrl s fn c v)
  else if isFused s c || (partOfCore s c).isNone && decide (0x100 ≤ off % 0x10000) then some s
  else none

/-- The write of a register that is a command of its own. -/
def writeOwn (s : State) (fn : Fin 18) (off : Nat) (v ev : W64) : Option State :=
  if 0x1000000 ≤ off && off < 0x2000000 then writeCor s fn off v
  else match off / 0x10000 with
    | 0 => writeMod s fn off v ev
    | 2 => writeClk s fn off v
    | 3 => writePwr s fn off v
    | 5 => writeStm s fn off v
    | 6 => writeGrx s fn off v
    | 7 => writeFab s fn off v
    | 8 => writeStk s fn off v
    | 9 => writeDbg s fn off v
    | 10 => writeStr s fn off v ev
    | _ => none

/-- A full, aligned 64-bit write; `ev` is what events of the same cycle set in W1C fields (R13). -/
def writeReg (s : State) (fn : Fin 18) (off : Nat) (v ev : W64) : State :=
  if off = R.MOD_RESET_CTRL then writeReset s fn v
  else if !onDie s || (getFn s fn).d3 then s
  else if isMsix off then (if off < 0x2010000 then writeMsix s fn off v else s)
  else if !mayWrite s fn off then s
  else match writeOwn s fn off v ev with
    | some t => t
    | none => writePlain s fn off v ev

/-- REGISTER_WRITE (R12, R14 to R16): a write of BAR0; any but a full, aligned 64-bit write is discarded. TUN_CTRL, SEC_MB_CTRL and a
CREATE from a host table need the host's bytes, and are the commands that carry them (log 38). -/
def execRegisterWrite (fn : Fin 18) (off width : Nat) (v : W64) (s : State) (ev : W64 := 0) : Res :=
  if width ≠ 64 || off % 8 ≠ 0 then .next s else .next (writeReg s fn off v ev)

/-! ## Register packets (R221) -/

/-- MESH_REG_READ (R13, R15, R219): the register's bytes come back; `ev` as in READ_CLEAR. -/
def execMeshRegRead (pk : Packet) (s : State) (ev : W64 := 0) : Res :=
  if !onDie s then .next s
  else
    let r := if fusedPort s pk then (List.replicate (pk.len + 1) 0, s) else readAny s 0 pk.addr (8 * (pk.len + 1)) ev
    .next (emit r.2 (.mesh (answerOf pk 11 false r.1)))

/-- MESH_REG_WRITE (R13, R15, R219): the write takes effect and is acknowledged. -/
def execMeshRegWrite (pk : Packet) (s : State) (ev : W64 := 0) : Res :=
  if !onDie s then .next s
  else
    let s1 := if !fusedPort s pk && pk.len = 7 && pk.addr % 8 = 0 then writeReg s 0 pk.addr (BitVec.ofNat 64 (leNat (fitTo 8 pk.data))) ev else s
    .next (emit s1 (.mesh (answerOf pk 12 false [])))

end Sys2Proof.Machine
end

