-- ==== Sys2Proof/Machine/Mgmt.lean ====
section
/-! DEFINITION. The management bus and JTAG (R437 to R441). Every request is answered by `Out.mgmt` with its STATUS and data. -/

namespace Sys2Proof.Machine

/-- The management core answers the bus: while it runs, after a commanded stop and after a trip (R19, R351, R425, R438). -/
def busUp (s : State) : Bool := fwUp s || s.phase = .stopped || s.phase = .tripped

def stOk : Nat := 0
def stDenied : Nat := 2
def stRange : Nat := 3
def stBusy : Nat := 4

/-- An answer on the bus. -/
def answer (s : State) (status : Nat) (data : List Byte) : State := emit s (.mgmt status data)

/-! ## Vendor-defined commands (R439, R440) -/

/-- REG_READ: the eight bytes of a register; `ev` as in READ_CLEAR (R13). -/
def execRegRead (off : Nat) (s : State) (ev : W64 := 0) : Res :=
  if !busUp s then .next s
  else
    let r := readAny s 17 off 64 ev
    .next (answer r.2 stOk r.1)

/-- REG_WRITE: six registers; the answer leaves before the write takes effect. -/
def execRegWrite (off : Nat) (v : W64) (s : State) (ev : W64 := 0) : Res :=
  if !busUp s then .next s
  else if busWritable off then .next (writeReg (answer s stOk []) 17 off v ev)
  else .next (answer s stDenied [])

/-- Size of a buffer of the bus: Tuning 1 MiB, mailbox 64 KiB. -/
def bufSize (buf : Nat) : Nat := if buf = 0 then 1048576 else 65536

/-- The buffer's load or mailbox request runs. -/
def bufRuns (s : State) (buf : Nat) : Bool := if buf = 0 then tunBusy s && s.tun.busLoad else (getFn s 17).mbBusy

/-- BUF_WRITE. -/
def execBufWrite (buf off : Nat) (data : List Byte) (s : State) : Res :=
  if !busUp s then .next s
  else if 1 < buf || 240 < data.length || bufSize buf < off + data.length then .next (answer s stRange [])
  else if bufRuns s buf then .next (answer s stBusy [])
  else if buf = 0 then .next (answer { s with tun := { s.tun with busBuf := memWrite s.tun.busBuf off data } } stOk [])
  else .next (answer { s with sec := { s.sec with busReq := memWrite s.sec.busReq off data } } stOk [])

/-- TUN_LOAD: a load from the bus's buffer, of at most 1,048,576 bytes (R39); TUNING_BUSY while another runs (R52). -/
def execTunLoad (checkOnly : Bool) (len : Nat) (s : State) : Res :=
  if !busUp s then .next s
  else if !fwUp s then .next (answer s stBusy [])
  else .next (offerLoad (answer s (if tunBusy s then stBusy else stOk) []) true checkOnly (memRead s.tun.busBuf 0 (min len 1048576)))

/-- TUN_REPORT: one entry of the bus's report. -/
def execTunReport (i : Nat) (s : State) : Res :=
  if !busUp s then .next s
  else match s.tun.busReport[i]? with
    | some e => .next (answer s stOk (repBytes e))
    | none => .next (answer s stRange [])

/-- SEC_GO: the request in the bus's buffer runs (R378, R440). -/
def execSecGo (len : Nat) (s : State) : Res :=
  if !busUp s then .next s
  else if 65536 < len then .next (answer s stRange [])
  else
    let r := memRead s.sec.busReq 0 len
    if !fwUp s || replaying s (mbHdr r).part then .next (answer s stBusy [])
    else if (getFn s 17).mbBusy then .next (answer (mailbox s 17 r (fun s => mbAny s 17 r)) stBusy [])
    else .next (answer (mailbox s 17 r (fun s => mbAny s 17 r)) stOk [])

/-- BUF_READ: bytes of the mailbox response; a range beyond it is out of range. -/
def execBufRead (off len : Nat) (s : State) : Res :=
  if !busUp s then .next s
  else if 240 < len || s.sec.busRsp.length < off + len then .next (answer s stRange [])
  else .next (answer s stOk ((s.sec.busRsp.drop off).take len))

/-! ## PLDM (R437, R438) -/

/-- Types that the module serves: the firmware all of R437, the ROM of a module whose banks both fail 0 and 5. -/
def pldmTypes (s : State) : List Nat := if s.phase = .failed then [0, 5] else [0, 2, 4, 5]

/-- PLDM_DISCOVERY: the command's code, the static address of R438, one bit per type served; the messages are DSP0240's (log 41). -/
def execPldmDiscovery (cmd : Nat) (s : State) : Res :=
  if !(busUp s || s.phase = .failed) then .next s
  else .next (answer s stOk (natLe cmd 1 ++ natLe (0x50 + s.part.slotId % 8) 1 ++ natLe ((pldmTypes s).foldl (fun n t => n + 2 ^ t) 0) 8))

/-- Mean input current in mA: power over voltage, sample by sample. -/
def meanMa (s : State) : Nat := meanOf (s.pwr.samples.map (fun x => if x.mv = 0 then 0 else 1000000 * x.watts / x.mv))

/-- The value of a sensor: V_in in mV, input current in mA, mean input power in W, hottest junction and board in degrees, then each
zone's rail power in W (log 41). -/
def sensorOf (s : State) (i : Nat) : Option Nat :=
  match i with
  | 0 => some (meanMv s)
  | 1 => some (meanMa s)
  | 2 => some (pBar s)
  | 3 => some (meanHot s).2
  | 4 => some (meanOf (s.pwr.samples.map PSample.board))
  | n + 5 => if n < 16 then some (zoneMean s n (fun x => x.2.1)) else none

/-- PLDM_MONITOR. -/
def execPldmMonitor (sensor : Nat) (s : State) : Res :=
  if !busUp s then .next s
  else match sensorOf s sensor with
    | some v => .next (answer s stOk (natLe v 4))
    | none => .next (answer s stRange [])

/-- The ordering number (R1). -/
def orderingNumber (grade : Nat) : List Byte :=
  ascii (if grade = 1 then "MFY2-256-12" else if grade = 2 then "MFY2-240-12" else "MFY2-224-06")

/-- PLDM_FRU: ordering number, serial number, grade. -/
def execPldmFru (s : State) : Res :=
  if !busUp s then .next s
  else .next (answer s stOk (orderingNumber s.part.grade ++ natLe s.part.serial 8 ++ natLe s.part.grade 1))

/-! ## JTAG (R441) -/

/-- No program is loaded and no partition is locked. -/
def extestOk (s : State) : Bool := s.flash.locks.isEmpty && (List.range 16).all (fun p => (loadedProgs s p).isEmpty)

/-- EXTEST: accepted with a DEBUG entry, or BYPASS in its place. -/
def execExtest (s : State) : Res :=
  if !onDie s then .next s
  else if extestOk s then .next (emit (debugMeasure s 0) (.jtag true))
  else .next (emit s (.jtag false))

end Sys2Proof.Machine
end

