-- ==== Sys2Proof/Machine/Dispatch.lean ====
section
/-! DEFINITION. One arm per command. -/

namespace Sys2Proof.Machine

def exec (i : Instr) (s : State) : Host.Outcome State Fault Refusal :=
  match i with
  | .tuningLoad fn image => Sys2Proof.Machine.execTuningLoad fn image s
  | .tuningCheckOnly fn image => Sys2Proof.Machine.execTuningCheckOnly fn image s
  | .tuningZeroiseDone => Sys2Proof.Machine.execTuningZeroiseDone s
  | .featureEnable feature res part => Sys2Proof.Machine.execFeatureEnable feature res part s
  | .featureDisable feature res => Sys2Proof.Machine.execFeatureDisable feature res s
  | .lds c a src depth fmt mask base groups cont => Sys2Proof.Machine.execLds c a src depth fmt mask base groups s cont
  | .shadowLoadDone c a => Sys2Proof.Machine.execShadowLoadDone c a s
  | .swap c a => Sys2Proof.Machine.execSwap c a s
  | .col c a group src slices first fmt opn cls => Sys2Proof.Machine.execCol c a group src slices first fmt opn cls s
  | .pre c a group src n fmt => Sys2Proof.Machine.execPre c a group src n fmt s
  | .preloadDone c a => Sys2Proof.Machine.execPreloadDone c a s
  | .wb c a group dst fmt st grad => Sys2Proof.Machine.execWb c a group dst fmt st grad s
  | .writebackDone c a => Sys2Proof.Machine.execWritebackDone c a s
  | .spl c a code => Sys2Proof.Machine.execSpl c a code s
  | .bow c a desc st => Sys2Proof.Machine.execBow c a desc st s
  | .nutIssue n => Sys2Proof.Machine.execNutIssue n s
  | .wrapBowStart n => Sys2Proof.Machine.execWrapBowStart n s
  | .groupDone arr g => Sys2Proof.Machine.execGroupDone arr g s
  | .sumBowDone n grad => Sys2Proof.Machine.execSumBowDone n grad s
  | .arrayFault arr => Sys2Proof.Machine.execArrayFault arr s
  | .stringFaultClear fn n v ev => Sys2Proof.Machine.execStringFaultClear fn n v s ev
  | .readClear fn off width ev => Sys2Proof.Machine.execReadClear fn off width ev s
  | .slotComplete p => Sys2Proof.Machine.execSlotComplete p s
  | .stashDeadlock p => Sys2Proof.Machine.execStashDeadlock p s
  | .stepWatchdogExpired p => Sys2Proof.Machine.execStepWatchdogExpired p s
  | .readyReport p => Sys2Proof.Machine.execReadyReport p s
  | .vadd c fmt d a b => Sys2Proof.Machine.execVadd c fmt d a b s
  | .vmul c fmt d a b => Sys2Proof.Machine.execVmul c fmt d a b s
  | .vfma c fmt d a b e => Sys2Proof.Machine.execVfma c fmt d a b e s
  | .vmin c fmt d a b => Sys2Proof.Machine.execVmin c fmt d a b s
  | .vmax c fmt d a b => Sys2Proof.Machine.execVmax c fmt d a b s
  | .vcmp c fmt op d a b => Sys2Proof.Machine.execVcmp c fmt op d a b s
  | .vsel c fmt d a b m => Sys2Proof.Machine.execVsel c fmt d a b m s
  | .vsfn c f d a b => Sys2Proof.Machine.execVsfn c f d a b s
  | .vred c fmt op d a count => Sys2Proof.Machine.execVred c fmt op d a count s
  | .vld c d addr scaleAddr mode toFmt => Sys2Proof.Machine.execVld c d addr scaleAddr mode toFmt s
  | .vst c a addr scaleAddr fmt srcFmt mode grad => Sys2Proof.Machine.execVst c a addr scaleAddr fmt srcFmt mode grad s
  | .vstat c st => Sys2Proof.Machine.execVstat c st s
  | .mv c desc st grad => Sys2Proof.Machine.execMv c desc st s grad
  | .matvecDone c => Sys2Proof.Machine.execMatvecDone c s
  | .bundleIssue c slots => Sys2Proof.Machine.execBundleIssue c slots s
  | .slotEnd c => Sys2Proof.Machine.execSlotEnd c s
  | .fetch c q src len => Sys2Proof.Machine.execFetch c q src len s
  | .fetchArrived c q => Sys2Proof.Machine.execFetchArrived c q s
  | .put c q srcOff dst len => Sys2Proof.Machine.execPut c q srcOff dst len s
  | .putComplete c q req hostData => Sys2Proof.Machine.execPutComplete c q req hostData s
  | .pop c q k => Sys2Proof.Machine.execPop c q k s
  | .lmove c dst src len => Sys2Proof.Machine.execLmove c dst src len s
  | .wait c q k => Sys2Proof.Machine.execWait c q k s
  | .waitp c q k => Sys2Proof.Machine.execWaitp c q k s
  | .qcfg c isPut q base size mode => Sys2Proof.Machine.execQcfg c isPut q base size mode s
  | .add c d a b => Sys2Proof.Machine.execAdd c d a b s
  | .sub c d a b => Sys2Proof.Machine.execSub c d a b s
  | .and c d a b => Sys2Proof.Machine.execAnd c d a b s
  | .or c d a b => Sys2Proof.Machine.execOr c d a b s
  | .xor c d a b => Sys2Proof.Machine.execXor c d a b s
  | .shl c d a b => Sys2Proof.Machine.execShl c d a b s
  | .shr c d a b => Sys2Proof.Machine.execShr c d a b s
  | .movi c d v => Sys2Proof.Machine.execMovi c d v s
  | .br c target => Sys2Proof.Machine.execBr c target s
  | .brc c r target => Sys2Proof.Machine.execBrc c r target s
  | .loop c lc init target => Sys2Proof.Machine.execLoop c lc init target s
  | .strd c d st => Sys2Proof.Machine.execStrd c d st s
  | .timerd c d => Sys2Proof.Machine.execTimerd c d s
  | .nop c => Sys2Proof.Machine.execNop c s
  | .atom c op ty addr srcOff len fq => Sys2Proof.Machine.execAtom c op ty addr srcOff len fq s
  | .foldSwap p unit => Sys2Proof.Machine.execFoldSwap p unit s
  | .foldSwapDone p unit => Sys2Proof.Machine.execFoldSwapDone p unit s
  | .programLoad fn c v => Sys2Proof.Machine.execProgramLoad fn c v s
  | .programUnload fn c v => Sys2Proof.Machine.execProgramUnload fn c v s
  | .programUnloadApply p k => Sys2Proof.Machine.execProgramUnloadApply p k s
  | .timeSliceSwap p => Sys2Proof.Machine.execTimeSliceSwap p s
  | .meshRead pk ecc => Sys2Proof.Machine.execMeshRead pk ecc s
  | .meshWrite pk ecc => Sys2Proof.Machine.execMeshWrite pk ecc s
  | .meshAtom pk spec ecc => Sys2Proof.Machine.execMeshAtom pk spec ecc s
  | .meshRegRead pk ev => Sys2Proof.Machine.execMeshRegRead pk s ev
  | .meshRegWrite pk ev => Sys2Proof.Machine.execMeshRegWrite pk s ev
  | .meshQueueData pk => Sys2Proof.Machine.execMeshQueueData pk s
  | .meshInterrupt pk => Sys2Proof.Machine.execMeshInterrupt pk s
  | .meshReadData pk => Sys2Proof.Machine.execMeshReadData pk s
  | .meshWriteAck pk => Sys2Proof.Machine.execMeshWriteAck pk s
  | .meshAtomData pk => Sys2Proof.Machine.execMeshAtomData pk s
  | .meshRegData pk => Sys2Proof.Machine.execMeshRegData pk s
  | .meshRegAck pk => Sys2Proof.Machine.execMeshRegAck pk s
  | .meshBadPacket pk => Sys2Proof.Machine.execMeshBadPacket pk s
  | .scFlush fn v => Sys2Proof.Machine.execScFlush fn v s
  | .scFlushDone => Sys2Proof.Machine.execScFlushDone s
  | .laneTraining col => Sys2Proof.Machine.execLaneTraining col s
  | .laneTrainingDone col failed => Sys2Proof.Machine.execLaneTrainingDone col failed s
  | .columnFailed col => Sys2Proof.Machine.execColumnFailed col s
  | .doorbell fn page slot v width => Sys2Proof.Machine.execDoorbell fn page slot v width s
  | .create fn idx image => Sys2Proof.Machine.execCreate fn idx image s
  | .destroy fn idx => Sys2Proof.Machine.execDestroy fn idx s
  | .rearm fn idx => Sys2Proof.Machine.execRearm fn idx s
  | .query fn idx => Sys2Proof.Machine.execQuery fn idx s
  | .evict fn idx => Sys2Proof.Machine.execEvict fn idx s
  | .partTableWrite fn off v => Sys2Proof.Machine.execPartTableWrite fn off v s
  | .descriptorPrefetch idx hostData => Sys2Proof.Machine.execDescriptorPrefetch idx hostData s
  | .descriptorAccept idx hostData mapped => Sys2Proof.Machine.execDescriptorAccept idx hostData s mapped
  | .descriptorFinish idx req status bytes hostData ecc => Sys2Proof.Machine.execDescriptorFinish idx req status bytes hostData s ecc
  | .msixMergeExpiry vec => Sys2Proof.Machine.execMsixMergeExpiry vec s
  | .contextLoad idx hostEntry => Sys2Proof.Machine.execContextLoad idx hostEntry s
  | .contextWritebackDone idx => Sys2Proof.Machine.execContextWritebackDone idx s
  | .linkSignalDetect port => Sys2Proof.Machine.execLinkSignalDetect port s
  | .ident port m => Sys2Proof.Machine.execIdent port m s
  | .wiringNotice port code => Sys2Proof.Machine.execWiringNotice port code s
  | .portUp port lanes propNs => Sys2Proof.Machine.execPortUp port lanes propNs s
  | .trainingAttemptFail port => Sys2Proof.Machine.execTrainingAttemptFail port s
  | .partnerLost port => Sys2Proof.Machine.execPartnerLost port s
  | .retrain fn port => Sys2Proof.Machine.execRetrain fn port s
  | .portDisable fn port v => Sys2Proof.Machine.execPortDisable fn port v s
  | .fabModAddrWrite fn v => Sys2Proof.Machine.execFabModAddrWrite fn v s
  | .dataUnit port w fec => Sys2Proof.Machine.execDataUnit port w fec s
  | .controlUnit port w fec => Sys2Proof.Machine.execControlUnit port w fec s
  | .idleUnit port fec => Sys2Proof.Machine.execIdleUnit port fec s
  | .mcastUnit port w fec => Sys2Proof.Machine.execMcastUnit port w fec s
  | .controlUnitSend port => Sys2Proof.Machine.execControlUnitSend port s
  | .linkDown port addr dim plus => Sys2Proof.Machine.execLinkDown port addr dim plus s
  | .linkUp port addr dim plus => Sys2Proof.Machine.execLinkUp port addr dim plus s
  | .e2eAck via stream seq free => Sys2Proof.Machine.execE2eAck via stream seq free s
  | .e2eAckSend stream => Sys2Proof.Machine.execE2eAckSend stream s
  | .fabE2eRetransmit stream => Sys2Proof.Machine.execFabE2eRetransmit stream s
  | .timeoutHoldEnd kind idx => Sys2Proof.Machine.execTimeoutHoldEnd kind idx s
  | .reserve port m => Sys2Proof.Machine.execReserve port m s
  | .grant port m => Sys2Proof.Machine.execGrant port m s
  | .refuse port m => Sys2Proof.Machine.execRefuse port m s
  | .release port m => Sys2Proof.Machine.execRelease port m s
  | .admissionHoldTimeout port => Sys2Proof.Machine.execAdmissionHoldTimeout port s
  | .linkRekey port => Sys2Proof.Machine.execLinkRekey port s
  | .timeMessage port t1 t2 t3 prop => Sys2Proof.Machine.execTimeMessage port t1 t2 t3 prop s
  | .timeMessageSend => Sys2Proof.Machine.execTimeMessageSend s
  | .feedWrite g => Sys2Proof.Machine.execFeedWrite g s
  | .encRecord g => Sys2Proof.Machine.execEncRecord g s
  | .g1Unit port w fec => Sys2Proof.Machine.execG1Unit port w s fec
  | .reduceScatterUnit port w fec => Sys2Proof.Machine.execReduceScatterUnit port w s fec
  | .allGatherUnit port w fec => Sys2Proof.Machine.execAllGatherUnit port w s fec
  | .fingerprintUnit port header data crc fec => Sys2Proof.Machine.execFingerprintUnit port header data crc fec s
  | .reductionCredit port slot dim plus n => Sys2Proof.Machine.execReductionCredit port slot dim plus n s
  | .grxPartBlocksWrite fn p v => Sys2Proof.Machine.execGrxPartBlocksWrite fn p v s
  | .ready hop child m => Sys2Proof.Machine.execReady hop child m s
  | .sendReady p => Sys2Proof.Machine.execSendReady p s
  | .sealStep hop src step => Sys2Proof.Machine.execSealStep hop src step s
  | .sealAck hop m => Sys2Proof.Machine.execSealAck hop m s
  | .abort hop src m => Sys2Proof.Machine.execAbort hop src m s
  | .decisionAck hop child step => Sys2Proof.Machine.execDecisionAck hop child step s
  | .decisionQuery hop src step => Sys2Proof.Machine.execDecisionQuery hop src step s
  | .decisionAnswer hop src step m => Sys2Proof.Machine.execDecisionAnswer hop src step m s
  | .rejoinCopyDone p data => Sys2Proof.Machine.execRejoinCopyDone p data s
  | .stmRecover fn v => Sys2Proof.Machine.execStmRecover fn v s
  | .recoveryScan descs => Sys2Proof.Machine.execRecoveryScan s descs
  | .journalWriteDone idx => Sys2Proof.Machine.execJournalWriteDone idx s
  | .zoneStretch z monitor code => Sys2Proof.Machine.execZoneStretch z monitor code s
  | .slowLoop z => Sys2Proof.Machine.execSlowLoop z s
  | .zoneSlewStep z => Sys2Proof.Machine.execZoneSlewStep z s
  | .zoneLockLost z => Sys2Proof.Machine.execZoneLockLost z s
  | .relock fn z => Sys2Proof.Machine.execRelock fn z s
  | .refLost => Sys2Proof.Machine.execRefLost s
  | .epochPulse => Sys2Proof.Machine.execEpochPulse s
  | .clkTimeSeedWrite fn v => Sys2Proof.Machine.execClkTimeSeedWrite fn v s
  | .clkSyncLost => Sys2Proof.Machine.execClkSyncLost s
  | .flushComplete b => Sys2Proof.Machine.execFlushComplete b s
  | .supplyHigh mv => Sys2Proof.Machine.execSupplyHigh mv s
  | .supplyThrottle mv => Sys2Proof.Machine.execSupplyThrottle mv s
  | .supplyNormal mv => Sys2Proof.Machine.execSupplyNormal mv s
  | .supplyStop mv => Sys2Proof.Machine.execSupplyStop mv s
  | .retentionEnter => Sys2Proof.Machine.execRetentionEnter s
  | .supplyRideThrough mv => Sys2Proof.Machine.execSupplyRideThrough mv s
  | .holdupDepleted => Sys2Proof.Machine.execHoldupDepleted s
  | .holdupCharged mv => Sys2Proof.Machine.execHoldupCharged mv s
  | .inrushFault => Sys2Proof.Machine.execInrushFault s
  | .inrushRetry => Sys2Proof.Machine.execInrushRetry s
  | .gateEval ramp progW droneMax => Sys2Proof.Machine.execGateEval ramp progW droneMax s
  | .capEval => Sys2Proof.Machine.execCapEval s
  | .telemetrySample mv watts board zones => Sys2Proof.Machine.execTelemetrySample mv watts board zones s
  | .telemetryRecord => Sys2Proof.Machine.execTelemetryRecord s
  | .poweredHour slow => Sys2Proof.Machine.execPoweredHour slow s
  | .replan write => Sys2Proof.Machine.execReplan write s
  | .bootRom => Sys2Proof.Machine.execBootRom s
  | .getCerts fn hostReq => Sys2Proof.Machine.execGetCerts fn hostReq s
  | .attest fn hostReq => Sys2Proof.Machine.execAttest fn hostReq s
  | .logRead fn hostReq => Sys2Proof.Machine.execLogRead fn hostReq s
  | .lock fn hostReq => Sys2Proof.Machine.execLock fn hostReq s
  | .unlock fn hostReq => Sys2Proof.Machine.execUnlock fn hostReq s
  | .keyAgree fn hostReq => Sys2Proof.Machine.execKeyAgree fn hostReq s
  | .keyImport fn hostReq => Sys2Proof.Machine.execKeyImport fn hostReq s
  | .keyDestroy fn hostReq => Sys2Proof.Machine.execKeyDestroy fn hostReq s
  | .svnCommit fn hostReq => Sys2Proof.Machine.execSvnCommit fn hostReq s
  | .firmwareUpdate image => Sys2Proof.Machine.execFirmwareUpdate image s
  | .ideKm stream => Sys2Proof.Machine.execIdeKm stream s
  | .hostIdeError stream hit => Sys2Proof.Machine.execHostIdeError stream hit s
  | .hostLinkChange width rate half => Sys2Proof.Machine.execHostLinkChange width rate half s
  | .hostLinkDown => Sys2Proof.Machine.execHostLinkDown s
  | .vfFlr v => Sys2Proof.Machine.execVfFlr v s
  | .pfFlr => Sys2Proof.Machine.execPfFlr s
  | .hotReset => Sys2Proof.Machine.execHotReset s
  | .perst => Sys2Proof.Machine.execPerst s
  | .bar2Read fn off len ecc => Sys2Proof.Machine.execBar2Read fn off len ecc s
  | .bar2Write fn off data ecc => Sys2Proof.Machine.execBar2Write fn off data s ecc
  | .modIntCauseClear fn v ev => Sys2Proof.Machine.execModIntCauseClear fn v s ev
  | .modIntMaskWrite fn v => Sys2Proof.Machine.execModIntMaskWrite fn v s
  | .msixUnmask vec => Sys2Proof.Machine.execMsixUnmask vec s
  | .faultMergeEnd req => Sys2Proof.Machine.execFaultMergeEnd req s
  | .faultRingDrain fn v => Sys2Proof.Machine.execFaultRingDrain fn v s
  | .coreHwFault c array => Sys2Proof.Machine.execCoreHwFault c array s
  | .quarantineAdd fn v => Sys2Proof.Machine.execQuarantineAdd fn v s
  | .quarantineRemove fn v => Sys2Proof.Machine.execQuarantineRemove fn v s
  | .recEn fn => Sys2Proof.Machine.execRecEn fn s
  | .recArm fn => Sys2Proof.Machine.execRecArm fn s
  | .gpx0Edge => Sys2Proof.Machine.execGpx0Edge s
  | .recStop fn => Sys2Proof.Machine.execRecStop fn s
  | .replayEn fn => Sys2Proof.Machine.execReplayEn fn s
  | .replayEntry entry bulk => Sys2Proof.Machine.execReplayEntry entry bulk s
  | .replayDiverged => Sys2Proof.Machine.execReplayDiverged s
  | .traceEn fn v => Sys2Proof.Machine.execTraceEn fn v s
  | .dump fn => Sys2Proof.Machine.execDump fn s
  | .powerOn mv => Sys2Proof.Machine.execPowerOn mv s
  | .warmReset fn v => Sys2Proof.Machine.execWarmReset fn v s
  | .warmResetRestart => Sys2Proof.Machine.execWarmResetRestart s
  | .coldReset fn v => Sys2Proof.Machine.execColdReset fn v s
  | .coreReset fn v => Sys2Proof.Machine.execCoreReset fn v s
  | .portReset fn v => Sys2Proof.Machine.execPortReset fn v s
  | .shutdown fn v => Sys2Proof.Machine.execShutdown fn v s
  | .sealPulseEnd => Sys2Proof.Machine.execSealPulseEnd s
  | .regRead off ev => Sys2Proof.Machine.execRegRead off s ev
  | .regWrite off v ev => Sys2Proof.Machine.execRegWrite off v s ev
  | .bufWrite buf off data => Sys2Proof.Machine.execBufWrite buf off data s
  | .tunLoad checkOnly len => Sys2Proof.Machine.execTunLoad checkOnly len s
  | .tunReport req => Sys2Proof.Machine.execTunReport req s
  | .secGo len => Sys2Proof.Machine.execSecGo len s
  | .bufRead off len => Sys2Proof.Machine.execBufRead off len s
  | .pldmDiscovery cmd => Sys2Proof.Machine.execPldmDiscovery cmd s
  | .pldmMonitor sensor => Sys2Proof.Machine.execPldmMonitor sensor s
  | .pldmFru => Sys2Proof.Machine.execPldmFru s
  | .extest => Sys2Proof.Machine.execExtest s
  | .registerWrite fn off width v ev => Sys2Proof.Machine.execRegisterWrite fn off width v s ev
  | .columnPortSlot row col write => Sys2Proof.Machine.execColumnPortSlot row col write s
  | .refPresent => Sys2Proof.Machine.execRefPresent s
  | .bootRefTimeout => Sys2Proof.Machine.execBootRefTimeout s
  | .syncOutPulse => Sys2Proof.Machine.execSyncOutPulse s
  | .syncInMissed => Sys2Proof.Machine.execSyncInMissed s
  | .mailboxDone fn => Sys2Proof.Machine.execMailboxDone fn s
  | .programLoadDone p => Sys2Proof.Machine.execProgramLoadDone p s
  | .timeSliceSwapDone p => Sys2Proof.Machine.execTimeSliceSwapDone p s
  | .functionPowerState fn d3 => Sys2Proof.Machine.execFunctionPowerState fn d3 s
  | .busMasterEnable v => Sys2Proof.Machine.execBusMasterEnable v s

end Sys2Proof.Machine
end

