-- ==== Sys2Proof/Machine/Step.lean ====
section
/-! DEFINITION. One step: the command at the front of the queue, or a tick of TIME when none waits. -/

namespace Sys2Proof.Machine

/-- TIME counts: the fixed domain has power (R332, R425). -/
def timeRuns (s : State) : Bool := railsOn s || s.phase = .stopped

/-- What happens when no command waits: one 250 MHz tick of TIME, or nothing without the fixed domain (log 8). -/
def idle (s : State) : State := if timeRuns s then timeTick s else s

/-- One step. -/
def step (s : State) : Host.Outcome State Fault Refusal :=
  match s.pending with
  | [] => .next (idle s)
  | c :: rest => exec c { s with pending := rest }

/-- The state with the command that a word spells at the front of its queue; the same state where the word spells none. -/
def State.withFetchWord (s : State) (nbits w : Nat) : State :=
  match decodeTableWord nbits w with
  | some c => { s with pending := c :: s.pending }
  | none => s

end Sys2Proof.Machine
end

