-- ==== Sys2Proof/Safety.lean ====
section
/-! DEFINITION. The words that statements use: good states, what a command answers, and which part of the state it may change. -/

namespace Sys2Proof.Machine

/-- The stack's bytes and the register file are in canonical form. -/
def Canonical (s : State) : Prop := Memory.wf s.stack.bytes = true ∧ Tbl.wf regReset s.regs = true

/-- What manufacture fixed is legal: one of the three grades, its number of fused cores, each an existing core and named once, and an SVN
within the 64 fuses (R1, R2, R362). -/
def LegalPart (p : Part) : Prop :=
  (p.grade = 1 ∧ p.fused.length = 0 ∨ p.grade = 2 ∧ p.fused.length = 16 ∨ p.grade = 3 ∧ p.fused.length = 32) ∧
  (∀ c ∈ p.fused, c < 256) ∧ p.fused.Nodup ∧ p.svnFuses ≤ 64

/-- The command answers a next state, and it satisfies `P`. -/
def Completes (c : Instr) (s : State) (P : State → Prop) : Prop := ∃ t, exec c s = .next t ∧ P t

/-! ## Frames: `t` is `s` but for the part that the name says -/

def OnlyReg (s t : State) (k : Nat) : Prop := (∀ j, j ≠ k → getReg t j = getReg s j) ∧ t = { s with regs := t.regs }
def OnlyCore (s t : State) (c : Nat) : Prop := (∀ i, i ≠ c → getCore t i = getCore s i) ∧ t = { s with cores := t.cores }
def OnlyArr (s t : State) (a : Nat) : Prop := (∀ i, i ≠ a → getArr t i = getArr s i) ∧ t = { s with arrs := t.arrs }
def OnlyStr (s t : State) (n : Nat) : Prop := (∀ i, i ≠ n → getStr t i = getStr s i) ∧ t = { s with strs := t.strs }
def OnlyPart (s t : State) (p : Nat) : Prop := (∀ i, i ≠ p → getPart t i = getPart s i) ∧ t = { s with parts := t.parts }
def OnlyFn (s t : State) (f : Nat) : Prop := (∀ i, i ≠ f → getFn t i = getFn s i) ∧ t = { s with fns := t.fns }
def OnlyZone (s t : State) (z : Nat) : Prop :=
  (∀ i, i ≠ z → getZone t i = getZone s i) ∧ t = { s with clk := { s.clk with zones := t.clk.zones } }
def OnlyPort (s t : State) (n : Nat) : Prop :=
  (∀ i, i ≠ n → getPort t i = getPort s i) ∧ t = { s with fab := { s.fab with ports := t.fab.ports } }
def OnlySeal (s t : State) (k : Nat) : Prop :=
  (∀ i, i ≠ k → getSeal t i = getSeal s i) ∧ t = { s with grx := { s.grx with seals := t.grx.seals } }
def OnlyRt (s t : State) (i : Nat) : Prop :=
  (∀ j, j ≠ i → getRt t j = getRt s j) ∧ t = { s with stm := { s.stm with rt := t.stm.rt } }
def OnlyMsix (s t : State) (v : Nat) : Prop := (∀ i, i ≠ v → getMsix t i = getMsix s i) ∧ t = { s with msix := t.msix }

/-! ## Events (R398 to R402) -/

/-- Registers that logging an event may write: the fault registers, MOD_FAULT_SUM, DBG_STATUS, the head of the host's ring, and the
functions' interrupt causes. -/
def logReg (k : Nat) : Prop :=
  k = R.MOD_FAULT_SUM ∨ k = R.DBG_FLOG_HEAD ∨ k = R.DBG_STATUS ∨ (∃ e, faultReg e = some k) ∨ ∃ f, k = fnKey f R.MOD_INT_CAUSE

/-- `t` is `s` but for what logging an event changes: those registers, the logs, interrupts and what the host is sent. -/
def OnlyLog (s t : State) : Prop :=
  (∀ k, ¬ logReg k → getReg t k = getReg s k) ∧
  t = { s with flash := { s.flash with faults := t.flash.faults }, msix := t.msix, flog := t.flog,
               host := { s.host with wait := t.host.wait }, out := t.out, regs := t.regs }

/-- One event has been logged, with this code, and nothing else has happened. -/
def Logged (s t : State) (code : Nat) : Prop :=
  t.flog.seq = s.flog.seq + 1 ∧ fld (getReg t R.MOD_FAULT_SUM) 63 48 = code ∧ OnlyLog s t

/-! ## A slot's command on a core (R164 to R178) -/

/-- Instruction `op` can be carried out on unit `u` of core `c`: the core runs, the instruction stands at the head of the unit's queue, and no
register that it needs is pending. -/
def Ready (s : State) (c : Nat) (u : UnitId) (op : SlotOp) : Prop :=
  coreRuns s c = true ∧ atHead (getCore s c) u op = true ∧ regHaz (getCore s c) u op = false

/-- Core `c` has executed the head of unit `u` and changed nothing else. -/
def Retired (s t : State) (c : Nat) (u : UnitId) : Prop := getCore t c = retired (getCore s c) u ∧ OnlyCore s t c

/-- Core `c` has executed the head of its C slot and written `v` to general register `d`; GR0 stays 0. -/
def WroteGr (s t : State) (c d : Nat) (v : W64) : Prop :=
  gr (getCore t c) d = (if d = 0 then 0 else v) ∧ (∀ n, n ≠ d → gr (getCore t c) n = gr (getCore s c) n) ∧
  getCore t c = { retired (getCore s c) .c with gr := (getCore t c).gr } ∧ OnlyCore s t c

/-- Core `c` has resolved a branch: the next bundle to issue is `pc`. -/
def Branched (s t : State) (c pc : Nat) : Prop :=
  (getCore t c).pc = pc ∧ (getCore t c).branching = false ∧
  getCore t c = { retired (getCore s c) .c with pc := pc, branching := false } ∧ OnlyCore s t c

/-- Core `c` has executed the head of its V slot: lane `i` of register `d` is result `i`, lanes beyond the results keep their bits, and the flags of
the results are in the status word. -/
def VecResult (s t : State) (c d : Nat) (f : VFmt) (rs : List LaneRes) : Prop :=
  (∀ i, laneBits f (vreg (getCore t c) d) i =
    match rs[i]? with | some r => r.enc % 2 ^ vWidth f | none => laneBits f (vreg (getCore s c) d) i) ∧
  (∀ n, n ≠ d → vreg (getCore t c) n = vreg (getCore s c) n) ∧
  (getCore t c).vstat = vstatAfter (getCore s c).vstat rs ∧
  getCore t c = { retired (getCore s c) .v with vr := (getCore t c).vr, vstat := (getCore t c).vstat } ∧ OnlyCore s t c

/-- No flag of these lane results is trapped on core `c`. -/
def NoTrap (s : State) (c : Nat) (rs : List LaneRes) : Prop := trapCode (getCore s c).trap (resFlags rs) = none

/-- Command `i` of the V slot of core `c` with results `rs` ends as `P` says; a trapped flag of them then faults the core (R157). -/
def EndsV (i : Instr) (s : State) (c : Nat) (rs : List LaneRes) (P : State → Prop) : Prop :=
  (NoTrap s c rs → Completes i s P) ∧
  (∀ code, trapCode (getCore s c).trap (resFlags rs) = some code →
    ∃ u, P u ∧ exec i s = .next (coreFaultB u c .v (headBundle (getCore s c) .v) code none))

/-! ## Checked accesses and streamed bytes (R172, R173, R177) -/

/-- Command `i` of unit `u` of core `c` faults or is held by the first of its accesses that demands it, and does `P` when none does. -/
def Guards (i : Instr) (s : State) (c : Nat) (u : UnitId) (accs : List Acc) (P : Prop) : Prop :=
  (∀ code, chkAccs (getCore s c) u accs = .fault code → exec i s = .next (coreFault s c u code)) ∧
  (chkAccs (getCore s c) u accs = .stall → exec i s = .next (hold s c 1)) ∧
  (chkAccs (getCore s c) u accs = .ok → P)

/-- Command `i` of unit `u` of core `c` needs `n` bytes of fetch queue `q`: with fewer there it keeps what has arrived and is held; with all of them
it completes, as `P` says of the bytes and of the state from which they are taken. -/
def Feeds (i : Instr) (s : State) (c : Nat) (u : UnitId) (q n : Nat) (P : List Byte → State → State → Prop) : Prop :=
  let k := getCore s c
  let got := feedOf k (slotNo u)
  let all := fqTake s c q (fqAvail (fqOf k q))
  let y := fqTake s c q (n - got.length)
  (got.length + fqAvail (fqOf k q) < n → exec i s =
    .next (hold (modCore all.2 c (fun k => { k with feed := tset (fun _ => []) k.feed (slotNo u) (got ++ all.1) })) c 1)) ∧
  (n ≤ got.length + fqAvail (fqOf k q) → Completes i s (P (got ++ y.1) y.2))

/-! ## Requests of a core (R172, R222) -/

/-- Core `c` has made one mesh request of type `typ` for each piece `(address, bytes)` of `l`: packets that have left, and requests that
wait at the core for a free tag. -/
def Requests (s t : State) (c typ : Nat) (l : List (Nat × Nat)) : Prop :=
  t.mesh.length + (getCore t c).mwait.length = s.mesh.length + (getCore s c).mwait.length + l.length ∧
  ∃ ps : List Packet, t.out = s.out ++ ps.map Out.mesh ∧ ps.length + s.mesh.length = t.mesh.length ∧
    ∀ pk ∈ ps, pk.typ = typ ∧ pk.srcRouter = c ∧ ∃ n, (pk.addr, n) ∈ l ∧ pk.len = n - 1

/-- Core `c` has executed the head of its X slot, which put a request of `len` bytes into fetch queue `q`: ring space is taken, nothing
has arrived. -/
def FetchMade (s t : State) (c q len : Nat) (stream : Option Nat) : Prop :=
  fqOf (getCore t c) q = fqPush (fqOf (getCore s c) q) len stream ∧
  (∀ i, i ≠ q → fqOf (getCore t c) i = fqOf (getCore s c) i) ∧
  getCore t c = { retired (getCore s c) .x with fq := (getCore t c).fq, mwait := (getCore t c).mwait } ∧
  (∀ i, i ≠ c → getCore t i = getCore s i)

/-- Core `c` has executed the head of its X slot, which put request `r` into put queue `q` and holds its source's bytes `a` until the put is
complete. -/
def PutMade (s t : State) (c q : Nat) (r : PReq) (a : Acc) : Prop :=
  pqOf (getCore t c) q = { nextId := (pqOf (getCore s c) q).nextId + 1, reqs := (pqOf (getCore s c) q).reqs ++ [r] } ∧
  (∀ i, i ≠ q → pqOf (getCore t c) i = pqOf (getCore s c) i) ∧
  getCore t c = { retired (holdRanges (getCore s c) [a] (putKind q r.id)) .x with pq := (getCore t c).pq, mwait := (getCore t c).mwait } ∧
  (∀ i, i ≠ c → getCore t i = getCore s i)

/-! ## The slot a command stands in (R165, R168, R173) -/

/-- Core, unit and instruction of the commands by which a unit executes the head of its queue. -/
def slotUse : Instr → Option (Nat × UnitId × SlotOp)
  | .lds c a src d f m b g n => some (c, unitOfArr a, .lds src d f m b g n)
  | .swap c a => some (c, unitOfArr a, .swap)
  | .col c a g src n e f o x => some (c, unitOfArr a, .col g src n e f o x)
  | .pre c a g src n f => some (c, unitOfArr a, .pre g src n f)
  | .wb c a g d f st _ => some (c, unitOfArr a, .wb g d f st)
  | .spl c a n => some (c, unitOfArr a, .spl n)
  | .bow c a o st => some (c, unitOfArr a, .bow o st)
  | .mv c o st _ => some (c, .m, .mv o st)
  | .vadd c f d a b => some (c, .v, .vadd f d a b)
  | .vmul c f d a b => some (c, .v, .vmul f d a b)
  | .vfma c f d a b e => some (c, .v, .vfma f d a b e)
  | .vmin c f d a b => some (c, .v, .vmin f d a b)
  | .vmax c f d a b => some (c, .v, .vmax f d a b)
  | .vcmp c f o d a b => some (c, .v, .vcmp f o d a b)
  | .vsel c f d a b m => some (c, .v, .vsel f d a b m)
  | .vsfn c f d a b => some (c, .v, .vsfn f d a b)
  | .vred c f o d a n => some (c, .v, .vred f o d a n)
  | .vld c d a b m t => some (c, .v, .vld d a b m t)
  | .vst c r a b f t m _ => some (c, .v, .vst r a b f t m)
  | .vstat c st => some (c, .v, .vstat st)
  | .fetch c q x n => some (c, .x, .fetch q x n)
  | .put c q o x n => some (c, .x, .put q o x n)
  | .pop c q n => some (c, .x, .pop q n)
  | .lmove c d a n => some (c, .x, .lmove d a n)
  | .atom c o ty a b n q => some (c, .x, .atom o ty a b n q)
  | .wait c q n => some (c, .c, .wait q n)
  | .waitp c q n => some (c, .c, .waitp q n)
  | .qcfg c p q b n m => some (c, .c, .qcfg p q b n m)
  | .add c d a b => some (c, .c, .add d a b)
  | .sub c d a b => some (c, .c, .sub d a b)
  | .and c d a b => some (c, .c, .and d a b)
  | .or c d a b => some (c, .c, .or d a b)
  | .xor c d a b => some (c, .c, .xor d a b)
  | .shl c d a b => some (c, .c, .shl d a b)
  | .shr c d a b => some (c, .c, .shr d a b)
  | .movi c d v => some (c, .c, .movi d v)
  | .br c t => some (c, .c, .br t)
  | .brc c r t => some (c, .c, .brc r t)
  | .loop c l n t => some (c, .c, .loop l n t)
  | .strd c d st => some (c, .c, .strd d st)
  | .timerd c d => some (c, .c, .timerd d)
  | .nop c => some (c, .c, .nop)
  | _ => none

/-! ## Arrays (R60) -/

/-- Core `c` has executed the head of the slot of its array `a`, which now is `x`; nothing else has changed. -/
def ArrDone (s t : State) (c : Fin 256) (a : Fin 2) (x : Arr) : Prop :=
  getArr t (arrOf c a) = x ∧ (∀ i, i ≠ arrOf c a → getArr t i = getArr s i) ∧
  getCore t c = retired (getCore s c) (unitOfArr a) ∧ (∀ i, i ≠ c.val → getCore t i = getCore s i) ∧
  t = { s with arrs := t.arrs, cores := t.cores }

/-! ## Strings (R76) -/

/-- The Nut of String `n` has found cause `w` to wait: STATE, CAUSE and the count of stalled attempts say so, nothing else has changed. -/
def NutWaits (s t : State) (n w : Nat) : Prop :=
  getStr t n = { getStr s n with run := if w = 4 then .drain else .wait, cause := w } ∧ (∀ i, i ≠ n → getStr t i = getStr s i) ∧
  getReg t (R.STR_STALLED n) = getReg s (R.STR_STALLED n) + 1 ∧ (∀ k, k ≠ R.STR_STALLED n → getReg t k = getReg s k) ∧
  t = { s with regs := t.regs, strs := t.strs }

/-- The Nut of String `n` has issued `m` slices of the row Bow `c`: they are counted, and with the last one the Bow has left the Nut, so
that the tile's next Bow follows or none is in progress; with fewer it waits for data. -/
def SlicesIssued (s t : State) (n : Nat) (c : CurBow) (m : Nat) : Prop :=
  getReg t (R.STR_ISSUED n) = getReg s (R.STR_ISSUED n) + BitVec.ofNat 64 m ∧
  getReg t (R.STR_STALLED n) = getReg s (R.STR_STALLED n) + (if c.slice + m = bowSlices c.ent.desc then 0 else 1) ∧
  (∀ k, k ≠ R.STR_ISSUED n → k ≠ R.STR_STALLED n → getReg t k = getReg s k) ∧
  (c.slice + m < bowSlices c.ent.desc → (getStr t n).run = .wait ∧ (getStr t n).cause = 3 ∧
    (getStr t n).cur = some { c with slice := c.slice + m, started := true }) ∧
  (c.slice + m = bowSlices c.ent.desc → (getStr t n).cur =
    if c.bow + 1 < bowBows c.ent.desc then some { c with bow := c.bow + 1, slice := 0, started := false } else none) ∧
  (∀ i, i ≠ n → getStr t i = getStr s i) ∧
  t = { s with regs := t.regs, arrs := t.arrs, strs := t.strs, cores := t.cores, mesh := t.mesh, out := t.out }

/-! ## Units on a link (R248, R256, R259) -/

/-- Port `n` has taken unit `h`, whole or damaged: in order when it is the one expected; a later or a damaged one makes one NAK; an earlier one, and
what follows a NAK that stands, nothing. On a timed channel the second copy counts only if the first was damaged, and a NAK of it is an error. -/
def Arrived (s t : State) (n : Nat) (h : LinkUnit) (good : Bool) : Prop :=
  let v := h.vc
  let c := getVc (getPort s n) v
  let timed := v = 20 ∨ v = 21
  let ahead := (h.lseq + 4096 - c.rxSeq) % 4096
  (¬ timed → good = true →
    (h.lseq = c.rxSeq → t = bufDrain (c.buf.length + 1)
      (modVc s n v (fun c => { c with rxSeq := (c.rxSeq + 1) % 4096, nak := false, buf := c.buf ++ [h] })) n v) ∧
    (h.lseq ≠ c.rxSeq → ahead < 2048 → c.nak = false → t = sendNak s n v) ∧
    (h.lseq ≠ c.rxSeq → 2048 ≤ ahead ∨ c.nak = true → t = s)) ∧
  (¬ timed → good = false →
    (v < 24 → (c.nak = false ∨ h.lseq = c.rxSeq) → t = sendNak s n v) ∧
    (24 ≤ v ∨ (c.nak = true ∧ h.lseq ≠ c.rxSeq) → t = s)) ∧
  (timed → c.second = false →
    let u := modVc s n v (fun c => { c with second := true, firstOk := good })
    t = if good then goodUnit u n v h else u) ∧
  (timed → c.second = true →
    let u := modVc s n v (fun c => { c with second := false })
    (c.firstOk = true → t = u) ∧ (c.firstOk = false → good = true → t = goodUnit u n v h) ∧
    (c.firstOk = false → good = false → t = portErr (badUnit u n v h.lseq) n 63 48 (b2n (!c.nak))))

/-! ## The mailbox (R378) -/

/-- Command `i` is function `fn`'s mailbox request `r` with opcode `op`, which does `run`: it is taken where the function may write its mailbox and
nothing replays its partition; a busy mailbox refuses it; while the management core cannot serve it, it waits in its line; else it runs at
once, and the mailbox is busy with its code and response, or with a refusal's code and no body. -/
def Answers (i : Instr) (s : State) (fn : Nat) (r : List Byte) (op : Nat) (run : State → MbEnd) : Prop :=
  let h := mbHdr r
  let k := fnKey fn R.SEC_MB_STATUS
  let f := getFn s fn
  let taken := fn ≠ 17 ∧ mayWrite s fn R.SEC_MB_CTRL = true ∧ replaying s h.part = false
  let v := recInput (modFn s fn (fun f => { f with mbDiscard := false })) 7 (if fn = 0 then 0xFF else fn - 1) 0 0 r
  let e := run v
  let code := if mbWhole r = true ∧ 16 + e.2.2.length ≤ mbCap s fn then e.2.1 else 0x903
  let busy := fun (t u : State) (code : Nat) (body : List Byte) => getFn t fn = { getFn u fn with
      mbBusy := true, mbHeld := none, mbCode := code, mbRsp := (mbResponse h.op code body).take (mbCap s fn) } ∧
    (getReg t k).getLsbD 0 = true ∧ (∀ j, j ≠ fn → getFn t j = getFn u j)
  (¬ taken → exec i s = .next s) ∧
  (taken → 1 ≤ h.op → h.op ≤ 9 → h.op ≠ op → exec i s = .next s) ∧
  (taken → h.op = op → f.mbBusy = true → Completes i s (fun t => fld (getReg t k) 47 32 = 0x904 ∧ t.flog.seq = s.flog.seq + 1 ∧
    fld (getReg t R.MOD_FAULT_SUM) 63 48 = 0x904 ∧ t.fns = s.fns ∧ t.sec = s.sec ∧ t.part = s.part ∧ t.stack = s.stack ∧ t.tun = s.tun)) ∧
  (taken → h.op = op → f.mbBusy = false → coreNow s = false → Completes i s (fun t =>
    getFn t fn = { f with mbBusy := true, mbHeld := some r, mbDiscard := false } ∧ (∀ j, j ≠ fn → getFn t j = getFn s j) ∧
    (getReg t k).getLsbD 0 = true ∧ (∀ j, j ≠ k → getReg t j = getReg s j) ∧
    t = { s with fns := t.fns, regs := t.regs, tun := { s.tun with jobs := s.tun.jobs ++ [.box fn] } })) ∧
  (taken → h.op = op → f.mbBusy = false → coreNow s = true →
    (code = 0 → Completes i s (fun t => busy t e.1 0 e.2.2 ∧ t.sec = e.1.sec ∧ t.flash = e.1.flash ∧ t.part = e.1.part ∧ t.stack = e.1.stack ∧
      t.cores = e.1.cores ∧ t.stm = e.1.stm)) ∧
    (code ≠ 0 → Completes i s (fun t => busy t v code [] ∧ fld (getReg t R.MOD_FAULT_SUM) 63 48 = code ∧ t.sec = v.sec ∧ t.part = v.part ∧
      t.flash.locks = v.flash.locks ∧ t.stack = v.stack ∧ t.flog.seq = v.flog.seq + 1))) ∧
  (taken → h.op = 0 ∨ 9 < h.op → f.mbBusy = false → coreNow s = true → Completes i s (fun t => busy t v 0x903 [] ∧
    fld (getReg t R.MOD_FAULT_SUM) 63 48 = 0x903 ∧ t.sec = v.sec ∧ t.part = v.part ∧ t.flash.locks = v.flash.locks ∧ t.stack = v.stack))

end Sys2Proof.Machine
end

