-- ==== Sys2Proof/WellFormed.lean ====
section
/-! DEFINITION. Which commands a sender can put on the wires: every field within the width that the manual gives it. `exec` is total and
does not ask; the statements that need a width take it from here. -/

namespace Sys2Proof

/-- A mesh packet (R220): the widths of its header fields, at most 256 bytes, in one 256-byte granule. -/
def Packet.wf (p : Packet) : Bool :=
  decide (p.addr < 2 ^ 36) && decide (p.tag < 1024) && decide (p.part < 16) && decide (p.len < 256) && decide (p.typ < 16) &&
  decide (p.srcEp < 8) && decide (p.srcRouter < 256) && decide (p.dstEp < 8) && decide (p.dstRouter < 256) &&
  decide (p.data.length ≤ 256) && decide (p.addr % 256 + p.len < 256)

/-- A link unit (R247): the widths of its header fields, 1 to 256 bytes. -/
def LinkUnit.wf (u : LinkUnit) : Bool :=
  decide (u.vc < 24) && decide (u.lseq < 4096) && decide (u.dst < 65536) && decide (u.dstStream < 2 ^ 20) && decide (u.eseq < 65536) &&
  decide (1 ≤ u.data.length) && decide (u.data.length ≤ 256)

/-- A CONTROL unit (R248): 24 acknowledgements and 24 credit counts. -/
def CtrlUnit.wf (c : CtrlUnit) : Bool :=
  decide (c.ack.length = 24) && c.ack.all (fun a => decide (a < 4096)) && decide (c.credit.length = 24) &&
  c.credit.all (fun n => decide (n < 256)) &&
  (match c.nak with | some n => decide (n.1 < 24) && decide (n.2 < 4096) | none => true)

/-- A link unit on the wire (R247): 1 to 256 payload bytes, or 64 of a CONTROL unit. -/
def UnitWire.wf (w : UnitWire) : Bool := decide (1 ≤ w.data.length) && decide (w.data.length ≤ 256)

/-- An admission message (R260): streams and addresses that exist, 1 to 4 slots. -/
def AdmMsg.wf (m : AdmMsg) : Bool :=
  decide (m.res < 65536) && decide (m.src < 65536) && decide (m.dst < 65536) && decide (m.srcStream < 2 ^ 20) &&
  decide (m.dstStream < 2 ^ 20) && decide (1 ≤ m.slots) && decide (m.slots ≤ 4)

/-- A READY message (R290). -/
def ReadyMsg.wf (m : ReadyMsg) : Bool :=
  decide (m.step < 2 ^ 64) && decide (m.count < 2 ^ 32) && decide (m.fp < 2 ^ 64) && decide (m.failCode < 65536) &&
  decide (m.failOrigin < 65536) && decide (m.poisonBlocks < 2 ^ 32) && decide (m.satBlocks < 2 ^ 32) && decide (m.poisonOrigin < 65536) &&
  decide (m.poisonBlock < 2 ^ 32)

/-- A module address (R250). -/
def addrFits (a : Nat) : Bool := decide (a < 65536)

/-- A stream index (R227). -/
def idxOk (i : Nat) : Bool := decide (i < 2 ^ 20)

/-- A step number (R290). -/
def stepOk (n : Nat) : Bool := decide (n < 2 ^ 64)

/-- A core-store address is byte-wide in 2 MiB (R164). -/
def storeOk (a : Nat) : Bool := decide (a < 2097152)

/-- An operand that names core-store bytes directly (R175). -/
def Opnd.storeFits (o : Opnd) : Bool := storeOk o.base

/-- The fields of a command are within their widths. -/
def Instr.wf : Instr → Bool
  | .tuningLoad _ image => decide (image.length ≤ 1048576)
  | .tuningCheckOnly _ image => decide (image.length ≤ 1048576)
  | .featureEnable f r p => decide (f < 256) && decide (r < 11) && decide (p < 16)
  | .featureDisable f r => decide (f < 256) && decide (r < 11)
  | .lds _ _ _ _ _ m b _ _ => m.storeFits && b.storeFits
  | .bow _ _ a _ => a.storeFits
  | .mv _ a _ _ => a.storeFits
  | .readClear _ off width _ => decide (off < 0x4000000) && decide (width ≤ 64)
  | .registerWrite _ off width _ _ => decide (off < 0x4000000) && decide (width ≤ 64)
  | .regRead off _ => decide (off < 2 ^ 32)
  | .regWrite off _ _ => decide (off < 2 ^ 32)
  | .partTableWrite _ off _ => decide (off < 0x4000000)
  | .doorbell _ page slot _ width => decide (page < 1024) && decide (slot < 512) && decide (width ≤ 64)
  | .bar2Read _ off len _ => decide (off + len ≤ 2 ^ 36)
  | .bar2Write _ off data _ => decide (off + data.length ≤ 2 ^ 36)
  | .meshRead pk _ => pk.wf
  | .meshWrite pk _ => pk.wf
  | .meshAtom pk _ _ => pk.wf
  | .meshRegRead pk _ => pk.wf
  | .meshRegWrite pk _ => pk.wf
  | .meshQueueData pk => pk.wf
  | .meshInterrupt pk => pk.wf
  | .meshReadData pk => pk.wf
  | .meshWriteAck pk => pk.wf
  | .meshAtomData pk => pk.wf
  | .meshRegData pk => pk.wf
  | .meshRegAck pk => pk.wf
  | .meshBadPacket pk => pk.wf
  | .create _ idx _ => idxOk idx
  | .destroy _ idx => idxOk idx
  | .rearm _ idx => idxOk idx
  | .query _ idx => idxOk idx
  | .evict _ idx => idxOk idx
  | .descriptorPrefetch idx _ => idxOk idx
  | .descriptorAccept idx _ _ => idxOk idx
  | .descriptorFinish idx _ _ _ _ _ => idxOk idx
  | .contextLoad idx _ => idxOk idx
  | .contextWritebackDone idx => idxOk idx
  | .journalWriteDone idx => idxOk idx
  | .e2eAckSend idx => idxOk idx
  | .fabE2eRetransmit idx => idxOk idx
  | .e2eAck ⟨_, _, _, dst⟩ idx _ _ => addrFits dst && idxOk idx
  | .msixMergeExpiry vec => decide (vec < 2048)
  | .msixUnmask vec => decide (vec < 2048)
  | .portUp _ lanes prop => (lanes = 4 || lanes = 8) && decide (prop < 65536)
  | .dataUnit _ w _ => w.wf
  | .mcastUnit _ w _ => w.wf
  | .controlUnit _ w _ => w.wf
  | .g1Unit _ w _ => w.wf
  | .reduceScatterUnit _ w _ => w.wf
  | .allGatherUnit _ w _ => w.wf
  | .fingerprintUnit _ header data crc _ => UnitWire.wf ⟨header, data, crc⟩
  | .linkDown _ a d _ => addrFits a && decide (d < 4)
  | .linkUp _ a d _ => addrFits a && decide (d < 4)
  | .reserve _ m => m.wf
  | .grant _ m => m.wf
  | .refuse _ m => m.wf
  | .release _ m => m.wf
  | .timeMessage _ t1 t2 t3 prop => decide (t1 < 2 ^ 64) && decide (t2.getD 0 < 2 ^ 64) && decide (t3 < 2 ^ 64) && decide (prop < 65536)
  | .ready ⟨_, d, _⟩ c m => addrFits d && addrFits c && m.wf
  | .sealStep ⟨_, d, _⟩ c n => addrFits d && addrFits c && stepOk n
  | .sealAck ⟨_, d, _⟩ ⟨c, n⟩ => addrFits d && addrFits c && stepOk n
  | .abort ⟨_, d, _⟩ c ⟨n, r⟩ => addrFits d && addrFits c && stepOk n && decide (r < 65536)
  | .decisionAck ⟨_, d, _⟩ c n => addrFits d && addrFits c && stepOk n
  | .decisionQuery ⟨_, d, _⟩ c n => addrFits d && addrFits c && (match n with | some n => stepOk n | none => true)
  | .decisionAnswer ⟨_, d, _⟩ c n ⟨_, e, now⟩ => addrFits d && addrFits c && stepOk n && stepOk e && stepOk now
  | .zoneStretch _ m c => decide (m < 24) && decide (c < 64)
  | .supplyHigh u => decide (u < 131072)
  | .supplyThrottle u => decide (u < 131072)
  | .supplyNormal u => decide (u < 131072)
  | .supplyStop u => decide (u < 131072)
  | .supplyRideThrough u => decide (u < 131072)
  | .holdupCharged u => decide (u < 131072)
  | .powerOn u => decide (u < 131072)
  | .gateEval ramp _ _ => decide (ramp.length = 16)
  | .telemetrySample u _ _ zones => decide (u < 131072) && decide (zones.length = 16)
  | .hostLinkChange w r h => decide (w ≤ 16) && decide (r < 8) && decide (h < 3)
  | .hostIdeError _ hit => hit.all idxOk
  | .bufWrite buf _ data => decide (buf < 2) && decide (data.length ≤ 240)
  | .tunLoad _ len => decide (len < 2 ^ 32)
  | .tunReport i => decide (i < 65536)
  | .secGo len => decide (len < 65536)
  | .bufRead off len => decide (off < 2 ^ 32) && decide (len ≤ 240)
  | _ => true

end Sys2Proof
end

