-- ==== Sys2Proof/Certificates/Slice0/Obligations.lean ====
section
/-! DEFINITION. The statements for the provers, in the order of OBLIGATIONS.json. Those of several commands say for each form where it
completes, what it then leaves, and where it holds, faults or changes nothing. -/

open Sys2Proof Sys2Proof.Machine

/-- ADD, SUB, AND, OR, XOR, SHL and SHR write their result to the destination, modulo 2^64; GR0 discards it; MOVI writes its constant. What a
shift by 64 or more gives is open (log 23); the shift still completes and writes it. -/
def Obligations.AluResult : Prop :=
  ∀ (s : State) (c : Fin 256) (d a : Fin 32) (b : AluSrc) (v : W64),
    let x := gr (getCore s c) a
    let y := aluVal (getCore s c) b
    (Ready s c .c (.add d a b) → Completes (.add c d a b) s (fun t => WroteGr s t c d (x + y))) ∧
    (Ready s c .c (.sub d a b) → Completes (.sub c d a b) s (fun t => WroteGr s t c d (x - y))) ∧
    (Ready s c .c (.and d a b) → Completes (.and c d a b) s (fun t => WroteGr s t c d (x &&& y))) ∧
    (Ready s c .c (.or d a b) → Completes (.or c d a b) s (fun t => WroteGr s t c d (x ||| y))) ∧
    (Ready s c .c (.xor d a b) → Completes (.xor c d a b) s (fun t => WroteGr s t c d (x ^^^ y))) ∧
    (Ready s c .c (.shl d a b) → Completes (.shl c d a b) s (fun t => ∃ r, WroteGr s t c d r ∧
      (y.toNat < 64 → r.toNat = x.toNat * 2 ^ y.toNat % 2 ^ 64))) ∧
    (Ready s c .c (.shr d a b) → Completes (.shr c d a b) s (fun t => ∃ r, WroteGr s t c d r ∧
      (y.toNat < 64 → r.toNat = x.toNat / 2 ^ y.toNat))) ∧
    (Ready s c .c (.movi d v) → Completes (.movi c d v) s (fun t => WroteGr s t c d v))

/-- STRD copies a status slot, NOP changes no register, and TIMERD writes the value of TIME, which record mode records first; under replay
TIMERD takes the value that the core's next entry holds, and waits while there is none. BR goes to its target, BRC when its register is
not zero, and a closing LOOP while its counter is not zero after it counted down; a branch not taken leaves the program counter alone, and
the core issues again. An opening LOOP sets its counter. The senses of BRC and LOOP are the model's choice, log 23. -/
def Obligations.SlotReadsAndBranches : Prop :=
  (∀ (s : State) (c : Fin 256) (d : Fin 32) (st : Fin 16),
     let p := (partOfCore s c).getD 16
     let u := timerdRec s c
     (Ready s c .c (.strd d st) → Completes (.strd c d st) s (fun t => WroteGr s t c d (stSlot (getCore s c) st))) ∧
     (Ready s c .c .nop → Completes (.nop c) s (fun t => Retired s t c .c)) ∧
     (Ready s c .c (.timerd d) → replaying s p = false →
       Completes (.timerd c d) s (fun t => WroteGr u t c d (BitVec.ofNat 64 s.clk.time) ∧ u.cores = s.cores ∧
         (recording s p = false → u = s))) ∧
     (Ready s c .c (.timerd d) → replaying s p = true →
       (s.dbg.waitData.find? (fun e => e.1 = timerdKey c) = none → exec (.timerd c d) s = .next (hold s c 1)) ∧
       (∀ e, s.dbg.waitData.find? (fun e => e.1 = timerdKey c) = some e → Completes (.timerd c d) s (fun t =>
         WroteGr { s with dbg := t.dbg } t c d (BitVec.ofNat 64 (leNat e.2)) ∧ t.dbg.waitData = s.dbg.waitData.erase e)))) ∧
  (∀ (s : State) (c : Fin 256) (r : Fin 32) (lc : Fin 4) (n target : Nat),
     let k := getCore s c
     let left := lcOf k lc - 1
     (Ready s c .c (.br target) → Completes (.br c target) s (fun t => Branched s t c (target % 4096))) ∧
     (Ready s c .c (.brc r target) → Completes (.brc c r target) s (fun t =>
       Branched s t c (if gr k r = 0 then k.pc else target % 4096))) ∧
     (Ready s c .c (.loop lc (some n) target) → Completes (.loop c lc (some n) target) s (fun t => ∃ s1, Branched s1 t c k.pc ∧
       OnlyCore s s1 c ∧ lcOf (getCore s1 c) lc = n % 2 ^ 32 ∧ getCore s1 c = { k with lc := (getCore s1 c).lc } ∧
       ∀ i, i ≠ lc.val → lcOf (getCore s1 c) i = lcOf k i)) ∧
     (Ready s c .c (.loop lc none target) → Completes (.loop c lc none target) s (fun t => ∃ s1,
       Branched s1 t c (if left = 0 then k.pc else target % 4096) ∧
       OnlyCore s s1 c ∧ lcOf (getCore s1 c) lc = left ∧ getCore s1 c = { k with lc := (getCore s1 c).lc } ∧
       ∀ i, i ≠ lc.val → lcOf (getCore s1 c) i = lcOf k i)))

/-- BUNDLE_ISSUE (R165, R166, R168, R170, R174): the command says the slots of the bundle at the program counter; while the slot's code has
not ended, every valid slot of a legal bundle joins its unit's queue and the next bundle follows; a false wait condition, a full unit
queue, a branch that is not resolved and a full range table hold the bundle whole; a wait on more than 64 requests is QUEUE_MISUSE before
a reserved bit, an illegal slot or a clash of writes is CORE_ILLEGAL. A core that does not run, one whose code has ended, and slots that
are not the word's change nothing. WAIT holds until the queue has k arrived requests, WAITP until the put queue has at most k that are not
complete; both consume nothing. QCFG sets a fetch queue's ring and mode while the queue is empty; on a put queue it changes nothing (R172,
R174). -/
def Obligations.BundlesIssueWholeAndWait : Prop :=
  (∀ (s : State) (c : Fin 256) (slots : List Slot),
     let k := getCore s c
     let w := bundleWord k
     let at_ := coreRuns s c = true ∧ k.ended = false ∧ k.ending = false ∧ slotsMatch w slots = true
     let tooMany := slots.any waitOver = true
     let illegal := nbit w 255 = true ∨ (∃ u : UnitId, slotValid w u = false ∧ slotBits w u ≠ 0) ∨ slots.any slotBad = true ∨
       writesClash (slots.flatMap slotWrites) = true
     let waits := slots.any (waitFalse k) = true
     let full := unitFull k slots = true
     let busy := k.branching = true ∨ slots.any (branchPending k) = true ∨ rangesFull k slots = true
     (¬ at_ → exec (.bundleIssue c slots) s = .next s) ∧
     (at_ → tooMany → exec (.bundleIssue c slots) s = .next (coreFaultB s c .c k.pc 0xA04 none)) ∧
     (at_ → ¬ tooMany → illegal → exec (.bundleIssue c slots) s = .next (coreFaultB s c (bundleUnit slots) k.pc 0xA01 none)) ∧
     (at_ → ¬ tooMany → ¬ illegal → waits → exec (.bundleIssue c slots) s = .next (hold s c 0)) ∧
     (at_ → ¬ tooMany → ¬ illegal → ¬ waits → full → exec (.bundleIssue c slots) s = .next (hold s c 2)) ∧
     (at_ → ¬ tooMany → ¬ illegal → ¬ waits → ¬ full → busy → exec (.bundleIssue c slots) s = .next (hold s c 1)) ∧
     (at_ → ¬ tooMany → ¬ illegal → ¬ waits → ¬ full → ¬ busy → Completes (.bundleIssue c slots) s (fun t =>
       let j := getCore t c
       j.run = .run ∧ j.pc = (k.pc + 1) % 4096 ∧ j.seq = k.seq + 1 ∧ j.ending = nbit w 254 ∧
       j.branching = slots.any (fun x => x.op.any isBranch) ∧
       (∀ u : UnitId, uqOf j (slotNo u) = uqOf k (slotNo u) ++
         (slots.filter (fun x => x.unit = u)).filterMap (fun x => x.op.map (fun op => ⟨k.seq + 1, k.pc, op⟩))) ∧
       j = { k with run := j.run, pc := j.pc, seq := j.seq, ending := j.ending, branching := j.branching, uq := j.uq } ∧ OnlyCore s t c))) ∧
  (∀ (s : State) (c : Fin 256) (q : Fin 16) (n base size mode : Nat),
     let k := getCore s c
     let put := Ready s c .c (.qcfg true q base size mode)
     let fetch := Ready s c .c (.qcfg false q base size mode)
     let bad := base % 4096 ≠ 0 ∨ size % 4096 ≠ 0 ∨
       mode ≠ 0 ∧ sameUnit s ((partOfCore s c).getD 16) ((vcoreOf s c).getD 256) (mode - 1) = false
     (Ready s c .c (.wait q n) → 64 < n → exec (.wait c q n) s = .next (coreFault s c .c 0xA04)) ∧
     (Ready s c .c (.wait q n) → n ≤ 64 → fqReady k q < n → exec (.wait c q n) s = .next (hold s c 0)) ∧
     (Ready s c .c (.wait q n) → n ≤ 64 → n ≤ fqReady k q → Completes (.wait c q n) s (fun t => Retired s t c .c)) ∧
     (Ready s c .c (.waitp q n) → n < pqBusy k q → exec (.waitp c q n) s = .next (hold s c 0)) ∧
     (Ready s c .c (.waitp q n) → pqBusy k q ≤ n → Completes (.waitp c q n) s (fun t => Retired s t c .c)) ∧
     (put → (pqOf k q).reqs ≠ [] → exec (.qcfg c true q base size mode) s = .next (coreFault s c .c 0xA04)) ∧
     (put → (pqOf k q).reqs = [] → Completes (.qcfg c true q base size mode) s (fun t => Retired s t c .c)) ∧
     (fetch → (fqOf k q).reqs ≠ [] → exec (.qcfg c false q base size mode) s = .next (coreFault s c .c 0xA04)) ∧
     (fetch → (fqOf k q).reqs = [] → inFence k base size = false → exec (.qcfg c false q base size mode) s = .next (coreFault s c .c 0xA02)) ∧
     (fetch → (fqOf k q).reqs = [] → inFence k base size = true → bad → exec (.qcfg c false q base size mode) s = .next (coreFault s c .c 0xA01)) ∧
     (fetch → (fqOf k q).reqs = [] → inFence k base size = true → ¬ bad → Completes (.qcfg c false q base size mode) s (fun t =>
       fqOf (getCore t c) q = { base := base, size := size, remote := if mode = 0 then none else some (mode - 1) } ∧
       (∀ i, i ≠ q.val → fqOf (getCore t c) i = fqOf k i) ∧
       getCore t c = { retired k .c with fq := (getCore t c).fq } ∧ OnlyCore s t c)))

/-- FETCH (R172, R174, R177, R236): a legal fetch takes ring space at once and asks the mesh for every piece of its source, or waits for the
stream's bytes; a full queue or table, or a stream without a context, holds it; a REMOTE or too small queue is QUEUE_MISUSE before a bad
length is CORE_ILLEGAL, and a source that the fence or the stream refuses faults. Length 0 is illegal by the model's choice, log 78. -/
def Obligations.FetchRequests : Prop :=
  ∀ (s : State) (c : Fin 256) (q : Fin 16) (src : XEnd) (len : Opnd), Ready s c .x (.fetch q src len) →
    let k := getCore s c
    let f := fqOf k q
    let p := (partOfCore s c).getD 16
    let n := opnd k len
    let small := f.remote.isSome = true ∨ f.size < round32 n
    (small → exec (.fetch c q src len) s = .next (coreFault s c .x 0xA04)) ∧
    (¬ small → fetchLen n = false → exec (.fetch c q src len) s = .next (coreFault s c .x 0xA01)) ∧
    (¬ small → fetchLen n = true →
      (∀ r, (∃ a, src = .mem a ∧ memEnd s p (opnd k a) n false = r) ∨ (∃ w o, src = .stash w o ∧ stashForm s p w (opnd k o) n false = r) →
        (∀ code, r = .fault code → exec (.fetch c q src len) s = .next (coreFault s c .x code)) ∧
        (∀ l, r = .sas l →
          (fqRoom f n = false → exec (.fetch c q src len) s = .next (hold s c 3)) ∧
          (fqRoom f n = true → Completes (.fetch c q src len) s (fun t =>
            FetchMade s t c q n none ∧ Requests s t c 0 l ∧ t = { s with cores := t.cores, mesh := t.mesh, out := t.out })))) ∧
      (∀ v rq, src = .remote v rq → exec (.fetch c q src len) s = .next (coreFault s c .x 0xA01)) ∧
      (∀ idx, src = .stream idx →
        (coreStream s p idx false = false → exec (.fetch c q src len) s = .next (coreFault s c .x 0xA04)) ∧
        (coreStream s p idx false = true →
          (fqRoom f n = false → exec (.fetch c q src len) s = .next (hold s c 3)) ∧
          (fqRoom f n = true → ctxUse s idx = none → exec (.fetch c q src len) s = .next (hold (ctxWant s) c 3)) ∧
          (fqRoom f n = true → ∀ u, ctxUse s idx = some u → Completes (.fetch c q src len) s (fun t =>
            FetchMade u t c q n (some idx) ∧ (getCore t c).mwait = (getCore u c).mwait ∧ t = { u with cores := t.cores })))))

/-- PUT (R172, R174, R177, R182, R195, R236): a destination that the fence, the segments, the unit or the stream refuses faults before
anything waits; else the source bytes are read at once, their range is held until the put is complete, and the request stands in the put
queue until its destination has taken it: WRITE requests to the stack are made, a stream's bytes wait for its descriptor. Bytes that are
not there, and a full queue, hold it. POP releases the k oldest arrived requests of a queue, holds while fewer have arrived, and faults on
requests that hardware began to take; ring space given back lets waiting puts of the producer go (R172). Length 0 is illegal by the
model's choice, log 78. -/
def Obligations.PutsAndPops : Prop :=
  (∀ (s : State) (c : Fin 256) (q : Fin 16) (o : Opnd) (dst : XEnd) (len : Opnd), Ready s c .x (.put q o dst len) →
     let k := getCore s c
     let p := (partOfCore s c).getD 16
     let n := opnd k len
     let bs := csRead k (opnd k o) n
     let id := (pqOf k q).nextId
     let chk := chkAccs k .x [rd (opnd k o) n]
     let go := putFault s c p n dst = none ∧ n ≠ 0 ∧ chk = .ok ∧ (pqOf k q).reqs.length < 64
     (∀ code, putFault s c p n dst = some code → exec (.put c q o dst len) s = .next (coreFault s c .x code)) ∧
     (putFault s c p n dst = none → n = 0 → exec (.put c q o dst len) s = .next (coreFault s c .x 0xA01)) ∧
     (∀ code, putFault s c p n dst = none → n ≠ 0 → chk = .fault code → exec (.put c q o dst len) s = .next (coreFault s c .x code)) ∧
     (putFault s c p n dst = none → n ≠ 0 → chk = .stall → exec (.put c q o dst len) s = .next (hold s c 1)) ∧
     (putFault s c p n dst = none → n ≠ 0 → chk = .ok → 64 ≤ (pqOf k q).reqs.length → exec (.put c q o dst len) s = .next (hold s c 3)) ∧
     (go → Completes (.put c q o dst len) s (fun t =>
       (∃ r ∈ (pqOf (getCore t c) q).reqs, r.id = id ∧ r.len = n) ∧ (pqOf (getCore t c) q).nextId = id + 1 ∧
       t = { s with cores := t.cores, mesh := t.mesh, out := t.out } ∧
       (∀ l, (∃ a, dst = .mem a ∧ memEnd s p (opnd k a) n true = .sas l) ∨ (∃ w a, dst = .stash w a ∧ stashForm s p w (opnd k a) n true = .sas l) →
         PutMade s t c q ⟨id, n, .mesh, false, []⟩ (rd (opnd k o) n) ∧ Requests s t c 1 l) ∧
       (∀ idx, dst = .stream idx → PutMade s t c q ⟨id, n, .stream idx, false, bs⟩ (rd (opnd k o) n) ∧ t.mesh = s.mesh ∧ t.out = s.out)))) ∧
  (∀ (s : State) (c : Fin 256) (q : Fin 16) (n : Nat), Ready s c .x (.pop q n) →
     let f := fqOf (getCore s c) q
     ((f.reqs.take n).any (fun r => r.taken != 0) = true → exec (.pop c q n) s = .next (coreFault s c .x 0xA04)) ∧
     ((f.reqs.take n).any (fun r => r.taken != 0) = false →
       (fqReady (getCore s c) q < n → exec (.pop c q n) s = .next (hold s c 1)) ∧
       (n ≤ fqReady (getCore s c) q → Completes (.pop c q n) s (fun t =>
         (∃ more, (fqOf (getCore t c) q).reqs = f.reqs.drop n ++ more ∧ ∀ r ∈ more, r.arrived = false) ∧
         (f.remote = none → fqOf (getCore t c) q = { f with reqs := f.reqs.drop n } ∧
           getCore t c = { retired (getCore s c) .x with fq := (getCore t c).fq } ∧ OnlyCore s t c) ∧
         t = { s with cores := t.cores, mesh := t.mesh, out := t.out }))))

/-- LMOVE copies up to 64 bytes between the core store, general registers and vector registers: afterwards the destination reads as the source
did, but for the bytes of GR0, which discards them; nothing else of the core changes (R164, R169, R173, R225). ATOM makes one request with
its operand bytes at the address; the old values come back into the named fetch queue, which must be LOCAL and large enough, or nowhere.
An address that the fence refuses, or a form that R205 does not allow, faults; an operand that is not there yet, and a full queue, hold
it. The registers of a move are the model's reading, log 27. -/
def Obligations.LightMovesAndAtoms : Prop :=
  (∀ (s : State) (c : Fin 256) (dst src : LPlace) (len : Nat), Ready s c .x (.lmove dst src len) →
     let k := getCore s c
     let bad := len = 0 ∨ 64 < len ∨ lBad dst len = true ∨ lBad src len = true
     let chk := chkAccs k .x (lAcc k src len false ++ lAcc k dst len true)
     (bad → exec (.lmove c dst src len) s = .next (coreFault s c .x 0xA01)) ∧
     (¬ bad → (∀ code, chk = .fault code → exec (.lmove c dst src len) s = .next (coreFault s c .x code)) ∧
       (chk = .stall → exec (.lmove c dst src len) s = .next (hold s c 1)) ∧
       (chk = .ok → Completes (.lmove c dst src len) s (fun t =>
         (∀ i, i < len → (dst = .gr 0 → 8 ≤ i) → (lRead (getCore t c) dst len)[i]? = (lRead k src len)[i]?) ∧
         (∀ n, RegRef.gr n ∉ lRegs dst len → gr (getCore t c) n = gr k n) ∧
         (∀ n, RegRef.vr n ∉ lRegs dst len → vreg (getCore t c) n = vreg k n) ∧
         (∀ a, (∀ o, dst = .store o → a < (csAlloc k).1 + opnd k o ∨ (csAlloc k).1 + opnd k o + len ≤ a) →
           memGet (getCore t c).store a = memGet k.store a) ∧
         getCore t c = { retired k .x with gr := (getCore t c).gr, vr := (getCore t c).vr, store := (getCore t c).store } ∧
         OnlyCore s t c)))) ∧
  (∀ (s : State) (c : Fin 256) (op : AtomOp) (ty : AtomTy) (addr off : Opnd) (len : Nat) (fq : Option (Fin 16)),
     Ready s c .x (.atom op ty addr off len fq) →
     let k := getCore s c
     let p := (partOfCore s c).getD 16
     let a := opnd k addr
     let n := atomOperand op len
     let sa := (relToSa s p a).getD 0
     let chk := chkAccs k .x [rd (opnd k off) n]
     (∀ code, memEnd s p a len true = .fault code → exec (.atom c op ty addr off len fq) s = .next (coreFault s c .x code)) ∧
     (∀ l, memEnd s p a len true = .sas l →
       (atomOk s p op ty a len fq = false → exec (.atom c op ty addr off len fq) s = .next (coreFault s c .x 0x808)) ∧
       (atomOk s p op ty a len fq = true →
         (∀ code, chk = .fault code → exec (.atom c op ty addr off len fq) s = .next (coreFault s c .x code)) ∧
         (chk = .stall → exec (.atom c op ty addr off len fq) s = .next (hold s c 1)) ∧
         (chk = .ok →
           (fq = none → Completes (.atom c op ty addr off len fq) s (fun t =>
             getCore t c = { retired k .x with mwait := (getCore t c).mwait } ∧ (∀ i, i ≠ c.val → getCore t i = getCore s i) ∧
             Requests s t c 2 [(sa, n)] ∧ t = { s with cores := t.cores, mesh := t.mesh, out := t.out })) ∧
           (∀ q, fq = some q →
             let f := fqOf k q
             (f.remote.isSome = true ∨ f.size < round32 len → exec (.atom c op ty addr off len fq) s = .next (coreFault s c .x 0xA04)) ∧
             (f.remote = none → round32 len ≤ f.size →
               (fqRoom f len = false → exec (.atom c op ty addr off len fq) s = .next (hold s c 3)) ∧
               (fqRoom f len = true → Completes (.atom c op ty addr off len fq) s (fun t =>
                 FetchMade s t c q len none ∧ Requests s t c 2 [(sa, n)] ∧
                 t = { s with cores := t.cores, mesh := t.mesh, out := t.out }))))))))

/-- FETCH_ARRIVED (R172, R178, R196, R236): the oldest request of a fetch queue that has not arrived arrives once all its bytes are there;
poisoned data faults the core; data of a stream lands from its descriptors, and on a journaled stream the request arrives only with the
journal write. Nothing arrives at a faulted core. PUT_COMPLETE (R172, R173, R195, R236): a request leaves its put queue, and its source's
range is free, once no packet of it is on its way; a put to a stream leaves when the descriptor at PRODUCER has taken its bytes, and
PRODUCER advances. -/
def Obligations.FetchesArriveAndPutsComplete : Prop :=
  (∀ (s : State) (c : Fin 256) (q : Fin 16), onDie s = true → isFused s c = false →
     let f := fqOf (getCore s c) q
     (coreFaulted s c = true → exec (.fetchArrived c q) s = .next s) ∧
     (coreFaulted s c = false → ∀ r, f.reqs.find? (fun x => !x.arrived) = some r →
       let arrived := { f with reqs := f.reqs.map (fun x => if x.id = r.id then { x with arrived := true } else x) }
       (r.stream = none →
         (r.got ≠ r.len → exec (.fetchArrived c q) s = .next s) ∧
         (r.got = r.len → ∀ code, r.poison = some code → exec (.fetchArrived c q) s = .next (coreFault s c .x code)) ∧
         (r.got = r.len → r.poison = none → Completes (.fetchArrived c q) s (fun t =>
           fqOf (getCore t c) q = arrived ∧ (∀ i, i ≠ q.val → fqOf (getCore t c) i = fqOf (getCore s c) i) ∧
           getCore t c = { getCore s c with fq := (getCore t c).fq } ∧ OnlyCore s t c))) ∧
       (∀ idx x, r.stream = some idx → getCtx s idx = some x →
         let bad := (streamTake s idx r.len).2.1
         ((getRt s idx).jrn.writing = true ∨ (c.val, q.val, r.id) ∈ (getRt s idx).cons ∨ streamAvail s idx < r.len →
           exec (.fetchArrived c q) s = .next s) ∧
         ((getRt s idx).jrn.writing = false → (c.val, q.val, r.id) ∉ (getRt s idx).cons → r.len ≤ streamAvail s idx →
           (bad = true → Completes (.fetchArrived c q) s (fun t => (getCore t c).run = .fault ∧ (getCore t c).uq = [])) ∧
           (bad = false → Completes (.fetchArrived c q) s (fun t =>
             fqOf (getCore t c) q = (if eJournal x.ent then f else arrived) ∧
             getCore t c = { getCore s c with fq := (getCore t c).fq, store := (getCore t c).store } ∧
             ∀ i, i ≠ c.val → getCore t i = getCore s i)))))) ∧
  (∀ (s : State) (c : Fin 256) (q : Fin 16) (i : Nat) (r : PReq) (hostData : List Byte), onDie s = true → isFused s c = false →
     (pqOf (getCore s c) q).reqs[i]? = some r →
     let k := getCore s c
     let left := fun (t : State) =>
       pqOf (getCore t c) q = { pqOf k q with reqs := (pqOf k q).reqs.filter (fun x => x.id != r.id) } ∧
       (∀ j, j ≠ q.val → pqOf (getCore t c) j = pqOf k j) ∧ getCore t c = { dropRanges k (putKind q r.id) with pq := (getCore t c).pq } ∧
       ∀ j, j ≠ c.val → getCore t j = getCore s j
     ((∀ idx, r.dst ≠ .stream idx) →
       (r.dst ≠ .unnamed → r.waiting = true ∨ putBusy s c q r.id = true → exec (.putComplete c q i hostData) s = .next s) ∧
       (r.dst = .unnamed ∨ r.waiting = false ∧ putBusy s c q r.id = false →
         Completes (.putComplete c q i hostData) s (fun t => left t ∧ OnlyCore s t c))) ∧
     (∀ idx, r.dst = .stream idx →
       let e := entryOf s idx
       let full := 2 ^ e.log2 ≤ sub32 e.producer e.completed
       let held := full ∨ eClosed e = true ∨ eEnabled e = false ∨ recBusy s = true ∨ firstPut s c q idx ≠ some r
       (held → exec (.putComplete c q i hostData) s = .next s) ∧
       (¬ held → ctxUse s idx = none → exec (.putComplete c q i hostData) s = .next (ctxWant s)) ∧
       (¬ held → ∀ u, ctxUse s idx = some u →
         let d := ringDesc u (strPart s idx) e e.producer hostData
         (d.len < r.len → exec (.putComplete c q i hostData) s = .next (coreFault u c .x 0xA04)) ∧
         (r.len ≤ d.len → Completes (.putComplete c q i hostData) s (fun t =>
           left t ∧ (entryOf t idx).producer = m32 ((entryOf u idx).producer + 1))))))

/-- A command of a slot (R166, R173, R178, R189): a core that does not run carries it out not at all, nor does a unit whose queue has another
instruction at its head; a register that the instruction needs and that is pending holds the unit. -/
def Obligations.PendingRegistersHold : Prop :=
  ∀ (s : State) (i : Instr) (c : Nat) (u : UnitId) (op : SlotOp), slotUse i = some (c, u, op) →
    (coreRuns s c = false → exec i s = .next s) ∧
    (atHead (getCore s c) u op = false → exec i s = .next s) ∧
    (coreRuns s c = true → atHead (getCore s c) u op = true → regHaz (getCore s c) u op = true → exec i s = .next (hold s c 1))

/-- Lane-wise vector arithmetic (R151, R152, R157, R171): every lane of the destination is the exact result rounded once to the destination's
format, the operands each in their own; the flags gather in the status word, and a trapped flag faults after the result is written. The
forms of VCMP and VSEL are the model's choice, log 21. -/
def Obligations.VectorLanes : Prop :=
  ∀ (s : State) (c : Fin 256) (f : VFmts) (d a b e : Fin 16),
    let x := fun j => lane f.a (vreg (getCore s c) a) j
    let y := fun j => lane f.b (vreg (getCore s c) b) j
    let z := fun j => lane f.e (vreg (getCore s c) e) j
    let two := fun (g : Nat → Machine.Num) => (List.range (vWide [f.d, f.a, f.b])).map (fun j => roundLane f.d (g j))
    let three := fun (g : Nat → Machine.Num) => (List.range (vWide [f.d, f.a, f.b, f.e])).map (fun j => roundLane f.d (g j))
    let done := fun rs t => VecResult s t c d f.d rs
    (Ready s c .v (.vadd f d a b) →
      let rs := two (fun j => addNum (x j) (y j))
      EndsV (.vadd c f d a b) s c rs (done rs)) ∧
    (Ready s c .v (.vmul f d a b) →
      let rs := two (fun j => mulNum (x j) (y j))
      EndsV (.vmul c f d a b) s c rs (done rs)) ∧
    (Ready s c .v (.vmin f d a b) →
      let rs := two (fun j => numMin (x j) (y j))
      EndsV (.vmin c f d a b) s c rs (done rs)) ∧
    (Ready s c .v (.vmax f d a b) →
      let rs := two (fun j => numMax (x j) (y j))
      EndsV (.vmax c f d a b) s c rs (done rs)) ∧
    (∀ op, Ready s c .v (.vcmp f op d a b) →
      let rs := two (fun j => boolNum (numCmp op (x j) (y j)))
      EndsV (.vcmp c f op d a b) s c rs (done rs)) ∧
    (Ready s c .v (.vfma f d a b e) →
      let rs := three (fun j => addNum (mulNum (x j) (y j)) (z j))
      EndsV (.vfma c f d a b e) s c rs (done rs)) ∧
    (Ready s c .v (.vsel f d a b e) →
      let rs := three (fun j => if (z j).isZero then y j else x j)
      EndsV (.vsel c f d a b e) s c rs (done rs))

/-- VSFN and VRED (R153, R155, R156): each FP32 lane through the function's table, or two lanes divided; a reduction leaves its tree's FP32
value in element 0 and the other elements as they were; registers beyond VR15 are no operand. Which value within the stated error VSFN
delivers is free, log 20; which elements VRED leaves is the model's choice, log 21. -/
def Obligations.VectorFunctions : Prop :=
  ∀ (s : State) (c : Fin 256) (d a b : Fin 16),
    let k := getCore s c
    (∀ fn : SFn, Ready s c .v (.vsfn fn d a b) →
      let x := fun j => laneBits .fp32 (vreg k a) j
      let y := fun j => laneBits .fp32 (vreg k b) j
      let rs := (List.range 256).map (fun j =>
        if fn = .div then divLane (unpack lFP32 (x j)) (unpack lFP32 (y j)) (x j) (y j) else sfnLane fn (unpack lFP32 (x j)) (x j))
      EndsV (.vsfn c fn d a b) s c rs (fun t => VecResult s t c d .fp32 rs)) ∧
    (∀ (f : VFmt) (op : RedOp) (n : Nat), Ready s c .v (.vred f op d a n) →
      (n = 0 ∨ 16 < a.val + n → exec (.vred c f op d a n) s = .next (coreFault s c .v 0xA01)) ∧
      (0 < n → a.val + n ≤ 16 →
        let rs := [(redRegs f op k a n).2]
        EndsV (.vred c f op d a n) s c rs (fun t => VecResult s t c d .fp32 rs)))

/-- VLD, VST and VSTAT (R98, R122, R123, R126 to R128, R133, R151, R157): a load fills every lane from consecutive elements and their block
scales, or with the values of slope codes; a store writes the converted lanes and their scales, or the slope codes of GELU and SiLU; a
move that keeps its format carries the bits; VSTAT delivers the status word and clears it. Bytes that the fence refuses fault, bytes with
an earlier access pending hold the unit. -/
def Obligations.VectorMemory : Prop :=
  ∀ (s : State) (c : Fin 256) (d : Fin 16) (addr sc : Opnd) (f : VFmt),
    let k := getCore s c
    let n := vLanes f
    (∀ mode, Ready s c .v (.vld d addr sc mode f) →
      let bad := ∃ fmt, mode = .plain fmt ∧ vldLegal fmt f = false
      let chk := chkAccs k .v (vldAccs k addr sc mode n)
      let rs := match mode with
        | .plain fmt => (List.range n).map (fun j => loadLane fmt f (planeElem fmt (csRead k (opnd k addr) (planeBytes fmt n)) j)
            ((csRead k (opnd k sc) (if fIsBlock fmt then n / 32 else 0)).getD (j / 32) 0).toNat)
        | .slope => (List.range n).map (fun j => roundLane f (slopeNum (planeElem .bs4 (csRead k (opnd k addr) (n / 2)) j)))
      (bad → exec (.vld c d addr sc mode f) s = .next (coreFault s c .v 0xA01)) ∧
      (¬ bad →
        (∀ code, chk = .fault code → exec (.vld c d addr sc mode f) s = .next (coreFault s c .v code)) ∧
        (chk = .stall → exec (.vld c d addr sc mode f) s = .next (hold s c 1)) ∧
        (chk = .ok → EndsV (.vld c d addr sc mode f) s c rs (fun t => VecResult s t c d f rs)))) ∧
    (∀ fmt grad, Ready s c .v (.vst d addr sc fmt f .plain) →
      let chk := chkAccs k .v (vstAccs k addr sc fmt .plain n)
      let r := if fmt = vFmtOf f then (packPlane fmt ((List.range n).map (laneBits f (vreg k d))), [], [])
        else packRow fmt ((List.range n).map (lane f (vreg k d)))
      (∀ code, chk = .fault code → exec (.vst c d addr sc fmt f .plain grad) s = .next (coreFault s c .v code)) ∧
      (chk = .stall → exec (.vst c d addr sc fmt f .plain grad) s = .next (hold s c 1)) ∧
      (chk = .ok → EndsV (.vst c d addr sc fmt f .plain grad) s c (storeRes r.2.2) (fun t =>
        getCore t c = { retired (csWrite (csWrite k (opnd k addr) r.1) (opnd k sc) r.2.1) .v with vstat := vstatAfter k.vstat (storeRes r.2.2) } ∧
        (∀ j, j ≠ c.val → getCore t j = getCore s j) ∧ (grad = none → OnlyCore s t c)))) ∧
    (∀ fmt mode grad, mode ≠ .plain → Ready s c .v (.vst d addr sc fmt f mode) →
      let chk := chkAccs k .v (vstAccs k addr sc fmt mode n)
      let cs := (List.range n).map (fun j => slopeCode (decide (mode = .slopeSilu)) (lane f (vreg k d) j))
      (f ≠ .fp32 → exec (.vst c d addr sc fmt f mode grad) s = .next (coreFault s c .v 0xA01)) ∧
      (f = .fp32 →
        (∀ code, chk = .fault code → exec (.vst c d addr sc fmt f mode grad) s = .next (coreFault s c .v code)) ∧
        (chk = .stall → exec (.vst c d addr sc fmt f mode grad) s = .next (hold s c 1)) ∧
        (chk = .ok → Completes (.vst c d addr sc fmt f mode grad) s (fun t =>
          getCore t c = retired (csWrite k (opnd k addr) (packPlane .bs4 cs)) .v ∧ OnlyCore s t c)))) ∧
    (∀ st : Fin 16, Ready s c .v (.vstat st) → Completes (.vstat c st) s (fun t =>
      stSlot (getCore t c) st = k.vstat ∧ (getCore t c).vstat = 0 ∧ (∀ j, j ≠ st.val → stSlot (getCore t c) j = stSlot k j) ∧
      getCore t c = { retired k .v with st := (getCore t c).st, vstat := 0 } ∧ OnlyCore s t c))

/-- MV (R158, R173): it reads its descriptor in core store; a legal one starts the matrix-vector unit with the vectors, and a matrix in core
store, as they stand; its status slot and its output ranges are pending until it ends. A descriptor outside the table is refused whole; a
busy unit waits. MATVEC_DONE (R160, R161, R163, R172, R173, R178): the unit takes the matrix bytes that stand in its queue, and waits
while some are missing; with the last one the sums stand in the accumulators, and without CONTINUE the converted rows enter core store,
the status slot is delivered and the accumulators are empty; trapped flags then fault; a faulted core discards the operation. -/
def Obligations.MatVecRuns : Prop :=
  (∀ (s : State) (c : Fin 256) (desc : Opnd) (st : Fin 16) (grad : Option Nat), Ready s c .m (.mv desc st) →
     let k := getCore s c
     let chk0 := chkAccs k .m [rd (opnd k desc) mvBytes]
     let d := mvParse (csRead k (opnd k desc) mvBytes)
     let chk := chkAccs k .m (mvAccs d)
     (∀ code, chk0 = .fault code → exec (.mv c desc st grad) s = .next (coreFault s c .m code)) ∧
     (chk0 = .stall → exec (.mv c desc st grad) s = .next (hold s c 1)) ∧
     (chk0 = .ok → mvLegal d = false → exec (.mv c desc st grad) s = .next (coreFault s c .m 0xA30)) ∧
     (chk0 = .ok → mvLegal d = true →
       (k.mv ≠ none → exec (.mv c desc st grad) s = .next (hold s c 1)) ∧
       (k.mv = none →
         (∀ code, chk = .fault code → exec (.mv c desc st grad) s = .next (coreFault s c .m code)) ∧
         (chk = .stall → exec (.mv c desc st grad) s = .next (hold s c 1)) ∧
         (chk = .ok → Completes (.mv c desc st grad) s (fun t =>
           (getCore t c).mv = some {
             desc := d, st := st, grad := grad, bundle := headBundle k .m
             vecs := (List.range d.vectors).map (fun v => csRead k (d.vecAddr + v * d.vecStride) (mvVecBytes d))
             mat := match d.src with | .store off => mvStoreMat k d off | .queue _ => [] } ∧
           (getCore t c).apend = (if d.cont then k.apend else k.apend ++ [.st st]) ∧
           (getCore t c).ranges = k.ranges ++ (mvOutAccs d).map (fun r => ⟨r.off, r.len, true, mvKind⟩) ∧
           getCore t c = { retired k .m with mv := (getCore t c).mv, apend := (getCore t c).apend, ranges := (getCore t c).ranges } ∧
           OnlyCore s t c))))) ∧
  (∀ (s : State) (c : Fin 256), onDie s = true →
     let k := getCore s c
     (k.mv = none → exec (.matvecDone c) s = .next s) ∧
     (∀ o, k.mv = some o →
       let off := fun (k : Core) => dropRanges { k with apend := k.apend.erase (.st (Fin.ofNat 16 o.st)) } mvKind
       (k.run = .fault → Completes (.matvecDone c) s (fun t => getCore t c = { off k with mv := none } ∧ OnlyCore s t c)) ∧
       (k.run ≠ .fault →
         let x : MvOp × State := match o.desc.src with
           | .store _ => (o, s)
           | .queue q =>
             let y := fqTake s c q (min (fqAvail (fqOf k q)) (mvMatBytes o.desc - o.mat.length))
             ({ o with mat := o.mat ++ y.1 }, y.2)
         let k1 := mvRun { getCore x.2 c with mv := none } x.1 x.1.mat
         (x.1.mat.length < mvMatBytes o.desc → Completes (.matvecDone c) s (fun t =>
           getCore t c = { getCore x.2 c with mv := some x.1 } ∧ OnlyCore x.2 t c)) ∧
         (mvMatBytes o.desc ≤ x.1.mat.length →
           (o.desc.cont = true → Completes (.matvecDone c) s (fun t => getCore t c = k1 ∧ OnlyCore x.2 t c)) ∧
           (o.desc.cont = false →
             let rows := mvRows k1 o.desc
             let w := statusWord 0 (rows.map (fun r => (r.row, r.flags)))
             let done := fun (t : State) => stSlot (getCore t c) o.st = w ∧ (∀ j, j ≠ o.st → stSlot (getCore t c) j = stSlot k1 j) ∧
               getCore t c = { mvStore (off k1) o.desc rows with st := (getCore t c).st, acc := [], accPeak := [], accCount := 0 } ∧
               (∀ j, j ≠ c.val → getCore t j = getCore x.2 j) ∧ (o.grad = none → OnlyCore x.2 t c)
             (trapCode k1.trap (wordFlags w) = none → Completes (.matvecDone c) s done) ∧
             (∀ code, trapCode k1.trap (wordFlags w) = some code →
               ∃ u, done u ∧ exec (.matvecDone c) s = .next (coreFaultB u c .m o.bundle code none)))))))

/-- LDS, SHADOW_LOAD_DONE, SWAP (R64, R65, R70 to R72, R172): a load starts only when the shadow slot is free and takes its tile from core
store or from a queue, by the mask bytes, those before the group that the last load reported left out if it continues; the loaded shadow
becomes active unless its map differs from an open group's; on a faulted core the load is discarded (R178). The byte layout of a tile is
the model's choice, log 19. -/
def Obligations.TilesLoadAndSwap : Prop :=
  ∀ (s : State) (c : Fin 256) (a : Fin 2),
    let u := unitOfArr a
    let k := getCore s c
    let x := getArr s (arrOf c a)
    (∀ (src : Src) (depth : Nat) (fmt : Fmt) (mask base : Opnd) (n : Nat) (cont : Bool), Ready s c u (.lds src depth fmt mask base n cont) →
      let b := opnd k base
      let ms := (csRead k (opnd k mask) n).map BitVec.toNat
      let masks := if cont then ms.zipIdx.map (fun m => if m.2 < x.nextGroup.getD n then 0 else m.1) else ms
      let gs := validGroups masks
      (ldsLegal depth fmt n = false → exec (.lds c a src depth fmt mask base n cont) s = .next (coreFault s c u 0xA01)) ∧
      (ldsLegal depth fmt n = true → x.sh ≠ .free → exec (.lds c a src depth fmt mask base n cont) s = .next (hold s c 1)) ∧
      (ldsLegal depth fmt n = true → x.sh = .free →
        (∀ off, src = .store off →
          Guards (.lds c a src depth fmt mask base n cont) s c u (rd (opnd k mask) n :: ldsAccs (opnd k off) b n depth fmt masks)
            (Completes (.lds c a src depth fmt mask base n cont) s (fun t => ArrDone s t c a { x with
              shadow := some (ldsStore k (opnd k off) b n depth fmt masks), sh := .loading, nextGroup := gs.2 }))) ∧
        (∀ q, src = .queue q →
          Guards (.lds c a src depth fmt mask base n cont) s c u [rd (opnd k mask) n]
            (Feeds (.lds c a src depth fmt mask base n cont) s c u q
              (gs.1.length * 8 * (rowBytes fmt (depthOf depth) + scaleBytes fmt (depthOf depth)))
              (fun bs v t => ArrDone v t c a { x with shadow := some (ldsQueue bs b depth fmt masks), sh := .loading, nextGroup := gs.2 }))))) ∧
    (onDie s = true →
      (x.sh = .loading → Completes (.shadowLoadDone c a) s (fun t => OnlyArr s t (arrOf c a) ∧
        getArr t (arrOf c a) = if k.run = .fault then { x with sh := .free, shadow := none } else { x with sh := .loaded })) ∧
      (x.sh ≠ .loading → exec (.shadowLoadDone c a) s = .next s)) ∧
    (Ready s c u .swap →
      (x.sh = .free → exec (.swap c a) s = .next (coreFault s c u 0xA01)) ∧
      (x.sh = .loading → exec (.swap c a) s = .next (hold s c 1)) ∧
      (x.sh = .loaded → mapClash x x.shadow = true → exec (.swap c a) s = .next (arrFault s c u (arrOf c a) 0xA22)) ∧
      (x.sh = .loaded → mapClash x x.shadow = false → Completes (.swap c a) s (fun t =>
        ArrDone s t c a { x with active := x.shadow, shadow := none, sh := .free })))

/-- COL, SPL (R61, R67, R103, R113, R172): a column-mode tile enters a group that OPEN finds closed, or that stands open, and counts 96 more
terms; CLOSE marks the group as closing, and a later tile without CLOSE leaves the mark; the split changes only while every group is
closed. -/
def Obligations.ColumnTilesAndSplit : Prop :=
  ∀ (s : State) (c : Fin 256) (a : Fin 2),
    let u := unitOfArr a
    let k := getCore s c
    let x := getArr s (arrOf c a)
    (∀ (g : Fin 8) (src : Src) (slices first : Nat) (fmt : Fmt) (opn cls : Bool), Ready s c u (.col g src slices first fmt opn cls) →
      let cols := slices * colsPerCycle (activeTile x fmt).fmt fmt
      let legal := if opn then grpClosed x g = true else (getGroup x g).st = .open_
      let bad := fmt = .fp32 ∨ slices = 0 ∨ splitGroups x.split ≤ g.val ∨ splitEntries x.split < first + cols ∨
        (activeTile x fmt).depth = 2 ∧ fIsBlock fmt = true
      let done := fun (bs : List Byte) (v t : State) =>
        ArrDone v t c a (colApply x g fmt cols first opn cls bs) ∧
        (getGroup (getArr t (arrOf c a)) g).st = .open_ ∧
        (getGroup (getArr t (arrOf c a)) g).closing = ((!opn && (getGroup x g).closing) || cls) ∧
        (getGroup (getArr t (arrOf c a)) g).count = termAdd (if opn then 0 else (getGroup x g).count) 96 ∧
        ∀ h, h ≠ g.val → getGroup (getArr t (arrOf c a)) h = getGroup x h
      (¬ legal → exec (.col c a g src slices first fmt opn cls) s = .next (arrFault s c u (arrOf c a) 0xA21)) ∧
      (legal → bad → exec (.col c a g src slices first fmt opn cls) s = .next (coreFault s c u 0xA01)) ∧
      (legal → ¬ bad →
        (∀ off, src = .store off →
          Guards (.col c a g src slices first fmt opn cls) s c u [rd (opnd k off) (colBytes fmt cols)]
            (Completes (.col c a g src slices first fmt opn cls) s (done (csRead k (opnd k off) (colBytes fmt cols)) s))) ∧
        (∀ q, src = .queue q → Feeds (.col c a g src slices first fmt opn cls) s c u q (colBytes fmt cols) done))) ∧
    (∀ code, Ready s c u (.spl code) →
      ((∃ h, h < 8 ∧ grpClosed x h = false) → exec (.spl c a code) s = .next (arrFault s c u (arrOf c a) 0xA21)) ∧
      ((∀ h, h < 8 → grpClosed x h = true) →
        (3 < code → exec (.spl c a code) s = .next (coreFault s c u 0xA01)) ∧
        (code ≤ 3 → Completes (.spl c a code) s (fun t => ArrDone s t c a { x with split := code }))))

/-- PRE, PRELOAD_DONE (R67, R68, R113, R121, R172, R173): values enter a closed group of an array at SPLIT 0 through the preload path, their
source's bytes held meanwhile; when they have, the group is PRELOADED with one term counted; a faulted core discards them. WB,
WRITEBACK_DONE (R67, R69, R117, R119, R133, R169, R173, R178): a done group starts to drain to the offset in DEST's register or to a put
queue, its status slot and output ranges pending; at the end the group is closed, the status word stands in its slot and the converted
rows in core store or in the put queue, gradient rows are counted, and trapped flags fault; on a faulted core only the group closes. -/
def Obligations.PreloadsAndWriteBacks : Prop :=
  (∀ (s : State) (c : Fin 256) (a : Fin 2),
     let u := unitOfArr a
     let k := getCore s c
     let x := getArr s (arrOf c a)
     (∀ (g : Fin 8) (src : Src) (n : Nat) (fmt : Fmt), Ready s c u (.pre g src n fmt) →
       let bytes := 96 * rowBytes fmt n
       let bad := fmt ≠ .fp32 ∧ fmt ≠ .bf16 ∨ n = 0 ∨ 1024 < n ∨ g ≠ 0
       (x.split ≠ 0 → exec (.pre c a g src n fmt) s = .next (arrFault s c u (arrOf c a) 0xA24)) ∧
       (x.split = 0 → grpClosed x g = false → exec (.pre c a g src n fmt) s = .next (arrFault s c u (arrOf c a) 0xA21)) ∧
       (x.split = 0 → grpClosed x g = true →
         (bad → exec (.pre c a g src n fmt) s = .next (coreFault s c u 0xA01)) ∧
         (¬ bad →
           (x.wb ≠ none ∨ x.pre ≠ none → exec (.pre c a g src n fmt) s = .next (hold s c 1)) ∧
           (x.wb = none → x.pre = none →
             (∀ off, src = .store off →
               let r := rd (opnd k off) bytes
               Guards (.pre c a g src n fmt) s c u [r] (Completes (.pre c a g src n fmt) s (fun t =>
                 getArr t (arrOf c a) = { x with pre := some ⟨g, preVals fmt n (csRead k (opnd k off) bytes)⟩ } ∧
                 (∀ i, i ≠ arrOf c a → getArr t i = getArr s i) ∧ getCore t c = holdRanges (retired k u) [r] (preKind a) ∧
                 (∀ i, i ≠ c.val → getCore t i = getCore s i) ∧ t = { s with arrs := t.arrs, cores := t.cores }))) ∧
             (∀ q, src = .queue q → Feeds (.pre c a g src n fmt) s c u q bytes (fun bs v t =>
               ArrDone v t c a { x with pre := some ⟨g, preVals fmt n bs⟩ })))))) ∧
     (onDie s = true →
       (x.pre = none → exec (.preloadDone c a) s = .next s) ∧
       (∀ o, x.pre = some o → Completes (.preloadDone c a) s (fun t =>
         (∀ i, i ≠ arrOf c a → getArr t i = getArr s i) ∧ getCore t c = dropRanges k (preKind a) ∧
         (∀ i, i ≠ c.val → getCore t i = getCore s i) ∧ t = { s with arrs := t.arrs, cores := t.cores } ∧
         (k.run = .fault → getArr t (arrOf c a) = { x with pre := none }) ∧
         (k.run ≠ .fault →
           let y := getGroup (getArr t (arrOf c a)) o.group
           y.st = .preloaded ∧ y.count = 1 ∧ y.used = (o.vals.headD []).length ∧
           (∀ h, h ≠ o.group → getGroup (getArr t (arrOf c a)) h = getGroup x h) ∧
           getArr t (arrOf c a) = { x with pre := none, groups := (getArr t (arrOf c a)).groups }))))) ∧
  (∀ (s : State) (c : Fin 256) (a : Fin 2),
     let u := unitOfArr a
     let k := getCore s c
     let x := getArr s (arrOf c a)
     (∀ (g : Fin 8) (dst : WbDst) (fmt : Fmt) (st : Fin 16) (grad : Option Nat), Ready s c u (.wb g dst fmt st) →
       let dest : WbTo := match dst with | .store r => .store (gr k r).toNat | .queue q => .queue q
       let rs := match dest with | .store off => wbAccs (getGroup x g) off fmt | .queue _ => []
       ((getGroup x g).st ≠ .done → exec (.wb c a g dst fmt st grad) s = .next (arrFault s c u (arrOf c a) 0xA21)) ∧
       ((getGroup x g).st = .done → x.wb ≠ none ∨ x.pre ≠ none → exec (.wb c a g dst fmt st grad) s = .next (hold s c 1)) ∧
       ((getGroup x g).st = .done → x.wb = none → x.pre = none →
         Guards (.wb c a g dst fmt st grad) s c u rs (Completes (.wb c a g dst fmt st grad) s (fun t =>
           getArr t (arrOf c a) = { setGroup x g { getGroup x g with st := .draining } with wb := some ⟨g, dest, fmt, st, grad, headBundle k u⟩ } ∧
           (∀ j, j ≠ arrOf c a → getArr t j = getArr s j) ∧
           getCore t c = retired (holdRanges { k with apend := k.apend ++ [.st st] } rs (wbKind a)) u ∧
           (∀ j, j ≠ c.val → getCore t j = getCore s j) ∧ t = { s with arrs := t.arrs, cores := t.cores })))) ∧
     (onDie s = true →
       (x.wb = none → exec (.writebackDone c a) s = .next s) ∧
       (∀ o, x.wb = some o →
         let y := getGroup x o.group
         let closed := fun (t : State) => getArr t (arrOf c a) = { setGroup x o.group {} with wb := none } ∧
           (∀ j, j ≠ arrOf c a → getArr t j = getArr s j) ∧ (∀ j, j ≠ c.val → getCore t j = getCore s j)
         (k.run = .fault → Completes (.writebackDone c a) s (fun t => closed t ∧ getCore t c = endAsync k (.st o.st) (wbKind a) ∧
           t = { s with arrs := t.arrs, cores := t.cores })) ∧
         (k.run ≠ .fault →
           let rows := wbOut y o.fmt
           let w := statusWord o.group (rows.map (fun r => (r.1.row, r.1.flags)))
           let k1 := setSt (endAsync k (.st o.st) (wbKind a)) o.st w
           let bs := rows.flatMap (fun r => r.1.elems) ++ rows.flatMap (fun r => r.1.scales)
           let done := fun (v : State) => closed v ∧
             (∀ off, o.dst = .store off → getCore v c = wbStore k1 y off o.fmt rows) ∧
             (∀ q, o.dst = .queue q → getCore v c = { k1 with pq := (getCore v c).pq } ∧
               pqOf (getCore v c) q = { nextId := (pqOf k q).nextId + 1
                                        reqs := (pqOf k q).reqs ++ [⟨(pqOf k q).nextId, bs.length, .unnamed, false, bs⟩] } ∧
               ∀ j, j ≠ q.val → pqOf (getCore v c) j = pqOf k j) ∧
             (o.grad = none → v = { s with arrs := v.arrs, cores := v.cores, dbg := v.dbg })
           (trapCode k.trap (wordFlags w) = none → Completes (.writebackDone c a) s done) ∧
           (∀ e, trapCode k.trap (wordFlags w) = some e →
             ∃ v, done v ∧ exec (.writebackDone c a) s = .next (coreFaultB v c u o.bundle e none))))))

/-- BOW (R77, R78, R80): the Nut of the String whose first fret's core issues it takes an aligned descriptor that R80 lets pass; a sum Bow
holds its status slot; another core's, another partition's, a misaligned or an invalid descriptor faults, in this order. NUT_ISSUE,
WRAP_BOW_START (R65, R67, R74, R83, R84, R88, R92 to R94): the head descriptor starts when its conditions hold, else the String waits with
its cause or faults; slice 0 enters every fret in order, then every slice that the queue holds is issued and counted; the Bows of a
wrapped tile follow from the wrap buffer when their own conditions hold. -/
def Obligations.BowsEnterAndIssueSlices : Prop :=
  (∀ (s : State) (c : Fin 256) (a : Fin 2) (desc : Opnd) (st : Fin 16), Ready s c (unitOfArr a) (.bow desc st) →
     let u := unitOfArr a
     let k := getCore s c
     let o := opnd k desc
     let d := leNat (csRead k o 16)
     (fretOf s (arrOf c a) = none → exec (.bow c a desc st) s = .next (coreFaultAt s c u 0xA25 (some ⟨0xFFFF, 0⟩))) ∧
     (∀ n f, fretOf s (arrOf c a) = some (n, f) →
       let mine := (∃ g, strGeom s n = some g ∧ g.frets.headD 512 / 2 = c.val) ∧ partOfStr s n = partOfCore s c
       (¬ mine → exec (.bow c a desc st) s = .next (bowRefuse s c u n 0xA25)) ∧
       (mine → o % 16 ≠ 0 → exec (.bow c a desc st) s = .next (coreFault s c u 0xA01)) ∧
       (mine → o % 16 = 0 → Guards (.bow c a desc st) s c u [rd o 16] (
         (bowInvalid d = true → exec (.bow c a desc st) s = .next (bowRefuse s c u n 0xA23)) ∧
         (bowInvalid d = false → Completes (.bow c a desc st) s (fun t =>
           (getStr t n).waiting = (getStr s n).waiting ++ [⟨d, st, c, k.tenant, (partOfCore s c).getD 0, headBundle k u⟩] ∧
           getStr t n = { getStr s n with waiting := (getStr t n).waiting } ∧ (∀ j, j ≠ n → getStr t j = getStr s j) ∧
           getCore t c = { retired k u with apend := if bowSum d then k.apend ++ [.st st] else k.apend } ∧
           (∀ j, j ≠ c.val → getCore t j = getCore s j) ∧
           t = { s with strs := t.strs, cores := t.cores, dbg := t.dbg })))))) ∧
  (∀ (s : State) (n : Fin 128), onDie s = true → halting s = false → (strGeom s n).isSome = true → (getStr s n).run ≠ .fault →
     let x := getStr s n
     let m := fun (e : BowEnt) (from_ : Nat) =>
       min (fqAvail (fqOf (getCore s e.core) (bowFq e.desc)) / bowSliceBytes e.desc) (bowSlices e.desc - from_)
     (x.cur = none → x.waiting = [] → exec (.nutIssue n) s = .next s) ∧
     (∀ c, x.cur = some c →
       (c.started = true → bowSum c.ent.desc = false → c.slice < bowSlices c.ent.desc →
         Completes (.nutIssue n) s (fun t => SlicesIssued s t n c (m c.ent c.slice))) ∧
       (c.started = false ∨ bowSum c.ent.desc = true → exec (.nutIssue n) s = .next s) ∧
       (c.started = true ∨ c.bow = 0 → exec (.wrapBowStart n) s = .next s) ∧
       (c.started = false → c.bow ≠ 0 →
         let chk := bowCheck s n c.ent.desc [bowBase c.ent.desc + c.bow]
         (∀ f, chk = .fault f → exec (.wrapBowStart n) s = .next (strFault s n 0xA21 f)) ∧
         (∀ w, chk = .wait w → Completes (.wrapBowStart n) s (fun t => NutWaits s t n w)) ∧
         (chk = .go →
           let s1 := modStr s n (fun x => { x with
             cur := some { c with started := true }, tag := bowTag c.ent.desc, bowNo := c.bow, slice := 0, run := .run, cause := 0 })
           let r := enterFrets s1 c.ent.desc c.bow (fretsOf s1 n).zipIdx
           (∀ e, r.2 = some e → exec (.wrapBowStart n) s = .next (strFault r.1 n e.1 e.2)) ∧
           (r.2 = none → Completes (.wrapBowStart n) s (fun t =>
             getReg t (R.STR_ISSUED n) = getReg s (R.STR_ISSUED n) + BitVec.ofNat 64 x.wrap.length ∧
             (∀ k, k ≠ R.STR_ISSUED n → getReg t k = getReg s k) ∧
             (getStr t n).cur = (if c.bow + 1 < bowBows c.ent.desc then some { c with bow := c.bow + 1, slice := 0, started := false } else none) ∧
             (getStr t n).wrap = (if c.bow + 1 < bowBows c.ent.desc then x.wrap else []) ∧
             (∀ i, i ≠ n.val → getStr t i = getStr s i) ∧ t = { s with regs := t.regs, arrs := t.arrs, strs := t.strs }))))) ∧
     (∀ e es, x.cur = none → x.waiting = e :: es →
       (∀ f, nutCheck s n e.desc = .fault f →
         exec (.nutIssue n) s = .next (strFault (modStr s n (fun x => { x with tag := bowTag e.desc })) n 0xA21 f)) ∧
       (∀ w, nutCheck s n e.desc = .wait w ∨
           nutCheck s n e.desc = .go ∧ bowSum e.desc = false ∧ fqAvail (fqOf (getCore s e.core) (bowFq e.desc)) < bowSliceBytes e.desc ∧ w = 3 →
         Completes (.nutIssue n) s (fun t => NutWaits s t n w)) ∧
       (nutCheck s n e.desc = .go →
         (bowSum e.desc = true → ∀ f, firstLost s n = some f →
           exec (.nutIssue n) s = .next (strFault (modStr s n (fun x => { x with tag := bowTag e.desc })) n 0xA20 f)) ∧
         (bowSum e.desc = true → firstLost s n = none → Completes (.nutIssue n) s (fun t =>
           getStr t n = { x with waiting := es, cur := some ⟨e, 0, 0, true⟩, run := .sum, cause := 0, tag := bowTag e.desc, bowNo := 0,
                                 slice := bowSlices e.desc, prevMode := some (1, bowSplit e.desc) } ∧
           getReg t (R.STR_ISSUED n) = getReg s (R.STR_ISSUED n) + BitVec.ofNat 64 (bowSlices e.desc) ∧
           (∀ k, k ≠ R.STR_ISSUED n → getReg t k = getReg s k) ∧
           (∀ i, i ≠ n.val → getStr t i = getStr s i) ∧ t = { s with regs := t.regs, strs := t.strs })) ∧
         (bowSum e.desc = false → bowSliceBytes e.desc ≤ fqAvail (fqOf (getCore s e.core) (bowFq e.desc)) →
           let s1 := modStr (modStr s n (fun x => { x with waiting := es, wrap := [] })) n (fun x => { x with
             cur := some ⟨e, 0, 0, true⟩, tag := bowTag e.desc, bowNo := 0, slice := 0, run := .run, cause := 0 })
           let r := enterFrets s1 e.desc 0 (fretsOf s1 n).zipIdx
           (∀ f, r.2 = some f → exec (.nutIssue n) s = .next (strFault r.1 n f.1 f.2)) ∧
           (r.2 = none → Completes (.nutIssue n) s (fun t =>
             SlicesIssued s t n ⟨e, 0, 0, false⟩ (m e 0) ∧ (getStr t n).waiting = es))))))

/-- GROUP_DONE, SUM_BOW_DONE (R67, R88, R89, R119, R120, R178): a closing group is done with its last commit; a sum Bow ends when every fret's
group is done: the converted rows go to the put queue, every group is closed, the status slot is delivered, trapped flags fault; on a
faulted core only the groups close. ARRAY_FAULT, STRING_FAULT_CLEAR (R13, R91, R93, R94): a fault of an array stops its String, drops its
descriptors and its shadow tiles and sets its flag; a write of ones clears flags whose event does not come in the same cycle, and with the
last one the String is idle again. A reserved array belongs to no String. -/
def Obligations.GroupsFinishOrFault : Prop :=
  (∀ (s : State), onDie s = true →
     (∀ (arr : Fin 512) (g : Fin 8),
       let x := getGroup (getArr s arr) g
       (x.st ≠ .open_ ∨ x.closing = false → exec (.groupDone arr g) s = .next s) ∧
       (x.st = .open_ → x.closing = true → Completes (.groupDone arr g) s (fun t =>
         getGroup (getArr t arr) g = { x with st := .done, closing := false, bow := false } ∧
         (∀ h, h ≠ g.val → getGroup (getArr t arr) h = getGroup (getArr s arr) h) ∧
         getArr t arr = { getArr s arr with groups := (getArr t arr).groups } ∧ (∀ i, i ≠ arr.val → getArr t i = getArr s i) ∧
         t = { s with arrs := t.arrs, strs := t.strs }))) ∧
     (∀ (n : Fin 128) (grad : Option Nat) (c : CurBow), (getStr s n).cur = some c → bowSum c.ent.desc = true → (getStr s n).run ≠ .fault →
       let g := bowBase c.ent.desc
       let k := getCore s c.ent.core
       let all := ∀ a ∈ fretsOf s n, (getGroup (getArr s a) g).st = .done
       let passed := fun (v : State) => (getStr v n).cur = none ∧ (∀ a ∈ fretsOf s n, getGroup (getArr v a) g = {}) ∧
         (∀ a, a ∉ fretsOf s n → getArr v a = getArr s a) ∧ (∀ i, i ≠ n.val → getStr v i = getStr s i) ∧
         (getCore v c.ent.core).apend = k.apend.erase (.st c.ent.st)
       (¬ all → Completes (.sumBowDone n grad) s (fun t => getStr t n = { getStr s n with cause := 5 } ∧
         (∀ i, i ≠ n.val → getStr t i = getStr s i) ∧ getReg t (R.STR_STALLED n) = getReg s (R.STR_STALLED n) + 1 ∧
         (∀ k, k ≠ R.STR_STALLED n → getReg t k = getReg s k) ∧ t = { s with regs := t.regs, strs := t.strs })) ∧
       (all → k.run = .fault → Completes (.sumBowDone n grad) s (fun t => passed t ∧
         getCore t c.ent.core = { k with apend := (getCore t c.ent.core).apend } ∧ (∀ i, i ≠ c.ent.core → getCore t i = getCore s i) ∧
         t = { s with arrs := t.arrs, strs := t.strs, cores := t.cores })) ∧
       (all → k.run ≠ .fault →
         let rows := sumOut c.ent.desc ((fretsOf s n).map (fun a => getGroup (getArr s a) g))
         let w := statusWord g (rows.map (fun r => (r.row, r.flags)))
         let last := (fretsOf s n).getLastD 0 / 2
         let bs := rows.flatMap OutRow.elems ++ rows.flatMap OutRow.scales
         let p := pqOf (getCore s last) (bowPq c.ent.desc)
         let done := fun (v : State) => passed v ∧ stSlot (getCore v c.ent.core) c.ent.st = w ∧
           pqOf (getCore v last) (bowPq c.ent.desc) = { nextId := p.nextId + 1, reqs := p.reqs ++ [⟨p.nextId, bs.length, .unnamed, false, bs⟩] } ∧
           (∀ i, i ≠ c.ent.core → i ≠ last → getCore v i = getCore s i) ∧
           (grad = none → v = { s with arrs := v.arrs, strs := v.strs, cores := v.cores })
         (trapCode k.trap (wordFlags w) = none → Completes (.sumBowDone n grad) s done) ∧
         (∀ e, trapCode k.trap (wordFlags w) = some e →
           ∃ v, done v ∧ exec (.sumBowDone n grad) s = .next (coreFaultB v c.ent.core .a0 c.ent.bundle e none))))) ∧
  (∀ (s : State),
     (∀ arr : Fin 512, onDie s = true →
       (fretOf s arr = none → exec (.arrayFault arr) s = .next s) ∧
       (∀ n f, fretOf s arr = some (n, f) → n < 128 → Completes (.arrayFault arr) s (fun t =>
         (getStr t n).run = .fault ∧ (getStr t n).waiting = [] ∧ (getStr t n).cur = none ∧ (getStr t n).wrap = [] ∧
         (getReg t (R.STR_FAULT n)).getLsbD 0 = true ∧
         (∀ a ∈ fretsOf s n, (getArr t a).sh = .free ∧ (getArr t a).shadow = none) ∧
         (∀ a, a ∉ fretsOf s n → getArr t a = getArr s a) ∧ (∀ i, i ≠ n → getStr t i = getStr s i) ∧
         ∀ c, getCore t c = { getCore s c with apend := (getCore t c).apend }))) ∧
     (∀ (fn : Fin 18) (n : Fin 128) (v ev : W64), mayWrite s fn (R.STR_FAULT n) = true → (strGeom s n).isSome = true →
       let w := getReg s (R.STR_FAULT n) &&& ~~~(v &&& fmask 4 0 &&& ~~~ev)
       Completes (.stringFaultClear fn n v ev) s (fun t =>
         getReg t (R.STR_FAULT n) = w ∧ (∀ k, k ≠ R.STR_FAULT n → getReg t k = getReg s k) ∧
         (getStr t n).run = (if fld w 4 0 = 0 ∧ (getStr s n).run = .fault then .idle else (getStr s n).run) ∧
         getStr t n = { getStr s n with run := (getStr t n).run, cause := (getStr t n).cause } ∧ (∀ i, i ≠ n.val → getStr t i = getStr s i) ∧
         t = { s with regs := t.regs, strs := t.strs })))

/-- TUNING_LOAD, TUNING_CHECK_ONLY (R20, R52 to R54, R57 to R59, R364): a load of the physical function is measured and reports its outcome;
with a sound image, an idle scope and no fenced column the clamped structure takes force, at once or after a zeroise of the partitions
that it changes, and TUN_ACTIVE_HASH shows its digest; a check, a rejected image or a busy scope leaves the structure in force. A second
load while one runs is TUNING_BUSY, and measured; while the management core is not free the load waits in its line; other functions change
nothing. What CODE shows of a load that a fenced column refuses is open (log 13). TUNING_ZEROISE_DONE (R54, R56, R67, R207, R214, R368,
R369): every byte that a changed partition held or takes is zero, but in a fenced column, its cores' stores are empty and their groups
closed, its streams, keys and locks are gone, and the load ends; then the management core serves what waits in its line. -/
def Obligations.TuningLoadsAndZeroises : Prop :=
  (∀ (s : State) (fn : Fin 18) (image : List Byte),
     let bytes := image.take (min 1048576 (getReg s R.TUN_IMAGE_LEN).toNat)
     let p := parseImage bytes
     let r := if p.bad then (s.tun.cur, []) else clampImage (clampEnv s) p.recs
     let idle := p.bad = true ∨ notIdle s r.1 = false
     let fenced := p.bad = false ∧ anyFenced s = true ∧ r.1 ≠ defaultTuning s.part.grade (clampEnv s).disabled
     let ch := changedParts s.part.grade s.tun.cur r.1
     let off := fn ≠ 0 ∨ mayWrite s fn R.TUN_CTRL = false
     let run := ¬ off ∧ tunBusy s = false ∧ coreNow s = true
     let status := fun (chk : Bool) (t : State) =>
       let w := getReg t R.TUN_STATUS
       t.sec.count = s.sec.count + 1 ∧ t.cores = s.cores ∧ t.arrs = s.arrs ∧
       (¬ (fenced ∧ idle) → fld w 47 32 = tuningLoadCode p (decide idle) r.2) ∧ w.getLsbD 15 = chk ∧ fld w 31 19 = satAt 8191 r.2.length
     let kept := fun (t : State) => t.tun = s.tun ∧ t.fab = s.fab ∧ t.parts = s.parts ∧ fld (getReg t R.TUN_STATUS) 1 0 = 0
     let busy := fun (chk : Bool) => Machine.measure (log s { code := 0x106 }) 2 1 (b2n chk) 0x106 0xFF (sha384 bytes) []
     let wait := fun (chk : Bool) (t : State) => fld (getReg t R.TUN_STATUS) 1 0 = 1 ∧ t.tun = { s.tun with busLoad := false, jobs := s.tun.jobs ++ [.load false chk bytes] } ∧
       (∀ k, k ≠ R.TUN_STATUS → getReg t k = getReg s k) ∧ t = { s with tun := t.tun, regs := t.regs }
     (off → exec (.tuningLoad fn image) s = .next s ∧ exec (.tuningCheckOnly fn image) s = .next s) ∧
     (¬ off → tunBusy s = true →
       exec (.tuningLoad fn image) s = .next (busy false) ∧ exec (.tuningCheckOnly fn image) s = .next (busy true)) ∧
     (¬ off → tunBusy s = false → coreNow s = false →
       Completes (.tuningLoad fn image) s (wait false) ∧ Completes (.tuningCheckOnly fn image) s (wait true)) ∧
     (run → Completes (.tuningCheckOnly fn image) s (fun t => status true t ∧ kept t)) ∧
     (run → p.bad = true ∨ ¬ idle ∨ fenced → Completes (.tuningLoad fn image) s (fun t => status false t ∧ kept t)) ∧
     (run → p.bad = false → idle → ¬ fenced → Completes (.tuningLoad fn image) s (fun t =>
       status false t ∧ t.tun.cur = r.1 ∧ t.tun.zeroising = ch ∧
       fld (getReg t R.TUN_STATUS) 1 0 = (if ch = [] then 0 else 3) ∧ fld (getReg t R.TUN_STATUS) 12 8 = (if ch = [] then 0 else ch.length) ∧
       (∀ i : Fin 6, getReg t (R.TUN_ACTIVE_HASH i) = BitVec.ofNat 64 (leAt (tuningDigest r.1) (8 * i) 8)) ∧
       ∀ q : Fin 16, getReg t (R.GRX_PART_BLOCKS q) =
         (if q.val < r.1.partCount then
           at_ (q * (64 * (usableBlocks t / r.1.partCount / 64))) 0 ||| at_ (64 * (usableBlocks t / r.1.partCount / 64)) 32 else 0)))) ∧
  (∀ (s : State),
     let runs := fld (getReg s R.TUN_STATUS) 1 0 = 3 ∧ fwUp s = true
     let ended := fun (t : State) =>
       fld (getReg t R.TUN_STATUS) 1 0 = 0 ∧ fld (getReg t R.TUN_STATUS) 12 8 = 0 ∧
       t.tun = { s.tun with zeroising := [], oldRegions := [], oldCores := [] } ∧
       (∀ c ∈ s.tun.oldCores, (getCore t c).store = [] ∧ (getArr t (2 * c)).groups = [] ∧ (getArr t (2 * c + 1)).groups = []) ∧
       (∀ c, c ∉ s.tun.oldCores → getCore t c = getCore s c) ∧
       (∀ a, memGet t.stack.bytes a =
         if (∃ x ∈ s.tun.oldRegions, x.1 ∈ s.tun.zeroising ∧ x.2.1 ≤ a ∧ a < x.2.1 + x.2.2) ∧ saFenced s a = false then 0
         else memGet s.stack.bytes a) ∧
       (∀ p ∈ s.tun.zeroising, isLocked t p = false ∧ (∀ n, n / 256 = p → (getSlot t n).used = false) ∧
         (∀ idx, inRange (strRange s p) idx = true → getCtx t idx = none)) ∧
       t.parts = s.parts ∧ t.fab = s.fab ∧ t.clk = s.clk
     (¬ runs → exec .tuningZeroiseDone s = .next s) ∧
     (runs → s.tun.jobs = [] → Completes .tuningZeroiseDone s ended) ∧
     (runs → ∃ u, ended u ∧ exec .tuningZeroiseDone s = .next (fwResume u)))

/-- FEATURE_ENABLE, FEATURE_DISABLE (R49, R50, R435): a feature takes a resource that nothing owns, and gives it back; an owned resource is
reported with its owner; a pair that R49 does not allow, and a resource that the same feature owns, change nothing (the model's choice,
log 121). -/
def Obligations.FeaturesClaim : Prop :=
  ∀ (s : State) (f res part : Nat),
    (fwUp s = false ∨ featCan f res = false ∨ featPart f = true ∧ partCount s ≤ part → exec (.featureEnable f res part) s = .next s) ∧
    (fwUp s = true → featCan f res = true → (featPart f = true → part < partCount s) →
      (∀ o, ownerOf s res = some o → claimFeat o.1 = f → exec (.featureEnable f res part) s = .next s) ∧
      (∀ o, ownerOf s res = some o → claimFeat o.1 ≠ f →
        exec (.featureEnable f res part) s = .next (log s { code := 0x107, loc := res, payload := o.1 })) ∧
      (ownerOf s res = none → Completes (.featureEnable f res part) s (fun t =>
        ownerOf t res = some (claimValue f res part, 2) ∧ t.tun.runtime = s.tun.runtime ++ [⟨res, claimValue f res part⟩] ∧
        t.tun = { s.tun with runtime := t.tun.runtime } ∧ (∀ i, i ≠ res → i ≠ 1 → getGpx t i = getGpx s i) ∧
        t = { s with tun := t.tun, gpx := t.gpx, out := t.out }))) ∧
    (let held := ∃ c ∈ s.tun.runtime, c.res = res ∧ claimFeat c.value = f
     (fwUp s = false ∨ ¬ held → exec (.featureDisable f res) s = .next s) ∧
     (fwUp s = true → held → Completes (.featureDisable f res) s (fun t =>
      t.tun = { s.tun with runtime := s.tun.runtime.filter (fun c => c.res != res) } ∧
      (f = 4 → (getReg t R.DBG_STATUS).getLsbD 4 = false) ∧ (f = 8 → (getReg t R.PWR_TELEM_CTRL).getLsbD 0 = false) ∧
      t = { s with tun := t.tun, regs := t.regs, parts := t.parts, flog := t.flog, flash := t.flash, msix := t.msix, dbg := t.dbg,
                   gpx := t.gpx, host := t.host, out := t.out })))

/-- END (R165, R175, R183): once the bundle with END has issued, with its unit queues and its request queues empty and no operation under way
the core has ended and is idle, and its unit's round may be over; otherwise it waits, or faults on a queue that still holds requests. -/
def Obligations.ProgramsEnd : Prop :=
  ∀ (s : State) (c : Fin 256),
    let k := getCore s c
    let runs := coreRuns s c = true ∧ k.ending = true ∧ k.ended = false
    let drained := ∀ e ∈ k.uq, e.2 = []
    (¬ runs → exec (.slotEnd c) s = .next s) ∧
    (runs → ¬ drained → exec (.slotEnd c) s = .next (hold s c 1)) ∧
    (runs → drained → queuesEmpty k = false → exec (.slotEnd c) s = .next (coreFaultB s c .c ((k.pc + 4095) % 4096) 0xA06 none)) ∧
    (runs → drained → queuesEmpty k = true → coreAsync s c = true → exec (.slotEnd c) s = .next (hold s c 1)) ∧
    (runs → drained → queuesEmpty k = true → coreAsync s c = false → ∃ v, getCore v c = { k with ended := true, run := .idle } ∧
      (∀ i, i ≠ c.val → getCore v i = getCore s i) ∧ v = { s with cores := v.cores, dbg := v.dbg } ∧
      (partOfCore s c = none → exec (.slotEnd c) s = .next v) ∧
      (∀ p, partOfCore s c = some p → unitOfCore v p c = none → exec (.slotEnd c) s = .next v) ∧
      (∀ p u, partOfCore s c = some p → unitOfCore v p c = some u → exec (.slotEnd c) s = .next (roundOver v p u)))

/-- SLOT_COMPLETE (R138, R147): when every unit has finished the slot that runs, it is done, a backward slot frees the blocks of its pair and
a recomputation its own as well, and the next slot may issue; before that nothing happens. -/
def Obligations.SlotsComplete : Prop :=
  ∀ (s : State) (p : Fin 16), onDie s = true →
    let st := (getPart s p).step
    (curProg s p = none ∨ st.run = none → exec (.slotComplete p) s = .next (trySlot s p)) ∧
    (∀ g r, curProg s p = some g → st.run = some r →
      (slotOver s p g = false → exec (.slotComplete p) s = .next s) ∧
      (slotOver s p g = true → ∃ v, exec (.slotComplete p) s = .next (trySlot v p) ∧
        (getPart v p).step.run = none ∧ (getPart v p).step.done = st.done ++ [r.1] ∧
        (∀ e, slotEnt g r.2 = some e → (e.typ ≠ 1 → stashOf (getPart v p).step e.pair = []) ∧
          (e.typ = 3 → stashOf (getPart v p).step r.1 = [])) ∧
        (∀ i, stashOf (getPart v p).step i = stashOf st i ∨ stashOf (getPart v p).step i = []) ∧
        (∀ q, q ≠ p.val → getPart v q = getPart s q) ∧ v.cores = s.cores ∧ v.arrs = s.arrs ∧ v.strs = s.strs))

/-- STASH_DEADLOCK, STEP_WATCHDOG_EXPIRED, READY_REPORT (R139, R141, R142, R148, R149, R314 to R316): a timer acts 2,000 ns after its deadline
and is held until then; it aborts the step with its code and frees every block; a step whose slots and groups are done is reported once,
with every block free; nothing else changes in other partitions or on the cores. -/
def Obligations.StepsEnd : Prop :=
  ∀ (s : State) (p : Fin 16), onDie s = true →
    let st := (getPart s p).step
    let other := fun (t : State) => (∀ q, q ≠ p.val → getPart t q = getPart s q) ∧ t.cores = s.cores
    let aborted := fun (t : State) (code slot : Nat) =>
      (getPart t p).step.aborted = some code ∧ (getPart t p).step.faultSlot = slot ∧ (getPart t p).step.run = none ∧
      (∀ i, stashOf (getPart t p).step i = []) ∧ (getPart t p).betweenSteps = true ∧ other t
    (∀ t0, st.deadT0 = some t0 → ∀ w, st.waiting = some w → st.run = none →
      (s.clk.time < t0 + 2000000 → exec (.stashDeadlock p) s = .next s) ∧
      (t0 + 2000000 ≤ s.clk.time → s.clk.time < t0 + 2002000 → Completes (.stashDeadlock p) s (fun t =>
        OnlyPart s t p ∧ getPart t p = { getPart s p with step := { st with dlHeld := true } })) ∧
      (t0 + 2002000 ≤ s.clk.time → stepOpen st = true → Completes (.stashDeadlock p) s (fun t => aborted t 0xB03 w))) ∧
    (st.deadT0 = none ∨ st.waiting = none ∨ st.run ≠ none → exec (.stashDeadlock p) s = .next s) ∧
    (∀ e, watchEnd s p = some e → stepOpen st = true →
      (s.clk.time < e → exec (.stepWatchdogExpired p) s = .next s) ∧
      (e ≤ s.clk.time → s.clk.time < e + 2000 → Completes (.stepWatchdogExpired p) s (fun t =>
        OnlyPart s t p ∧ getPart t p = { getPart s p with step := { st with wdHeld := true } })) ∧
      (e + 2000 ≤ s.clk.time → Completes (.stepWatchdogExpired p) s (fun t => aborted t 0xB08 (runIndex s p)))) ∧
    (watchEnd s p = none ∨ stepOpen st = false → exec (.stepWatchdogExpired p) s = .next s) ∧
    (∀ g, curProg s p = some g →
      let late := ∃ e, watchEnd s p = some e ∧ e < s.clk.time
      (stepOpen st = false ∨ late ∨ stepDone s p g = false → exec (.readyReport p) s = .next s) ∧
      (stepOpen st = true → ¬ late → stepDone s p g = true → Completes (.readyReport p) s (fun t =>
        (getPart t p).step.ready = true ∧ (getPart t p).step.wdHeld = false ∧ (getPart t p).betweenSteps = true ∧
        (∀ i, stashOf (getPart t p).step i = []) ∧ other t)))

/-- FOLD_SWAP, FOLD_SWAP_DONE (R183, R184, R196, R214): when every core of a unit has ended a round that needs a swap, its folding cores swap;
at the end, core by core, the unit's next round has started, or its last is over; lost contexts abort the step, and no round starts.
TIME_SLICE_SWAP, TIME_SLICE_SWAP_DONE (R32, R33, R92): between steps, with every String of the partition idle, the running program's cores
swap for the next program in load order; at the end that program stands and, unless something holds it, its step has begun. -/
def Obligations.RoundsFoldAndProgramsSlice : Prop :=
  (∀ (s : State) (p : Fin 16) (u : Nat) (g : Prog) (k : Nat), onDie s = true → (getPart s p).cur = some k → curProg s p = some g →
     let x := getUnit s p u
     let may := (getPart s p).step.run ≠ none ∧ x.swapping = false ∧ x.finished = false ∧ u ∈ progUnits g ∧
       roundEnded s g u x.round = true ∧ needSwap g u x.round = true
     let done := x.swapping = true ∧ (getPart s p).step.run ≠ none
     let v := (unitPhys g u).foldl (fun s c => foldCore s p k g c x.round) s
     (¬ may → exec (.foldSwap p u) s = .next s) ∧
     (may → Completes (.foldSwap p u) s (fun t =>
       getUnit t p u = { x with swapping := true } ∧ (∀ q, q ≠ p.val → getPart t q = getPart s q) ∧
       (∀ c, c ∈ unitPhys g u → coreFolds g c = true → getCore t c = { getCore s c with run := .swap }) ∧
       (∀ c, c ∉ unitPhys g u ∨ coreFolds g c = false → getCore t c = getCore s c) ∧
       t = { s with parts := t.parts, cores := t.cores, dbg := t.dbg })) ∧
     (¬ done → exec (.foldSwapDone p u) s = .next s) ∧
     (done → (getPart v p).step.run = none → exec (.foldSwapDone p u) s = .next v) ∧
     (done → (getPart v p).step.run ≠ none → Completes (.foldSwapDone p u) s (fun t =>
       (getUnit t p u).swapping = false ∧ (x.round < (getUnit t p u).round ∨ (getUnit t p u).finished = true) ∧
       (getPart t p).cur = some k ∧ (getPart t p).progs = (getPart s p).progs ∧
       (∀ q, q ≠ p.val → getPart t q = getPart s q) ∧ (∀ c, c ∉ g.vcores.map VCore.phys → getCore t c = getCore s c)))) ∧
  (∀ (s : State) (p : Fin 16) (k : Nat) (g : Prog), onDie s = true → (getPart s p).cur = some k → curProg s p = some g →
     let q := getPart s p
     let held := q.step.active = true ∨ q.swapTo ≠ none ∨ nextProg s p k = none ∨
       ∃ n : Fin 128, (strMask s p).getLsbD n = true ∧ ((getStr s n).run ≠ .idle ∨ (getStr s n).waiting ≠ [] ∨ strDrained s n = false)
     (held → exec (.timeSliceSwap p) s = .next s) ∧
     (∀ j, ¬ held → nextProg s p k = some j → Completes (.timeSliceSwap p) s (fun t =>
       getPart t p = { q with swapTo := some j } ∧ (∀ i, i ≠ p.val → getPart t i = getPart s i) ∧
       (∀ c, c ∈ g.vcores.map VCore.phys → getCore t c = { getCore s c with run := .swap }) ∧
       (∀ c, c ∉ g.vcores.map VCore.phys → getCore t c = getCore s c) ∧ t = { s with parts := t.parts, cores := t.cores })) ∧
     (q.swapTo = none → exec (.timeSliceSwapDone p) s = .next s) ∧
     (∀ j h, q.swapTo = some j → tget (fun _ => none) q.progs j = some h → Completes (.timeSliceSwapDone p) s (fun t =>
       (getPart t p).cur = some j ∧ (getPart t p).swapTo = none ∧ (∀ i, i ≠ p.val → getPart t i = getPart s i) ∧
       (halting s = false → h.unloadReq = false → (getSeal s (sealKey p j)).noPeer = false → (getSeal s (sealKey p j)).copying = false →
         (getPart t p).step.active = true ∧ stepNo t p = h.stepNo + 1 ∧ getReg t (R.GRX_EPOCH p) = BitVec.ofNat 64 h.epoch))))

/-- PROGRAM_LOAD, PROGRAM_UNLOAD (R187 to R189, R214, R364, R409): both are a write of COR_PROG_CTRL. One that finds the loader busy says so;
a load is measured, and a sound image begins to be written, an unsound one is refused with its code; an unload of a loaded program waits
for its step boundary, one of a program that is not loaded is over at once; without the right to write, and under replay, nothing happens.
PROGRAM_LOAD_DONE, PROGRAM_UNLOAD_APPLY (R32, R188, R189, R208): a program that has been written stands in its partition, last in the
order of loading, shows in LOADED, and begins its first step when it is the first; at a step boundary an unloaded program is gone, the
bytes that its tenants have in core store are zero and its cores idle, and the next program in the order takes its place. -/
def Obligations.ProgramsLoadAndUnload : Prop :=
  (∀ (s : State) (fn : Fin 18) (c : Fin 256) (v : W64),
     let off := 0x1000000 + 0x10000 * c.val + 0x100
     let both := fun (P : State → Prop) => Completes (.programLoad fn c v) s P ∧ Completes (.programUnload fn c v) s P
     (partOfCore s c = none → both (fun t => t = s)) ∧
     (∀ p, partOfCore s c = some p →
       let mine := mayWrite s fn off = true ∧ isFused s c = false ∧ fld v 1 0 ≠ 0 ∧ replaying s p = false
       let u := recInput s 7 p 0 0 (natLe off 4 ++ natLe v.toNat 8)
       let code := fun (t : State) => fld (getReg t (R.COR_PROG_STATUS p)) 47 32
       let state := fun (t : State) => fld (getReg t (R.COR_PROG_STATUS p)) 1 0
       let busy := fld v 1 0 = 3 ∨ v.getLsbD 0 = true ∧
         ((∃ q, q < 16 ∧ (getPart s q).loading ≠ none) ∨ 8 ≤ progCount s p ∨ p ∈ s.tun.zeroising)
       (¬ mine → both (fun t => t = s)) ∧
       (mine → busy → both (fun t => code t = 0xA0A ∧ state t = state s ∧ t.parts = s.parts ∧ t.cores = s.cores ∧ t.sec = s.sec)) ∧
       (mine → ¬ busy → v.getLsbD 0 = true →
         let addr := (getReg s (R.COR_PROG_ADDR p)).toNat
         let avail := (getReg s (R.COR_PROG_LEN p)).toNat
         let r := readImage u p addr avail
         let res := checkImage r.2 p addr avail r.1
         both (fun t => t.sec.count = s.sec.count + 1 ∧ t.cores = s.cores ∧
           (anyFenced s = true → state t = idleState s p ∧ t.parts = s.parts) ∧
           (anyFenced s = false → ∀ e, res = .error e → code t = e % 65536 ∧ state t = idleState s p ∧ t.parts = s.parts) ∧
           (anyFenced s = false → ∀ g l, res = .ok (g, l) → state t = 2 ∧
             getPart t p = { getPart s p with
               loading := some (freeProg s p, g)
               areas := l } ∧ ∀ q, q ≠ p → getPart t q = getPart s q))) ∧
       (mine → ¬ busy → v.getLsbD 0 = false →
         let k := fld v 10 8
         both (fun t => t.cores = s.cores ∧ t.sec = s.sec ∧ (∀ q, q ≠ p → getPart t q = getPart s q) ∧
           (tget (fun _ => none) (getPart s p).progs k = none → code t = 0 ∧ t.parts = s.parts ∧
             ((getPart s p).loading = none → state t = idleState s p)) ∧
           (∀ g, tget (fun _ => none) (getPart s p).progs k = some g →
             ((getPart s p).loading = none → state t = 3) ∧
             tget (fun _ => none) (getPart t p).progs k = some { g with unloadReq := true } ∧
             getPart t p = { getPart s p with progs := (getPart t p).progs }))))) ∧
  (∀ (s : State) (p : Fin 16), onDie s = true →
     let q := getPart s p
     let w := fun (t : State) => getReg t (R.COR_PROG_STATUS p)
     let ended := fun (u : State) => fld (w u) 47 32 = 0 ∧ ((getPart u p).loading = none → fld (w u) 1 0 = idleState u p) ∧
       ∀ i, i ≠ p.val → getPart u i = getPart s i
     (q.loading = none → exec (.programLoadDone p) s = .next s) ∧
     (∀ k g, q.loading = some (k, g) → k < 8 →
       ∃ u, exec (.programLoadDone p) s = .next (if q.cur.isSome then u else
           if (getSeal u (sealKey p k)).rejoin then rejoinProg u p k else beginStep u p) ∧
         (∃ h, tget (fun _ => none) (getPart u p).progs k = some h ∧ { h with watchdog := g.watchdog } = g) ∧
         (getPart u p).loading = none ∧ (getPart u p).order = q.order ++ [k] ∧ (getPart u p).cur = (if q.cur = none then some k else q.cur) ∧
         (w u).getLsbD (8 + k) = true ∧ fld (w u) 7 5 = k ∧ ended u) ∧
     (∀ k : Fin 8,
       let cur := q.cur = some k.val
       (tget (fun _ => none) q.progs k = none → exec (.programUnloadApply p k) s = .next s) ∧
       (∀ g, tget (fun _ => none) q.progs k = some g →
         (g.unloadReq = false ∨ (cur ∧ q.step.active = true) ∨ q.swapTo = some k.val → exec (.programUnloadApply p k) s = .next s) ∧
         (g.unloadReq = true → (cur → q.step.active = false) → q.swapTo ≠ some k.val →
           ∃ u, exec (.programUnloadApply p k) s = .next (match (if cur then nextProg s p k else none) with
               | some j => (match tget (fun _ => none) (getPart u p).progs j with | some h => swapBegin u p j h | none => pruneAreas u p)
               | none => pruneAreas u p) ∧
             tget (fun _ => none) (getPart u p).progs k = none ∧ (w u).getLsbD (8 + k.val) = false ∧ ended u ∧
             (getPart u p).order = q.order.filter (fun j => j != k.val) ∧ (getPart u p).cur = (if cur then none else q.cur) ∧
             (cur → ∀ c ∈ progCores g, (getCore u c).run = .idle ∧ (getCore u c).tens = []) ∧
             (∀ x ∈ g.vcores, residOf s p x.phys = some k.val → q.saved.any (fun e => e.1 = savedKey k x.phys x.tenant) = false →
               ∀ a, x.csBase ≤ a → a < x.csBase + x.size → memGet (getCore u x.phys).store a = 0)))))

/-- MESH_READ, MESH_WRITE (R194 to R196, R199, R206, R214, R219): a request whose turn has come is taken and answered. At a fused core's own
port it completes with zeros; outside the partition's region and window it is refused and logged, a read answered with poison; inside, a
read returns the bytes and their poison, and a write of stack memory in which no error stands replaces exactly the bytes that it names.
MESH_ATOM (R196, R204 to R206): in the partition's window of the shared region the update is made in the slice's line, the old bytes come
back, and a poisoned sector stays poisoned; anywhere else it is refused with poison and logged; it waits for earlier requests of its queue
to the line. -/
def Obligations.MeshReachesStackAndSharedRegion : Prop :=
  (∀ (s : State) (pk : Packet) (ecc : Ecc), onDie s = true →
     let n := pkLen pk
     let rd := Out.mesh (answerOf pk 8 false (List.replicate n 0))
     let bad := Out.mesh (answerOf pk 8 true (List.replicate n 0))
     let ack := Out.mesh (answerOf pk 9 false [])
     (lineTurn s pk = false → exec (.meshRead pk ecc) s = .next s ∧ exec (.meshWrite pk ecc) s = .next s) ∧
     (lineTurn s pk = true → fusedPort s pk = true →
       Completes (.meshRead pk ecc) s (fun t => t.out.getLast? = some rd ∧ t.stack = s.stack ∧ t.flog = s.flog) ∧
       Completes (.meshWrite pk ecc) s (fun t => t.out.getLast? = some ack ∧ t.stack = s.stack ∧ t.flog = s.flog)) ∧
     (lineTurn s pk = true → fusedPort s pk = false → saAllowed s pk.part pk.addr n = false →
       Completes (.meshRead pk ecc) s (fun t => t.out.getLast? = some bad ∧ t.stack = s.stack ∧ t.flog.seq = s.flog.seq + 1) ∧
       Completes (.meshWrite pk ecc) s (fun t => t.out.getLast? = some ack ∧ t.stack = s.stack ∧ t.flog.seq = s.flog.seq + 1)) ∧
     (lineTurn s pk = true → fusedPort s pk = false → saAllowed s pk.part pk.addr n = true →
       (let u := latent (touchBy s pk n) ecc
        let r := saRead u (askerOf pk.srcEp) pk.part pk.addr n
        Completes (.meshRead pk ecc) s (fun t => t.out.getLast? = some (.mesh (answerOf pk 8 r.2.1 r.1)) ∧ t.stack = r.2.2.stack) ∧
        Completes (.meshWrite pk ecc) s (fun t => t.out.getLast? = some ack)) ∧
       (ecc = .ok → saShared s pk.addr = false → anyFenced s = false → (∀ k ∈ sectorsOfRange pk.addr n, ∀ e ∈ s.stack.errs, e.1 ≠ k) →
         Completes (.meshRead pk ecc) s (fun t => t.out.getLast? = some (.mesh (answerOf pk 8
             ((sectorsOfRange pk.addr n).any (fun k => isPoison s k)) ((List.range n).map (fun i => memGet s.stack.bytes (pk.addr + i))))) ∧
           t.stack = { s.stack with owed := t.stack.owed } ∧ t.flog = s.flog) ∧
         Completes (.meshWrite pk ecc) s (fun t => t.flog = s.flog ∧
           (∀ a, memGet t.stack.bytes a =
             if pk.addr ≤ a ∧ a < pk.addr + n then pk.data.getD (a - pk.addr) 0 else memGet s.stack.bytes a) ∧
           (∀ k, isPoison t k = if k ∈ sectorsOfRange pk.addr n then
             pk.poison || (isPoison s k && !(decide (pk.addr ≤ k * 32) && decide (k * 32 + 32 ≤ pk.addr + n))) else isPoison s k) ∧
           t.stack = { s.stack with
             bytes := t.stack.bytes
             poison := t.stack.poison
             errs := t.stack.errs
             owed := t.stack.owed })))) ∧
  (∀ (s : State) (pk : Packet) (spec : AtomSpec) (ecc : Ecc), onDie s = true →
     let n := atomLen pk spec.op
     let mine := saAllowed s pk.part pk.addr n = true ∧ saShared s pk.addr = true
     (lineTurn s pk = false → exec (.meshAtom pk spec ecc) s = .next s) ∧
     (lineTurn s pk = true → ¬ mine → Completes (.meshAtom pk spec ecc) s (fun t =>
       t.out.getLast? = some (.mesh (answerOf pk 10 true (List.replicate n 0))) ∧ t.stack = s.stack ∧ t.flog.seq = s.flog.seq + 1)) ∧
     (lineTurn s pk = true → mine →
       let u := latent (touchBy s pk n) ecc
       let r := saRead u (askerOf pk.srcEp) pk.part pk.addr n
       let new := atomBytes spec.op spec.ty r.1 pk.data
       Completes (.meshAtom pk spec ecc) s (fun t =>
         t.out.getLast? = some (.mesh (answerOf pk 10 r.2.1 r.1)) ∧ t.stack.poison = r.2.2.stack.poison ∧ t.stack.bytes = r.2.2.stack.bytes ∧
         (pk.addr % 256 + n ≤ 256 → (∀ l, getLine u (pk.addr / 256) = some l → l.data.length = 256) →
           ∀ i, i < new.length → cacheByte t (pk.addr + i) = new.getD i 0))))

/-- Responses at a core and data for its REMOTE queues (R172, R178, R196, R219, R222, R226): a response frees its tag, and a waiting request
whose endpoint has a credit goes, with those that R226 merges with it; read data and old values land in the request that asked for them,
with their poison, unless the core is faulted; a response that names no request changes nothing; data sent to a queue is acknowledged, and
a fused core's port drops it. Register packets, interrupts and reserved types (R13, R16, R219, R221, R244, R384, R391): a register read is
answered with the register's bytes, zeros at a fused core's own port, and clears what a read clears; a full register write takes effect
and is acknowledged, except at such a port; an interrupt packet raises its vector; data of a register read completes the host's read; a
reserved type is discarded and logged. Where an interrupt packet carries its vector is the model's choice, log 28; which requests wait to
be merged, log 73. -/
def Obligations.ResponsesAndRegisterPackets : Prop :=
  (∀ (s : State) (pk : Packet) (c : Nat), onDie s = true → pk.dstRouter = c →
     let k := getCore s c
     let z := { s with mesh := tdel s.mesh (tagKey c pk.tag) }
     let freed := fun (t : State) =>
       (k.mwait = [] → t.mesh = z.mesh ∧ (getCore t c).mwait = [] ∧ t.out = s.out) ∧
       (∀ w ws, k.mwait = w :: ws → pk.tag < 1024 → hasCredit z c (dstOf w.1) = true →
         ∃ x l, t.out = s.out ++ .mesh { (mergeWait w.1 w.2 ws).1 with tag := x } :: l) ∧
       (∀ i, i ≠ c → getCore t i = getCore s i) ∧ t = { s with cores := t.cores, mesh := t.mesh, out := t.out }
     let landed := fun (t : State) (q : Nat) (parts : List (Nat × Nat)) (bad : Option Nat) =>
       fqOf (getCore t c) q = { fqOf k q with reqs := parts.foldl (fun (l : List FReq) x => l.map (fun r => if r.id = x.1 then
         { r with got := r.got + x.2, poison := match r.poison with | some y => some y | none => bad } else r)) (fqOf k q).reqs } ∧
       (∀ j, j ≠ q → fqOf (getCore t c) j = fqOf k j) ∧
       getCore t c = { k with fq := (getCore t c).fq, store := (getCore t c).store, mwait := (getCore t c).mwait }
     let bytes := fun (t : State) (q id off : Nat) (bs : List Byte) => ∀ r, (fqOf k q).reqs.find? (fun r => r.id = id) = some r →
       (getCore t c).store = (ringPut k (fqOf k q) (r.off + off) bs).store
     (pk.dstEp ≠ 0 ∨ meshFind s c pk.tag = none →
       exec (.meshReadData pk) s = .next s ∧ exec (.meshAtomData pk) s = .next s ∧ exec (.meshWriteAck pk) s = .next s ∧
       exec (.meshRegAck pk) s = .next s) ∧
     (∀ m, pk.dstEp = 0 → meshFind s c pk.tag = some m →
       let bad := if pk.poison then some (if saFenced s pk.addr then 0x806 else 0x803) else none
       let quiet := fun (t : State) => freed t ∧ getCore t c = { k with mwait := (getCore t c).mwait }
       let data := fun (t : State) => freed t ∧
         (m.put = true ∨ coreFaulted s c = true → getCore t c = { k with mwait := (getCore t c).mwait }) ∧
         (m.put = false → coreFaulted s c = false → landed t m.q ((m.id, m.len) :: m.more.map (fun x => (x.1, x.2.2))) bad ∧
           (m.more = [] → bytes t m.q m.id m.off (fitTo m.len pk.data)))
       Completes (.meshWriteAck pk) s quiet ∧ Completes (.meshRegAck pk) s quiet ∧
       Completes (.meshReadData pk) s data ∧ Completes (.meshAtomData pk) s data) ∧
     (let ack := Out.mesh (answerOf pk 9 false [])
      let took := fun (u : State) => exec (.meshQueueData pk) s = .next (emit (meshTaken u pk) ack)
      (fusedPort s pk = true ∨ remoteReq k pk.addr = none ∨ coreFaulted s c = true → took s) ∧
      (∀ q r o, fusedPort s pk = false → coreFaulted s c = false → remoteReq k pk.addr = some (q, r, o) → o + pkLen pk ≤ r.len →
       ∃ u, took u ∧ landed u q [(r.id, pkLen pk)] (if pk.poison then some 0x803 else none) ∧
         bytes u q r.id o (fitTo (pkLen pk) pk.data) ∧ (∀ i, i ≠ c → getCore u i = getCore s i) ∧ u = { s with cores := u.cores }))) ∧
  (∀ (s : State) (pk : Packet) (ev : W64), onDie s = true →
     (let r := readAny s 0 pk.addr (8 * (pk.len + 1)) ev
      (fusedPort s pk = true → Completes (.meshRegRead pk ev) s (fun t =>
       t = { s with out := s.out ++ [.mesh (answerOf pk 11 false (List.replicate (pk.len + 1) 0))] })) ∧
      (fusedPort s pk = false → Completes (.meshRegRead pk ev) s (fun t => t.out = s.out ++ [.mesh (answerOf pk 11 false r.1)] ∧
       t.regs = r.2.regs ∧ t = { s with out := t.out, regs := t.regs, free := t.free }))) ∧
     (let ack := Out.mesh (answerOf pk 12 false [])
      let u := writeReg s 0 pk.addr (BitVec.ofNat 64 (leNat (fitTo 8 pk.data))) ev
      (fusedPort s pk = false → pk.len = 7 → pk.addr % 8 = 0 → Completes (.meshRegWrite pk ev) s (fun t => t = { u with out := u.out ++ [ack] })) ∧
      (fusedPort s pk = true ∨ pk.len ≠ 7 ∨ pk.addr % 8 ≠ 0 → Completes (.meshRegWrite pk ev) s (fun t => t = { s with out := s.out ++ [ack] }))) ∧
     (let v := pk.addr % 2048
      let e := getMsix s v
      let f := fnOfVec v
      (fnLive s f = false → exec (.meshInterrupt pk) s = .next s) ∧
      (fnLive s f = true →
       (e.unmasked = false → Completes (.meshInterrupt pk) s (fun t => getMsix t v = { e with pba := true } ∧ OnlyMsix s t v)) ∧
       (e.unmasked = true → hostUp s f = true → Completes (.meshInterrupt pk) s (fun t => t = { s with out := s.out ++ [.msix v e.addr e.data] })) ∧
       (e.unmasked = true → hostUp s f = false → Completes (.meshInterrupt pk) s (fun t =>
         t = { s with host := { s.host with wait := s.host.wait ++ [(f, .msix v e.addr e.data)] } })))) ∧
     (pk.dstEp = 4 → Completes (.meshRegData pk) s (fun t => t = { s with out := s.out ++ [.bar 0 pk.data] })) ∧
     (pk.dstEp ≠ 4 → exec (.meshRegData pk) s = .next s) ∧
     (13 ≤ pk.typ → Completes (.meshBadPacket pk) s (fun t => Logged s t 0x510 ∧ (getReg t R.STM_FAULT).getLsbD 47 = true ∧
       ((getReg s R.STM_FAULT).getLsbD 47 = false → fld (getReg t R.STM_FAULT) 46 43 = pk.part % 16 ∧
         fld (getReg t R.STM_FAULT) 42 40 = 5 ∧ fld (getReg t R.STM_FAULT) 7 0 = pk.srcRouter % 256))) ∧
     (pk.typ < 13 → exec (.meshBadPacket pk) s = .next s))

/-- SC_FLUSH, SC_FLUSH_DONE, COLUMN_PORT_SLOT (R200, R202, R207): a flush names the partition's dirty lines, and its end has written each back
and kept it valid; a column port serves a partition whose accesses have slots to take and that has guarantee and ceiling for a sector, and
no other; the one that it serves has a slot less to take. LANE_TRAINING, LANE_TRAINING_DONE, COLUMN_FAILED (R211 to R214, R417): training
begins from the repair map, which a wrong CRC empties; a worn suspect lane takes a spare; failing lanes take spares, and a column whose
spares run out is fenced and logged; a column that fails is fenced; the last column of a start brings the module to run with a zero stack,
without locks, under the default Tuning. -/
def Obligations.FlushesGrantsAndColumns : Prop :=
  (∀ (s : State),
     (∀ (fn : Fin 18) (v : W64),
       (mayWrite s fn R.STK_SC_CTRL = false ∨ (getReg s R.STK_SC_CTRL).getLsbD 63 = true → exec (.scFlush fn v) s = .next s) ∧
       (mayWrite s fn R.STK_SC_CTRL = true → (getReg s R.STK_SC_CTRL).getLsbD 63 = false →
         Completes (.scFlush fn v) s (fun t => fld (getReg t R.STK_SC_CTRL) 11 8 = fld v 11 8 ∧ (getReg t R.STK_SC_CTRL).getLsbD 63 = v.getLsbD 0 ∧
           (v.getLsbD 0 = true → ∀ g, g ∈ t.stack.flush ↔ ∃ l, (g, some l) ∈ s.stack.lines ∧ l.dirty = true ∧ l.part = fld v 11 8) ∧
           (∀ k, k ≠ R.STK_SC_CTRL → getReg t k = getReg s k) ∧
           t = { s with regs := t.regs, stack := { s.stack with flush := t.stack.flush } }))) ∧
     (onDie s = false ∨ (getReg s R.STK_SC_CTRL).getLsbD 63 = false → exec .scFlushDone s = .next s) ∧
     (onDie s = true → (getReg s R.STK_SC_CTRL).getLsbD 63 = true →
       let p := fld (getReg s R.STK_SC_CTRL) 11 8
       Completes .scFlushDone s (fun t => (getReg t R.STK_SC_CTRL).getLsbD 63 = false ∧ t.stack.flush = [] ∧
         (∀ g l, g ∈ s.stack.flush → getLine s g = some l → l.part = p → getLine t g = some { l with dirty := false }) ∧
         (∀ g, g ∉ s.stack.flush → getLine t g = getLine s g) ∧
         (∀ a, a / 256 ∉ s.stack.flush → (∀ g l, getLine s g = some l → l.data.length ≤ 256) →
           memGet t.stack.bytes a = memGet s.stack.bytes a) ∧
         (∀ k, k ≠ R.STK_SC_CTRL → getReg t k = getReg s k) ∧
         t = { s with
           regs := t.regs
           stack := { s.stack with
             bytes := t.stack.bytes
             lines := t.stack.lines
             owed := t.stack.owed
             flush := [] } })) ∧
     (∀ (row place : Fin 8) (wr : Bool),
       let col := 8 * row.val + place.val
       let r := gainBuckets s (tget (fun _ => {}) (if wr then s.stack.wr else s.stack.rd) col)
       let after := fun (t : State) => tget (fun _ => {}) (if wr then t.stack.wr else t.stack.rd) col
       let waits := fun (p : Nat) => p < partCount s ∧ 0 < owedSlots s col wr p
       onDie s = true → Completes (.columnPortSlot row place wr) s (fun t =>
         ((∀ p, waits p → ceilOf r p < 100) → after t = r ∧ t.stack.owed = s.stack.owed) ∧
         (∀ p, p < 16 → ceilOf (after t) p ≠ ceilOf r p → ceilOf (after t) p + 100 = ceilOf r p ∧ waits p ∧ 100 ≤ ceilOf r p ∧
           owedSlots t col wr p + 1 = owedSlots s col wr p ∧ (∀ q, q ≠ p → ceilOf (after t) q = ceilOf r q) ∧
           ((∃ q, waits q ∧ 100 ≤ guarOf r q ∧ 100 ≤ ceilOf r q) → guarOf (after t) p + 100 = guarOf r p)) ∧
         (∀ k, k ≠ R.STK_COL_GRANT col → k ≠ R.STK_COL_WAIT col → getReg t k = getReg s k) ∧
         t = { s with
           regs := t.regs
           stack := { s.stack with
             rd := t.stack.rd
             wr := t.stack.wr
             owed := t.stack.owed } }))) ∧
  (∀ (s : State) (col : Fin 64),
     let x := getCol s col
     let spare := (List.range 128).filter (fun k => !x.spares.any (fun e => e.1 = k))
     let others := ∀ j, j < 64 → j ≠ col.val → (getCol s j).st ≠ 0 ∧ (getCol s j).training = false
     ((¬ (s.phase = .training ∨ s.phase = .warm)) ∨ (x.st ≠ 0 ∧ x.fenced = false) ∨ x.training = true → exec (.laneTraining col) s = .next s) ∧
     ((s.phase = .training ∨ s.phase = .warm) → (x.st = 0 ∨ x.fenced = true) → x.training = false →
       Completes (.laneTraining col) s (fun t =>
         (getCol t col).st = 0 ∧ (getCol t col).training = true ∧ (getCol t col).fenced = x.fenced ∧
         (getCol t col).corrected = [] ∧ (getCol t col).suspect = none ∧
         (mapBad s = false → x.suspect = none → (getCol t col).spares = repairOf s col ∧ t.flog = s.flog) ∧
         (∀ l, mapBad s = false → x.suspect = some l → 1024 < tget (fun _ => 0) x.corrected l → laneUse l ≠ .spare →
           (∃ k, k < 128 ∧ ∀ e ∈ repairOf s col, e.1 ≠ k) →
           (getCol t col).used = (repairOf s col).length + 1 ∧ fld (getReg t R.MOD_FAULT_SUM) 63 48 = 0x804) ∧
         (mapBad s = true → t.flash.repair = [] ∧ mapBad t = false) ∧
         (∀ j, j ≠ col.val → getCol t j = getCol s j))) ∧
     (∀ failed, railsOn s = false ∨ x.training = false → exec (.laneTrainingDone col failed) s = .next s) ∧
     (∀ failed, railsOn s = true → ¬ (s.phase = .training ∧ lastReset s ≤ 1 ∧ others) → x.training = true →
       Completes (.laneTrainingDone col failed) s (fun t => (getCol t col).training = false ∧
         (failed.length ≤ spare.length → (getCol t col).fenced = false ∧
           (getCol t col).st = (if 120 < x.used + failed.length then 2 else 1) ∧ (getCol t col).used = x.used + failed.length) ∧
         (spare.length < failed.length → (getCol t col).fenced = true ∧ (getCol t col).st = 3 ∧
           fld (getReg t R.MOD_FAULT_SUM) 63 48 = 0x806) ∧
         (∀ j, j ≠ col.val → getCol t j = getCol s j))) ∧
     (∀ failed, s.phase = .training → lastReset s ≤ 1 → x.training = true → others →
       ∃ u, exec (.laneTrainingDone col failed) s = .next (fwResume (bootReady (zoneTargets (forceTuning u
           (defaultTuning s.part.grade (s.part.fused ++ s.flash.quarantine)))))) ∧
         u.stack.bytes = [] ∧ u.stack.poison = [] ∧ u.flash.locks = [] ∧ (getCol u col).training = false ∧ (getCol u col).st ≠ 0) ∧
     (onDie s = false ∨ x.fenced = true → exec (.columnFailed col) s = .next s) ∧
     (onDie s = true → x.fenced = false → Completes (.columnFailed col) s (fun t =>
       getCol t col = { x with st := 3, training := false, fenced := true } ∧ (∀ j, j ≠ col.val → getCol t j = getCol s j) ∧
       Logged { s with stack := t.stack } t 0x806 ∧ t.stack = { s.stack with cols := t.stack.cols })))

/-- WARM_RESET, COLD_RESET, SHUTDOWN, PERST (R383, R412 to R415, R418, R421, R422, R425): a write that is not taken changes nothing; during an
orderly stop the reset is held, the wider of two staying; else a warm reset keeps die power, TIME, the part, loaded programs, poison and
bytes of the stack, and resets cores, arrays and Strings; a cold reset starts the die anew over the stack; a shutdown begins the orderly
stop. What a warm reset drops beyond the table of R415 is the model's reading, log 46. -/
def Obligations.ModuleResets : Prop :=
  ∀ (s : State) (fn : Fin 18) (v : W64),
    let taken := fun sc => scopeTaken s fn v sc = true
    let noted := fun (t : State) (last scope warm : Nat) => fld (getReg t R.MOD_STATUS) 3 2 = last ∧
      fld (getReg t R.MOD_RESET_STATUS) 10 8 = scope ∧ fld (getReg t R.MOD_RESET_STATUS) 31 16 = warm
    let emptied := fun (t : State) => t.cores = [] ∧ t.arrs = [] ∧ t.strs = [] ∧ t.mesh = [] ∧ t.stack.lines = [] ∧ t.part = s.part
    let warm := fun (t : State) => t.phase = .warm ∧ noted t 2 1 (min 65535 (fld (getReg s R.MOD_RESET_STATUS) 31 16 + 1)) ∧ emptied t ∧
      t.parts = tmap (fun _ => {}) s.parts (fun _ q => keptPart q) ∧ t.clk.time = s.clk.time ∧ t.tun.cur = s.tun.cur ∧ t.flash.locks = s.flash.locks ∧
      t.sec = { s.sec with busReq := [], busRsp := [] } ∧
      ((∀ i, (getRt s i).jrn.writing = false) → t.stack.bytes = s.stack.bytes ∧ t.stack.poison = s.stack.poison)
    let held := fun (t : State) (sc : Nat) => t = { s with pwr := { s.pwr with
      held := some (match s.pwr.held with | some h => if scopeRank h < scopeRank sc then sc else h | none => sc) } }
    (¬ taken 1 ∨ coolEnough s = false → exec (.warmReset fn v) s = .next s) ∧
    (¬ taken 2 ∨ s.phase = .tripped → exec (.coldReset fn v) s = .next s) ∧
    (¬ taken 5 ∨ s.phase = .tripped ∨ s.phase = .stopped → exec (.shutdown fn v) s = .next s) ∧
    (s.phase = .stopping →
      (taken 1 → Completes (.warmReset fn v) s (fun t => held t 1)) ∧
      (taken 2 → Completes (.coldReset fn v) s (fun t => held t 2)) ∧
      (taken 5 → Completes (.shutdown fn v) s (fun t => held t 5))) ∧
    (s.phase ≠ .stopping →
      (taken 1 → coolEnough s = true → Completes (.warmReset fn v) s warm) ∧
      (taken 2 → s.phase ≠ .tripped → Completes (.coldReset fn v) s (fun t => t.phase = .boot ∧ noted t 1 2 0 ∧ emptied t ∧
        t.stack.bytes = s.stack.bytes ∧ t.stack.poison = s.stack.poison ∧ t.flash = s.flash ∧ t.parts = [] ∧ t.clk.time = 0 ∧
        t.tun.cur = defaultTuning s.part.grade (s.part.fused ++ s.flash.quarantine))) ∧
      (taken 5 → s.phase ≠ .tripped → s.phase ≠ .stopped → Completes (.shutdown fn v) s (fun t => t.phase = .stopping ∧ t.small = none ∧
        t.pwr.commanded = true ∧ t.pwr.band = 3 ∧ t.cores = s.cores ∧ t.parts = s.parts ∧ t.tun = s.tun ∧ t.flash.locks = s.flash.locks))) ∧
    (scopeNow s ≠ 0 ∨ ¬ (railsOn s = true ∨ s.phase = .stopped) → Completes .perst s (fun t =>
      t = { s with host := { s.host with width := 0, rate := 0, half := 0 } })) ∧
    (scopeNow s = 0 → railsOn s = true ∨ s.phase = .stopped → s.phase ≠ .stopping → Completes .perst s (fun t => warm t ∧ t.host.width = 0)) ∧
    (s.phase = .stopping → Completes .perst s (fun t => t.host.width = 0 ∧ t.pwr.held.isSome = true ∧
      t = { s with host := { s.host with width := 0, rate := 0, half := 0 }, pwr := { s.pwr with held := t.pwr.held } }))

/-- POWER_ON, HOLDUP_CHARGED, REF_PRESENT, BOOT_REF_TIMEOUT, BOOT_ROM, WARM_RESET_RESTART (R342, R361, R364, R417 to R420): the start waits
for 54 V, for the reference and for a bank that verifies: the active one, else the other with a record, else boot fails; firmware's start
is measured. A warm reset ends, once no column trains, in run with programs written again, ports restarted and steps resumed. CORE_RESET,
PORT_RESET (R335, R413, R423, R424): a write that is not taken, or names a fused core or no port, changes nothing; a core reset leaves the
core and its arrays as after power-on with its programs' tenant 0 written again, clears its fault register and drops its requests, and a
core whose request waited at its port faults on the poisoned answer; a port reset empties the port's channels and trains it. Log 49 names
what the boot ROM needs. -/
def Obligations.StartAndSmallResets : Prop :=
  (∀ (s : State),
     (∀ mv, (s.phase ≠ .off → exec (.powerOn mv) s = .next s) ∧
       (s.phase = .off → Completes (.powerOn mv) s (fun t => t.phase = .charging ∧ t.pwr.mv = mv ∧ t.regs = [] ∧ t.stack = State.reset.stack ∧
         t.part = s.part ∧ t.flash = s.flash ∧ t.clk.time = 0 ∧ t.cores = []))) ∧
     (∀ mv, (s.phase ≠ .charging ∨ mv < 40000 → exec (.holdupCharged mv) s = .next s) ∧
       (s.phase = .charging → 40000 ≤ mv → Completes (.holdupCharged mv) s (fun t =>
         t = { s with phase := .boot, pwr := { s.pwr with mv := mv } }))) ∧
     Completes .refPresent s (fun t => t = { s with clk := { s.clk with refOk := true }, phase := if s.phase = .bootHold then .boot else s.phase }) ∧
     (s.phase = .bootHold → s.clk.refOk = false → Completes .bootRefTimeout s (fun t => Logged s t 0x201 ∧
       ∃ r, t.flash.faults = keepLast 256 s.flash.faults r ∧ r.code = 0x201)) ∧
     (s.phase ≠ .bootHold ∨ s.clk.refOk = true → exec .bootRefTimeout s = .next s) ∧
     (s.phase ≠ .boot → exec .bootRom s = .next s) ∧
     (s.phase = .boot → s.clk.refOk = false → Completes .bootRom s (fun t => t = { s with phase := .bootHold })) ∧
     (s.phase = .boot → s.clk.refOk = true →
       (∀ k, bankOk s s.flash.bank = some k → Completes .bootRom s (fun t => t.phase = .training ∧ t.sec.running = some k ∧
         t.sec.runBank = s.flash.bank ∧ t.sec.fallback = false ∧ (lastReset s ≠ 3 → t.sec.count = s.sec.count + 1) ∧
         (∀ z, z < 16 → (getZone s z).bypass = false → (getZone t z).locked = true ∧ (getZone t z).applied = 300) ∧
         t = { s with phase := .training, sec := t.sec, clk := { s.clk with zones := t.clk.zones } })) ∧
       (∀ k, bankOk s s.flash.bank = none → bankOk s (1 - s.flash.bank) = some k → Completes .bootRom s (fun t => t.phase = .training ∧
         t.sec.running = some k ∧ t.sec.runBank = 1 - s.flash.bank ∧ t.sec.fallback = true ∧
         fld (getReg t R.MOD_FAULT_SUM) 63 48 = 0x901 ∧ t.flog.seq = s.flog.seq + 1)) ∧
       (bankOk s s.flash.bank = none → bankOk s (1 - s.flash.bank) = none → Completes .bootRom s (fun t => t.phase = .failed ∧
         Logged { s with phase := .failed } t 0x902))) ∧
     (let loss := s.phase = .training ∧ lastReset s = 3
      (¬ (s.phase = .warm ∨ loss) ∨ settled s = false → exec .warmResetRestart s = .next s) ∧
      (s.phase = .warm → settled s = true → Completes .warmResetRestart s (fun t => t = fwResume ((List.range 16).foldl resumePart
        (eachPort ((List.range 16).foldl reloadPart (relockZones { s with phase := .run })) portRestart)))) ∧
      (loss → settled s = true → Completes .warmResetRestart s (fun t => t = fwResume ((List.range 16).foldl resumePart
        (eachPort ((List.range 16).foldl reloadPart (reinstallAll (relockZones { s with phase := .run }))) portRestart)))))) ∧
  (∀ (s : State) (fn : Fin 18) (v : W64),
     let c := fld v 23 16
     (smallReset s fn v 3 = false ∨ isFused s c = true → exec (.coreReset fn v) s = .next s) ∧
     (smallReset s fn v 3 = true → isFused s c = false → Completes (.coreReset fn v) s (fun t =>
       (partOfCore s c = none → getCore t c = {} ∧ (crossing s c = [] → fretOf s (2 * c) = none → fretOf s (2 * c + 1) = none →
         ∀ i, i ≠ c → getCore t i = getCore s i)) ∧
       getArr t (2 * c) = {} ∧ getArr t (2 * c + 1) = {} ∧ getReg t (R.COR_FAULT c) = 0 ∧
       (∀ e ∈ t.mesh, e.2.core ≠ c ∧ e.2.dst ≠ (0, c)) ∧ (∀ e ∈ s.mesh, e.2.core ≠ c → (∀ x ∈ crossing s c, x.1 ≠ e.1) → e ∈ t.mesh) ∧
       (∀ e ∈ crossing s c, coreFaulted t e.2.core = true) ∧
       (fretOf s (2 * c) = none → fretOf s (2 * c + 1) = none → ∀ a, a ≠ 2 * c → a ≠ 2 * c + 1 → getArr t a = getArr s a))) ∧
     (smallReset s fn v 4 = false ∨ 11 < c → exec (.portReset fn v) s = .next s) ∧
     (smallReset s fn v 4 = true → c ≤ 11 → Completes (.portReset fn v) s (fun t =>
       (let u := portTrain (modPort (flushSet (beginSmall s 4 c) (256 + c)) c (fun p => { p with
          vcs := p.vcs.map (fun e => (e.1, { e.2 with txq := [], replay := if 22 ≤ e.1 then [] else e.2.replay })) })) c
        t = if (getPort u c).st = 1 then u else resetOver u 4 c) ∧
       (portUp (getPort s c) = false → (getPort t c).st = restState s c ∧ (getPort t c).vcs = [] ∧ (getPort t c).lanes = 0 ∧
         ∀ k, k ≠ c → getPort t k = getPort s k))))

/-- DOORBELL, PART_TABLE_WRITE (R221, R228, R238, R242, R310, R388): a doorbell that no function may ring, or whose partition replays, changes
nothing; one that reaches the engine goes there as a packet; the conditions of R238 refuse it in order; one that passes moves PRODUCER, in
the context, in a free context that it has loaded, or in the table with its pending bit set. A table register changes while its partition
has no enabled stream. CREATE, DESTROY, REARM, QUERY, EVICT (R239 to R242): a command that is not accepted, or comes while its function's
last one runs, has no effect on streams; an idle engine runs it at once, shows its code and generation, and interrupts: a stream outside
the function's ranges is refused; CREATE installs the image's entry; DESTROY disables a stream with nothing in flight; REARM begins a new
generation; QUERY writes the entry; EVICT frees an unpinned context. -/
def Obligations.DoorbellsAndStreamCommands : Prop :=
  (∀ (s : State) (fn : Fin 18),
     (∀ (page slot width : Nat) (v : W64),
       let r := getReg s (R.STM_DB_PAGE page)
       let p := fld r 35 32
       let idx := fld r 19 0 + slot
       let e := entryOf s idx
       let val := fld v 31 0
       let d := sub32 val e.producer
       let reach := onDie s = true ∧ (getFn s fn).d3 = false ∧ fn ≠ 17 ∧ page < 1024 ∧ slot < 512 ∧ width = 64 ∧
         (fn.val = 0 ∨ (fnLive s fn = true ∧ r.getLsbD 36 = true ∧ p + 1 = fn.val))
       let open_ := inRange (strRange s p) idx = true ∧ eEnabled e = true ∧ recBusy s = false
       let u := emit s (.mesh (bellPacket p idx v))
       let does := Completes (.doorbell fn page slot v width) s
       (¬ reach → exec (.doorbell fn page slot v width) s = .next s) ∧
       (reach → r.getLsbD 36 = false → does (fun t => Logged s t 0x50C)) ∧
       (reach → r.getLsbD 36 = true → replaying s p = true → exec (.doorbell fn page slot v width) s = .next s) ∧
       (reach → r.getLsbD 36 = true → replaying s p = false → recording s p = false →
         (¬ open_ → does (fun t => Logged u t 0x50C)) ∧
         (open_ → fld v 63 48 ≠ 0 → does (fun t => Logged u t 0x502)) ∧
         (open_ → fld v 63 48 = 0 → (fld v 47 32 ≠ e.gen ∨ eClosed e = true) → does (fun t => Logged u t 0x503)) ∧
         (open_ → fld v 63 48 = 0 → fld v 47 32 = e.gen → eClosed e = false →
           ((d = 0 ∨ 2 ^ 31 ≤ d) → does (fun t => getReg t R.STM_DB_STALE = getReg s R.STM_DB_STALE + 1 ∧ OnlyReg u t R.STM_DB_STALE)) ∧
           (0 < d → d < 2 ^ 31 →
             (2 ^ e.log2 < sub32 val e.completed → does (fun t => Logged u t 0x502)) ∧
             (sub32 val e.completed ≤ 2 ^ e.log2 →
               (∀ c, getCtx s idx = some c → does (fun t => entryOf t idx = { e with producer := val } ∧
                 (∀ j, j ≠ idx → getCtx t j = getCtx s j) ∧ t = { u with stm := { s.stm with ctxs := t.stm.ctxs } })) ∧
               (getCtx s idx = none → tabInStack s (strPart s idx) = false → (partOfIdx s idx).isSome = true →
                 (ctxFree s = true → does (fun t => (getCtx t idx).isSome = true ∧ entryOf t idx = { e with producer := val } ∧
                   isPending t idx = false)) ∧
                 (ctxFree s = false → lruCtx s = none → does (fun t => entryOf t idx = { e with producer := val } ∧ isPending t idx = true)))))))) ∧
     (∀ (off : Nat) (v : W64),
       let p := instNo off 0x50100 16
       let reach := fn.val = 0 ∧ mayWrite s fn off = true ∧ 0x50100 ≤ off ∧ off < 0x50200 ∧ off % 8 = 0
       let bad := partHasStream s p = true ∨ (off % 16 = 8 ∧ rangeLegal s p v = false)
       (¬ reach → exec (.partTableWrite fn off v) s = .next s) ∧
       (reach → bad → Completes (.partTableWrite fn off v) s (fun t => Logged s t 0x50A)) ∧
       (reach → ¬ bad → Completes (.partTableWrite fn off v) s (fun t =>
         getReg t off = v &&& (if off % 16 = 8 then fmask 36 32 ||| fmask 20 0 else fmask 63 12 ||| fmask 0 0) ∧ OnlyReg s t off)))) ∧
  (∀ (s : State) (fn : Fin 18) (idx : Nat) (image : List Byte),
     let st := fnKey fn R.STM_CMD_STATUS
     let p := strPart s idx
     let e := entryOf s idx
     let arg := fun (i : Nat) => (getReg s (fnKey fn (R.STM_CMD_ARG i))).toNat
     let each := fun (P : State → Prop) => Completes (.create fn idx image) s P ∧ Completes (.destroy fn idx) s P ∧ Completes (.rearm fn idx) s P ∧
       Completes (.query fn idx) s P ∧ Completes (.evict fn idx) s P
     let heard := mayWrite s fn R.STM_CMD = true ∧ replaying s p = false ∧ (getReg s st).getLsbD 0 = false ∧ recording s p = false
     let shows := fun (t : State) (code gen : Nat) => getReg t st = at_ code 32 ||| at_ gen 16 ∧ t.stm.cmd = none ∧ t.stm.cmdWait = [] ∧
       (getReg t (fnKey fn R.MOD_INT_CAUSE)).getLsbD 4 = true
     (mayWrite s fn R.STM_CMD = false ∨ replaying s p = true → each (fun t => t = s)) ∧
     (mayWrite s fn R.STM_CMD = true → replaying s p = false → (getReg s st).getLsbD 0 = true → each (fun t => Logged s t 0x509)) ∧
     (heard → s.stm.cmd ≠ none → each (fun t => getReg t st = 1 ∧ t.stm.cmdWait.length = s.stm.cmdWait.length + 1 ∧
         t = { s with
           regs := t.regs
           stm := { s.stm with cmdWait := t.stm.cmdWait } })) ∧
     (heard → s.stm.cmd = none → s.stm.cmdWait = [] → cmdPart s fn idx = none → each (fun t => shows t 0x501 0 ∧ t.flog.seq = s.flog.seq + 1 ∧
       ∀ j, getCtx t j = getCtx s j)) ∧
     (∀ q c, heard → s.stm.cmd = none → s.stm.cmdWait = [] → cmdPart s fn idx = some q → getCtx s idx = some c →
       (tabInStack s q = false → s.tun.zeroising.contains q = false → isLocked s q = false → imageBad s q image = false → eEnabled e = false →
         eSealed (entParse image) = false → (entParse image).kind ≤ 3 → eJournal (entParse image) = false →
         Completes (.create fn idx image) s (fun t => shows t 0 1 ∧ entryOf t idx = freshEntry image ∧
           (getRt t idx).flights = [] ∧ (getRt t idx).pend = [])) ∧
       (eEnabled e = true → Completes (.create fn idx image) s (fun t => shows t 0x507 0 ∧ entryOf t idx = e)) ∧
       (eEnabled e = false → Completes (.destroy fn idx) s (fun t => shows t 0 0 ∧ entryOf t idx = e)) ∧
       (eEnabled e = true → e.accepted = e.completed → (getRt s idx).pend = [] → eSealed e = false → ¬ (e.kind = 4 ∧ eOut e = true) →
         Completes (.destroy fn idx) s (fun t => shows t 0 0 ∧ eEnabled (entryOf t idx) = false ∧ getRt t idx = {})) ∧
       (eEnabled e = true → e.accepted ≠ e.completed ∨ (getRt s idx).pend ≠ [] →
         Completes (.destroy fn idx) s (fun t => shows t 0x505 0 ∧ entryOf t idx = e)) ∧
       (eEnabled e = false → Completes (.rearm fn idx) s (fun t => shows t 0x50C 0 ∧ entryOf t idx = e)) ∧
       (eEnabled e = true → eShadow e = true → Completes (.rearm fn idx) s (fun t => shows t 0x504 0 ∧ entryOf t idx = e)) ∧
       (eEnabled e = true → eShadow e = false → (eSealed e = true → e.gen ≠ 0xFFFF) → eJournal e = false →
         let log2 := fld (getReg s (fnKey fn (R.STM_CMD_ARG 1))) 4 0
         let compl := if arg 2 = 0 then e.compl else arg 2
         (e.completed = e.producer → Completes (.rearm fn idx) s (fun t => shows t 0 ((e.gen + 1) % 65536) ∧ (getRt t idx).pre = [] ∧
           entryOf t idx = newGen e (arg 0) log2 compl)) ∧
         (e.completed ≠ e.producer → Completes (.rearm fn idx) s (fun t => shows t 0 ((e.gen + 1) % 65536) ∧ (getRt t idx).pre = [] ∧
           entryOf t idx = { e with
             shRing := arg 0
             shLog2 := log2
             shCompl := compl
             oldLimit := e.producer
             flags := setFlag (setFlag e.flags 6 true) 7 true }))) ∧
       (tabInStack s q = false → hostUp s (q + 1) = true → Completes (.query fn idx) s (fun t => shows t 0 0 ∧
         .host (q + 1) (arg 0) (entBytes e) ∈ t.out ∧ entryOf t idx = e)) ∧
       (c.st = .valid → ctxPinned s idx c = false → c.dirty = false → (∀ x ∈ s.stm.pending, x.2 = false) →
         Completes (.evict fn idx) s (fun t => shows t 0 0 ∧ getCtx t idx = none)) ∧
       (c.st ≠ .valid ∨ ctxPinned s idx c = true → Completes (.evict fn idx) s (fun t => shows t 0 0 ∧ getCtx t idx = some c))))

/-- DESCRIPTOR_PREFETCH, DESCRIPTOR_ACCEPT, DESCRIPTOR_FINISH, MSIX_MERGE_EXPIRY (R231 to R237, R242, R375, R376): a prefetch adds the next
descriptor of the read-ahead; a descriptor that may be accepted enters flight and ACCEPTED advances by one; a flight of a host-side stream
moves its bytes, or finishes with the host's error after the bytes that came; a merged interrupt goes out 1,000 ns after the last one,
behind the records of its function that wait. -/
def Obligations.DescriptorsMove : Prop :=
  ∀ (s : State) (idx : Nat) (bs : List Byte),
    let e := entryOf s idx
    let r := getRt s idx
    let p := strPart s idx
    let i := nextIdx s idx
    (let ahead := onDie s = true ∧ (getCtx s idx).isSome = true ∧ eEnabled e = true ∧ r.pre.length < e.prefetch ∧ r.pre.length < sub32 e.producer i
     (¬ ahead → exec (.descriptorPrefetch idx bs) s = .next s) ∧
     (ahead → Completes (.descriptorPrefetch idx bs) s (fun t => getRt t idx = { r with
       pre := r.pre ++ [(m32 (i + r.pre.length), ringDesc s p e (m32 (i + r.pre.length)) bs)] } ∧
       (∀ j, j ≠ idx → getRt t j = getRt s j) ∧ (eRingStack e = false → OnlyRt s t idx)))) ∧
    (∀ mapped, onDie s = false ∨ eEnabled e = false ∨ (eFabric e = true ∧ eOut e = false) ∨ i = e.producer →
      exec (.descriptorAccept idx bs mapped) s = .next s) ∧
    (∀ mapped, onDie s = true → eEnabled e = true → (eFabric e = true → eOut e = true) → i ≠ e.producer →
      (ctxUse s idx = none → exec (.descriptorAccept idx bs mapped) s = .next (ctxWant s)) ∧
      (∀ u, ctxUse s idx = some u →
        let x := (getRt u idx).pre.find? (fun x => x.1 = i)
        let z := if x.isSome then u else ringTouch u (strPart u idx) e i
        let d := match x with | some x => x.2 | none => ringDesc u (strPart u idx) e i bs
        (nonceOut e i = true → Completes (.descriptorAccept idx bs mapped) s (fun t => Logged z t 0x90B)) ∧
        (nonceOut e i = false → mayAccept z idx d = false → exec (.descriptorAccept idx bs mapped) s = .next z) ∧
        (nonceOut e i = false → mayAccept z idx d = true → Completes (.descriptorAccept idx bs mapped) s (fun t => ∃ w, t = wakeStep w idx ∧
          ((getCtx s idx).isSome = true → recording z (strPart z idx) = false → eFabric e = false → eJournal e = false →
            descInvalid z (strPart z idx) e d = false → (hostSide e = true → mapped = true) →
            entryOf w idx = { e with accepted := m32 (e.accepted + 1) } ∧
            (getRt w idx).flights = (getRt z idx).flights ++ [{ idx := i, desc := d }] ∧
            (∀ x ∈ (getRt w idx).pre, x.1 ≠ i) ∧ w = { z with stm := w.stm }))))) ∧
    (∀ k status n ecc,
      let z := latent s ecc
      let find := r.flights.find? (fun f => f.idx = k && !f.fin && !f.landed)
      let host := eEnabled (entryOf z idx) = true ∧ eFabric (entryOf z idx) = false ∧ (entryOf z idx).kind ≠ 2 ∧ hostUp s (p + 1) = true ∧
        ideStops s idx = false ∧ engineStream s idx = false ∧ (replaying s p = true → eOut (entryOf z idx) = true)
      (onDie s = false → exec (.descriptorFinish idx k status n bs ecc) s = .next s) ∧
      (onDie s = true → find = none ∨ ¬ host → exec (.descriptorFinish idx k status n bs ecc) s = .next z) ∧
      (∀ f, onDie s = true → find = some f → host →
        (eOut (entryOf z idx) = true → Completes (.descriptorFinish idx k status n bs ecc) s (fun t => t = cmdRetry (moveOut z idx f))) ∧
        (eOut (entryOf z idx) = false → recording s p = false → status = 0 →
          Completes (.descriptorFinish idx k status n bs ecc) s (fun t => t = cmdRetry (moveIn z idx f bs))) ∧
        (eOut (entryOf z idx) = false → recording s p = false → status = 0 → eSealed (entryOf z idx) = false → nbit f.desc.flags 2 = false →
          let d := f.desc
          Completes (.descriptorFinish idx k status n bs ecc) s (fun t => t = cmdRetry (landed
            (relWrite (touchRel z p d.stack (descSpan (entryOf z idx) d)) p d.stack (bs.take d.len)) idx k 0 (bs.take d.len).length))) ∧
        (eOut (entryOf z idx) = false → recording s p = false → status ≠ 0 → Completes (.descriptorFinish idx k status n bs ecc) s (fun t =>
          let m := movedBytes (entryOf z idx) f.desc (min n f.desc.len)
          t = cmdRetry (landed (relWrite (touchRel z p f.desc.stack m) p f.desc.stack (bs.take m)) idx k 0x50B m))))) ∧
    (∀ v,
      let m := getMsix s v
      (m.merge = false ∨ m.lastSent = none ∨ (∃ t0, m.lastSent = some t0 ∧ s.clk.time < t0 + 1000) → exec (.msixMergeExpiry v) s = .next s) ∧
      (∀ t0, m.merge = true → m.lastSent = some t0 → t0 + 1000 ≤ s.clk.time → fnLive s (fnOfVec v) = true →
        let sent := fun (t : State) (b : Bool) => getMsix t v = { m with
            merge := false
            lastSent := some s.clk.time
            pba := b } ∧ ∀ j, j ≠ v → getMsix t j = getMsix s j
        (m.unmasked = true → (∀ w ∈ s.host.wait, w.1 ≠ m.behind) → hostUp s (fnOfVec v) = true →
          Completes (.msixMergeExpiry v) s (fun t => t.out = s.out ++ [.msix v m.addr m.data] ∧ sent t m.pba ∧
            t = { s with
              out := t.out
              msix := t.msix })) ∧
        (m.unmasked = true → (∃ w ∈ s.host.wait, w.1 = m.behind) → Completes (.msixMergeExpiry v) s (fun t =>
          t.host.wait = s.host.wait ++ [(m.behind, .msix v m.addr m.data)] ∧ sent t m.pba)) ∧
        (m.unmasked = false → Completes (.msixMergeExpiry v) s (fun t => sent t true ∧ t.out = s.out))))

/-- CONTEXT_LOAD, CONTEXT_WRITEBACK_DONE, JOURNAL_WRITE_DONE, STM_RECOVER, RECOVERY_SCAN (R241, R242, R301, R305 to R310, R336): a free
context takes an entry; an evicting one becomes free; a journal write's end lets its acceptances enter flight; recovery is begun by the
physical function, once, and its scan, when no crossing is flushed and the host has answered for the rings that it needs, ends ready with
its record. -/
def Obligations.ContextsJournalsRecovery : Prop :=
  ∀ (s : State) (idx : Nat),
    (∀ bs, partOfIdx s idx = none ∨ onDie s = false ∨ (getCtx s idx).isSome = true ∨ ctxFree s = false → exec (.contextLoad idx bs) s = .next s) ∧
    (∀ bs p, partOfIdx s idx = some p → onDie s = true → getCtx s idx = none → ctxFree s = true → Completes (.contextLoad idx bs) s (fun t =>
      entryOf t idx = (if tabInStack s p = true ∨ bs.length ≠ 128 then tableGet s idx else entParse bs) ∧ isPending t idx = false ∧
      (∀ j, j ≠ idx → getCtx t j = getCtx s j) ∧ (tabInStack s p = false → t = { s with stm := t.stm }))) ∧
    (getCtx s idx = none ∨ onDie s = false ∨ (∃ c, getCtx s idx = some c ∧ c.st = .valid) → exec (.contextWritebackDone idx) s = .next s) ∧
    (∀ c, getCtx s idx = some c → onDie s = true → c.st = .evicting →
      Completes (.contextWritebackDone idx) s (fun t => t = cmdRetry (ctxDrop s idx)) ∧
      (s.stm.noCtx = false → Completes (.contextWritebackDone idx) s (fun t =>
        ((∀ x ∈ s.stm.pending, x.2 = false) → getCtx t idx = none ∧ (∀ j, j ≠ idx → getCtx t j = getCtx s j) ∧ t = { s with stm := t.stm }) ∧
        (∀ n, (s.stm.pending.find? (fun x => x.2)).map Prod.fst = some n → (getCtx t n).isSome = true ∧ isPending t n = false)))) ∧
    (let j := (getRt s idx).jrn
     (onDie s = false ∨ s.phase = .stopping ∨ j.writing = false → exec (.journalWriteDone idx) s = .next s) ∧
     (onDie s = true → s.phase ≠ .stopping → j.writing = true →
       let u := wakeStep (jrnFetches (jrnApply s idx) idx) idx
       let w := if jrnMore u idx then jrnWrite u idx else u
       let x := if eFabric (entryOf w idx) && eOut (entryOf w idx) then sendAll w idx else w
       let g := if eClosed (entryOf x idx) then ((entryOf x idx).gen + 1) % 65536 else (entryOf x idx).gen
       Completes (.journalWriteDone idx) s (fun t => t = match x.stm.cmd with
         | some k => if x.stm.noCtx then cmdRetry x else if k.idx = idx && (k.op = 1 || k.op = 3) then cmdFinish x 0 g else x
         | none => x) ∧
       (∀ c, getCtx s idx = some c → j.wCompleted = c.ent.completed →
         let v := jrnApply s idx
         entryOf v idx = { c.ent with accepted := j.wAccepted } ∧
         (getRt v idx).flights = (getRt s idx).flights ++ (getRt s idx).pend.take (sub32 j.wAccepted c.ent.accepted) ∧
         (getRt v idx).jrn.writing = false ∧ (getRt v idx).jrn.jSeq = j.wSeq))) ∧
    (∀ (fn : Fin 18) (v : W64),
      let reach := fn.val = 0 ∧ mayWrite s fn R.STM_RECOVER = true ∧ ∀ p, p < 16 → v.getLsbD p = true → replaying s p = false
      (¬ reach → exec (.stmRecover fn v) s = .next s) ∧
      (reach → recBusy s = true → Completes (.stmRecover fn v) s (fun t => Logged s t 0x509)) ∧
      (reach → recBusy s = false → recording s 0xFF = false → Completes (.stmRecover fn v) s (fun t =>
        t.stm.recParts = (List.range 16).filter (fun p => v.getLsbD p) ∧ getReg t R.STM_RECOVER_STATUS = 1 ∧
        (∀ k, k ≠ R.STM_RECOVER_STATUS → getReg t k = getReg s k) ∧
        t = { s with
          regs := t.regs
          stm := { s.stm with recParts := t.stm.recParts } }))) ∧
    (∀ descs, onDie s = false ∨ recBusy s = false ∨ (∃ b ∈ s.clk.bounds, b.2 = true) → exec (.recoveryScan descs) s = .next s) ∧
    (∀ descs, onDie s = true → recBusy s = true → (∀ b ∈ s.clk.bounds, b.2 = false) →
      (scanLacks descs s ≠ [] → Completes (.recoveryScan descs) s (fun t => fld (getReg t R.STM_RECOVER_STATUS) 1 0 = 2 ∧ t.stm = s.stm ∧
        ((∀ p, p < 16 → hostUp s (p + 1) = true) → (∀ q ∈ s.stm.recParts, q < 16) →
          t.out = s.out ++ (scanLacks descs s).map (fun x => Out.hostRead (x.1 + 1) x.2 32)))) ∧
      (scanLacks descs s = [] →
        let x := s.stm.recParts.foldl (recoverPart descs) (s, 0, 0)
        Completes (.recoveryScan descs) s (fun t => t.stm.recParts = [] ∧ fld (getReg t R.STM_RECOVER_STATUS) 1 0 = 0 ∧
          fld (getReg t R.STM_RECOVER_STATUS) 41 22 = x.2.1 % 2 ^ 20 ∧ fld (getReg t R.STM_RECOVER_STATUS) 61 42 = x.2.2 % 2 ^ 20 ∧
          fld (getReg t R.MOD_FAULT_SUM) 63 48 = 0x511 ∧ (getReg t R.MOD_INT_CAUSE).getLsbD 5 = true ∧ t.cores = x.1.cores ∧
          t.stack = x.1.stack ∧ t.stm = { x.1.stm with recParts := [] })))

/-- LINK_SIGNAL_DETECT, IDENT, WIRING_NOTICE, PORT_UP, TRAINING_ATTEMPT_FAIL, PARTNER_LOST, RETRAIN, PORT_DISABLE, FAB_MOD_ADDR_WRITE (R246,
R249 to R251, R256, R265, R267): a port trains from signal to identity to UP or DEGRADED; an identity that does not fit stops it in
WIRING_ERROR; an attempt that fails begins again with IDENT, and the third within a second takes the port down; a lost partner begins
again; RETRAIN does so with the replay buffers kept, and LINK_CRYPT takes effect; the module's address does not change while a port is up. -/
def Obligations.PortsTrain : Prop :=
  ∀ (s : State) (n : Fin 12) (fn : Fin 18) (v : W64),
    let p := getPort s n
    let hello := s.out ++ [Out.fab n (.ident (ownIdent s n))]
    let down := fun (t : State) (st code : Nat) => getPort t n = { ({} : Port) with
        st := st
        signal := p.signal
        fails := p.fails
        keyEpoch := p.keyEpoch
        crypt := p.crypt } ∧
      (∀ k, k ≠ n.val → getPort t k = getPort s k) ∧ t.flog.seq = s.flog.seq + 1 ∧ fld (getReg t R.MOD_FAULT_SUM) 63 48 = code
    (onDie s = false → exec (.linkSignalDetect n) s = .next s ∧ (∀ m, exec (.ident n m) s = .next s) ∧ (∀ c, exec (.wiringNotice n c) s = .next s) ∧
      (∀ l d, exec (.portUp n l d) s = .next s) ∧ exec (.trainingAttemptFail n) s = .next s ∧ exec (.partnerLost n) s = .next s) ∧
    (onDie s = true →
      Completes (.linkSignalDetect n) s (fun t => getPort t n = { p with signal := true } ∧ OnlyPort { s with out := t.out } t n ∧
        t.out = if p.st = 1 ∧ p.signal = false then hello else s.out) ∧
      (∀ m, p.st = 1 → p.signal = true →
        (identCode s n m = 0 → Completes (.ident n m) s (fun t => getPort t n = { p with neighbour := m.addr, identOk := true } ∧ OnlyPort s t n)) ∧
        (identCode s n m ≠ 0 → Completes (.ident n m) s (fun t => down t 4 (identCode s n m) ∧ t.out.getLast? = some (.fab n (.wiring (identCode s n m)))))) ∧
      (∀ m, p.st ≠ 1 ∨ p.signal = false → exec (.ident n m) s = .next s) ∧
      (∀ c, c < 0x3000 → p.st = 1 → Completes (.wiringNotice n c) s (fun t => down t 4 c)) ∧
      (∀ c, portUp p = true → Completes (.wiringNotice n c) s (fun t => t = wiringError s n c)) ∧
      (∀ c, p.st ≠ 1 → portUp p = false → exec (.wiringNotice n c) s = .next s) ∧
      (∀ l d, p.st = 1 → p.signal = true → p.identOk = true → l = 8 ∨ l = 4 →
        let s2 := setPort (setReg s (R.FAB_PORT_PROP n) (BitVec.ofNat 64 (d % 65536))) n { p with
          st := if l = 8 then 2 else 3
          lanes := l
          timedOk := decide (l = 8) && decide (d ≤ 25)
          fails := [] }
        let s3 := if p.crypt then agreeKey s2 n else s2
        let s4 := if l = 4 then fabLog s3 0x602 n else s3
        Completes (.portUp n l d) s (fun t => t = rejoinAll (routeChange s (resetOver (noteWhole (vcStart s4 n) none (portLink s n)) 4 n)))) ∧
      (∀ l d, p.st ≠ 1 ∨ p.signal = false ∨ p.identOk = false ∨ (l ≠ 8 ∧ l ≠ 4) → exec (.portUp n l d) s = .next s) ∧
      (let f := p.fails.filter (fun x => decide (s.clk.time < x + 1000000000)) ++ [s.clk.time]
       (p.st ≠ 1 ∨ p.signal = false → exec (.trainingAttemptFail n) s = .next s) ∧
       (p.st = 1 → p.signal = true → f.length < 3 → Completes (.trainingAttemptFail n) s (fun t =>
         getPort t n = { p with fails := f, identOk := false } ∧ t.out = hello ∧ OnlyPort { s with out := t.out } t n)) ∧
       (p.st = 1 → p.signal = true → 3 ≤ f.length → Completes (.trainingAttemptFail n) s (fun t =>
         getPort t n = { p with st := 5, fails := [], identOk := false } ∧ (∀ k, k ≠ n.val → getPort t k = getPort s k) ∧
         fld (getReg t R.MOD_FAULT_SUM) 63 48 = 0x601))) ∧
      (portUp p = false → Completes (.partnerLost n) s (fun t => getPort t n = { p with signal := false, identOk := false } ∧ OnlyPort s t n)) ∧
      (portUp p = true → Completes (.partnerLost n) s (fun t => t = portDown (fabLog s 0x601 n) n (restState s n) false))) ∧
    (let k := R.FAB_PORT_CTRL n
     let kept := at_ (b2n (v.getLsbD 0)) 0 ||| at_ (b2n (v.getLsbD 2)) 2
     let turned := v.getLsbD 0 ≠ (getReg s k).getLsbD 0
     (mayWrite s fn k = false → exec (.retrain fn n) s = .next s ∧ exec (.portDisable fn n v) s = .next s) ∧
     (mayWrite s fn k = true → Completes (.retrain fn n) s (fun t => t = retrainWrite s n ∧
       (portUp p = false → (getPort t n).st = restState s n ∧ (getPort t n).crypt = (getReg s k).getLsbD 2 ∧
         ∀ v, (getVc (getPort t n) v).replay = (getVc p v).replay))) ∧
     (mayWrite s fn k = true → v.getLsbD 1 = false → ¬ turned → Completes (.portDisable fn n v) s (fun t => getReg t k = kept ∧ OnlyReg s t k)) ∧
     (mayWrite s fn k = true → v.getLsbD 1 = true → ¬ turned → Completes (.portDisable fn n v) s (fun t => t = retrainWrite (setReg s k kept) n)) ∧
     (mayWrite s fn k = true → turned → Completes (.portDisable fn n v) s (fun t =>
       t = portTrain (if v.getLsbD 1 then modPort (setReg s k kept) n (fun p => { p with crypt := v.getLsbD 2 }) else setReg s k kept) n ∧
       (portUp p = false → roleOf s n ≠ 0 → v.getLsbD 0 = true → (getPort t n).st = 5) ∧
       (portUp p = false → roleOf s n ≠ 0 → v.getLsbD 0 = false → fabHeld s = false → (getPort t n).st = 1)))) ∧
    (mayWrite s fn R.FAB_MOD_ADDR = false → exec (.fabModAddrWrite fn v) s = .next s) ∧
    (mayWrite s fn R.FAB_MOD_ADDR = true → (∃ k, k < 12 ∧ portUp (getPort s k) = true) →
      Completes (.fabModAddrWrite fn v) s (fun t => Logged s t 0x60C)) ∧
    (mayWrite s fn R.FAB_MOD_ADDR = true → (∀ k, k < 12 → portUp (getPort s k) = false) →
      Completes (.fabModAddrWrite fn v) s (fun t => ownAddr t = fld v 15 0 ∧ OnlyReg s t R.FAB_MOD_ADDR))

/-- DATA_UNIT, MCAST_UNIT, G1_UNIT, REDUCE_SCATTER_UNIT, ALL_GATHER_UNIT, FINGERPRINT_UNIT, IDLE_UNIT, CONTROL_UNIT, CONTROL_UNIT_SEND,
LINK_REKEY (R247, R248, R252, R256, R258, R259, R265, R267): a link that is not up takes nothing; FEC is counted; a unit whose LEN, CRC or
tag fails arrives damaged; acknowledgements free replay buffers, credits return up to the grant, a NAK replays; a CONTROL unit carries
what stands acknowledged and at most 255 credits a channel; after 2^40 units the ports take a new key. -/
def Obligations.UnitsCrossLinks : Prop :=
  ∀ (s : State) (n : Fin 12) (w : UnitWire) (fec : Nat × Nat),
    let p := getPort s n
    let opened := if fec.2 = 0 then openUnit p w else none
    let z := countUnit s n fec
    let h := headerUnit w.header
    let ph := fun (k : Nat) (u : LinkUnit) => isPhase w u k
    (portLive s n = false → exec (.dataUnit n w fec) s = .next s ∧ exec (.mcastUnit n w fec) s = .next s ∧ exec (.g1Unit n w fec) s = .next s ∧
      exec (.reduceScatterUnit n w fec) s = .next s ∧ exec (.allGatherUnit n w fec) s = .next s ∧ exec (.fingerprintUnit n w.header w.data w.crc fec) s = .next s ∧
      exec (.idleUnit n fec) s = .next s ∧ exec (.controlUnit n w fec) s = .next s ∧ exec (.controlUnitSend n) s = .next s ∧
      exec (.linkRekey n) s = .next s) ∧
    (portLive s n = true →
      Completes (.idleUnit n fec) s (fun t => t = z ∧ (getPort t n).rxCtr = p.rxCtr + 1 ∧
        fld (getReg t (R.FAB_PORT_FEC n)) 31 0 = (fld (getReg s (R.FAB_PORT_FEC n)) 31 0 + fec.1) % 2 ^ 32 ∧
        fld (getReg t (R.FAB_PORT_FEC n)) 63 32 = (fld (getReg s (R.FAB_PORT_FEC n)) 63 32 + fec.2) % 2 ^ 32) ∧
      (opened = none →
        let bad := fun (t : State) => Arrived z t n (h w.data) false
        Completes (.dataUnit n w fec) s bad ∧ Completes (.mcastUnit n w fec) s bad ∧ Completes (.g1Unit n w fec) s bad ∧
        Completes (.reduceScatterUnit n w fec) s bad ∧ Completes (.allGatherUnit n w fec) s bad ∧ Completes (.fingerprintUnit n w.header w.data w.crc fec) s bad ∧
        Completes (.controlUnit n w fec) s (fun t => t = z)) ∧
      (∀ d, opened = some d →
        let good := fun (t : State) => Arrived z t n (h d) true
        (isData w (h d) = true → Completes (.dataUnit n w fec) s good) ∧
        ((h d).mcast = true → (h d).vc = 16 ∨ (h d).vc = 17 → Completes (.mcastUnit n w fec) s good) ∧
        (ph 0 (h d) = true → Completes (.g1Unit n w fec) s good) ∧ (ph 1 (h d) = true → Completes (.reduceScatterUnit n w fec) s good) ∧
        (ph 2 (h d) = true → Completes (.allGatherUnit n w fec) s good) ∧ (ph 3 (h d) = true → Completes (.fingerprintUnit n w.header w.data w.crc fec) s good) ∧
        (isData w (h d) = false → exec (.dataUnit n w fec) s = .next s) ∧ (ph 0 (h d) = false → exec (.g1Unit n w fec) s = .next s) ∧
        (headerType w.header = 1 → d.length = 64 → Completes (.controlUnit n w fec) s (fun t => t = ctrlTake z n (ctrlParse d))) ∧
        (headerType w.header = 1 → d.length = 64 → (∀ v, v < 24 → (getVc p v).txq = []) → (∀ k v, (getVc (getPort s k) v).buf = []) →
          s.fab.mcastQ = [] →
          let u := ctrlParse d
          let new := fun (v : Nat) => let c := getVc p v
            { ackVc c (u.ack.getD v c.txSeq) with credits := min (vcMost v) (c.credits + u.credit.getD v 0) }
          (u.nak = none → Completes (.controlUnit n w fec) s (fun t => (∀ v, v < 24 → getVc (getPort t n) v = new v) ∧
            (∀ v, 24 ≤ v → getVc (getPort t n) v = getVc p v) ∧ (∀ k, k ≠ n.val → getPort t k = getPort s k))) ∧
          (∀ v seq, u.nak = some (v, seq) → v < 20 → (new v).replays < 7 → p.crypt = false →
            let again := (new v).replay.filter (fun e => decide ((e.1 + 4096 - seq) % 4096 < 2048))
            Completes (.controlUnit n w fec) s (fun t => t.out = s.out ++ again.map (fun e => match e.2 with
                | .unit u => Out.unit n (wireUnit p (unitHeader u) u.data)
                | m => .fab n m) ∧
              getVc (getPort t n) v = { new v with replays := (new v).replays + 1 } ∧
              fld (getReg t (R.FAB_PORT_ERR n)) 31 0 = (fld (getReg s (R.FAB_PORT_ERR n)) 31 0 + again.length) % 2 ^ 32)))) ∧
      ((∀ k v, (getVc (getPort s k) v).buf = []) → s.fab.mcastQ = [] →
        let q := (List.range 18).foldl (fun p v => setVc p v (lendVc p v)) p
        let c : CtrlUnit :=
          { ack := ackVec q
            credit := (List.range 24).map (fun v => min 255 (getVc q v).owed)
            nak := none }
        Completes (.controlUnitSend n) s (fun t => t.out = s.out ++ [.unit n (wireUnit p ctrlHeader (ctrlBytes c))] ∧
          (∀ v, v < 24 → getVc (getPort t n) v = { getVc q v with owed := (getVc q v).owed - min 255 (getVc q v).owed }) ∧
          (getPort t n).txCtr = p.txCtr + 1 ∧ (∀ k, k ≠ n.val → getPort t k = getPort s k) ∧
          t = { s with
            fab := { s.fab with ports := t.fab.ports }
            out := t.out })) ∧
      (p.crypt = false ∨ (p.txCtr < 2 ^ 40 ∧ p.rxCtr < 2 ^ 40) → exec (.linkRekey n) s = .next s) ∧
      (p.crypt = true → 2 ^ 40 ≤ p.txCtr ∨ 2 ^ 40 ≤ p.rxCtr → Completes (.linkRekey n) s (fun t =>
        (getPort t n).keyEpoch = p.keyEpoch + 1 ∧ (getPort t n).key = (freshKey s).1 ∧ (getPort t n).txCtr = 0 ∧ (getPort t n).rxCtr = 0 ∧
        (∀ k, k ≠ n.val → getPort t k = getPort s k) ∧
        t = { s with
          fab := { s.fab with ports := t.fab.ports }
          out := t.out
          free := t.free } ∧
        (fabHeld s = false → (getVc p 23).txq = [] → 0 < (getVc p 23).credits → portUp p = true → replayBytes p + 270 ≤ 131072 →
          .fab n (.rekey (p.keyEpoch + 1)) ∈ t.out))))

/-- LINK_DOWN, LINK_UP, E2E_ACK, E2E_ACK_SEND, FAB_E2E_RETRANSMIT, TIMEOUT_HOLD_END (R253, R255, R257, R258, R315, R316): a notice is taken
once and spreads; an acknowledgement for this module frees the units that it covers, another module's goes on; a receiver acknowledges and
advertises; a timeout past its deadline holds its effect for 2,000 ns, and only after them fires. RESERVE, GRANT, REFUSE, RELEASE,
ADMISSION_HOLD_TIMEOUT (R260, R261, R264, R267, R316): each hop holds slots and passes RESERVE on, with its link's encryption; the
destination grants where a timed stream receives, and refuses with its reason else; a GRANT commits, a REFUSE or RELEASE frees, a hold
that is not committed ends after its time. -/
def Obligations.NoticesAcknowledgementsAdmission : Prop :=
  (∀ (s : State) (n : Fin 12) (stream : Nat),
     let e := entryOf s stream
     let r := getRt s stream
     (∀ a d b, portLive s n = false → exec (.linkDown n a d b) s = .next s ∧ exec (.linkUp n a d b) s = .next s) ∧
     (∀ a d b, portLive s n = true →
       let u := noteBroken (took s n 23) (some n) (a, d, b)
       let w := noteWhole (took s n 23) (some n) (a, d, b)
       Completes (.linkDown n a d b) s (fun t => t = routeChange s u ∧
         u.fab.broken = if s.fab.broken.contains (a, d, b) then s.fab.broken else s.fab.broken ++ [(a, d, b)]) ∧
       Completes (.linkUp n a d b) s (fun t => t = routeChange s w ∧ (a, d, b) ∉ w.fab.broken)) ∧
     (∀ up g dst seq free, portLive s n = false → exec (.e2eAck ⟨n, up, g, dst⟩ stream seq free) s = .next s) ∧
     (∀ up dst seq free, portLive s n = true →
       let v := 18 + b2n up
       let z := took s n v
       (dst ≠ ownAddr s → Completes (.e2eAck ⟨n, up, none, dst⟩ stream seq free) s (fun t =>
         t = fabPass z v (some (roleDim (roleOf s n))) (.e2eAck dst stream seq free))) ∧
       (dst = ownAddr s → eEnabled e = false ∨ eFabric e = false ∨ eOut e = false → exec (.e2eAck ⟨n, up, none, dst⟩ stream seq free) s = .next z) ∧
       (dst = ownAddr s → eEnabled e = true → eFabric e = true → eOut e = true → r.flights = [] →
         let k := min (seq - (e.txSeq - r.held.length)) r.held.length
         Completes (.e2eAck ⟨n, up, none, dst⟩ stream seq free) s (fun t => OnlyRt z t stream ∧ getRt t stream = { r with
           held := r.held.drop k
           e2e := { r.e2e with
             advert := free
             lastAdvance := if k = 0 then r.e2e.lastAdvance else some s.clk.time
             held := if k = 0 then r.e2e.held else none } })) ∧
       (∀ g : Fin 128,
         let key := g.val * 16 + n.val
         let u := { z with fab := { z.fab with
           mcastAck := tset (fun _ => 0) s.fab.mcastAck key (max seq (tget (fun _ => 0) s.fab.mcastAck key)) } }
         (mcastMin s g < mcastMin u g → Completes (.e2eAck ⟨n, up, (some g), dst⟩ stream seq free) s (fun t => t = mcastUp u g)) ∧
         (mcastMin u g ≤ mcastMin s g → exec (.e2eAck ⟨n, up, (some g), dst⟩ stream seq free) s = .next u))) ∧
     (let sends := onDie s = true ∧ eEnabled e = true ∧ eFabric e = true ∧ eOut e = false ∧ recovers s stream = false
      (¬ sends → exec (.e2eAckSend stream) s = .next s) ∧
      (∀ g, sends → localGroup s stream = some g → Completes (.e2eAckSend stream) s (fun t => t = mcastUp s g)) ∧
      (sends → localGroup s stream = none → Completes (.e2eAckSend stream) s (fun t => getRt t stream = { r with e2e := { r.e2e with got := 0 } } ∧
        (∀ j, j ≠ stream → getRt t j = getRt s j) ∧
        t = { s with
          fab := t.fab
          out := t.out
          stm := { s.stm with rt := t.stm.rt } }))) ∧
     (let late := fun (x : Nat) => r.e2e.lastAdvance = some x ∧ onDie s = true ∧ eEnabled e = true ∧ eOut e = true ∧ r.held ≠ []
      ((r.e2e.lastAdvance = none ∨ onDie s = false ∨ eEnabled e = false ∨ eOut e = false ∨ r.held = []) →
        exec (.fabE2eRetransmit stream) s = .next s) ∧
      (∀ x, late x → s.clk.time < x + e2eTimeout s → exec (.fabE2eRetransmit stream) s = .next s) ∧
      (∀ x, late x → x + e2eTimeout s ≤ s.clk.time → s.clk.time < x + e2eTimeout s + 2000 → Completes (.fabE2eRetransmit stream) s (fun t =>
        OnlyRt s t stream ∧ getRt t stream = { r with e2e := { r.e2e with held := some s.clk.time } })) ∧
      (∀ x, late x → x + e2eTimeout s + 2000 ≤ s.clk.time → Completes (.fabE2eRetransmit stream) s (fun t => t = e2eFire s stream))) ∧
     (let now := s.clk.time
      let st := (getPart s stream).step
      (∀ k, onDie s = false → exec (.timeoutHoldEnd k stream) s = .next s) ∧
      (∀ x, onDie s = true → r.e2e.lastAdvance = some x →
        (r.e2e.held.isSome = true → x + e2eTimeout s + 2000 ≤ now → Completes (.timeoutHoldEnd 0 stream) s (fun t => t = e2eFire s stream)) ∧
        (r.e2e.held = none ∨ now < x + e2eTimeout s + 2000 → exec (.timeoutHoldEnd 0 stream) s = .next s)) ∧
      (∀ x, onDie s = true → st.deadT0 = some x →
        (st.dlHeld = true → x + 2002000 ≤ now → Completes (.timeoutHoldEnd 1 stream) s (fun t => t = deadFire s stream)) ∧
        (st.dlHeld = false ∨ now < x + 2002000 → exec (.timeoutHoldEnd 1 stream) s = .next s)) ∧
      (∀ x, onDie s = true → watchEnd s stream = some x →
        (stepOpen st = true → st.wdHeld = true → x + 2000 ≤ now → Completes (.timeoutHoldEnd 2 stream) s (fun t => t = watchFire s stream)) ∧
        (stepOpen st = false ∨ st.wdHeld = false ∨ now < x + 2000 → exec (.timeoutHoldEnd 2 stream) s = .next s)) ∧
      (∀ h, onDie s = true → openHold s stream = some h →
        (h.2.due = true → h.2.start + 1002000 ≤ now → Completes (.timeoutHoldEnd 3 stream) s (fun t => t = holdFire s h)) ∧
        (h.2.due = false ∨ now < h.2.start + 1002000 → exec (.timeoutHoldEnd 3 stream) s = .next s)))) ∧
  (∀ (s : State) (port : Option (Fin 12)) (m : AdmMsg),
     let from_ := port.map Fin.val
     let u := match port with | some n => took s n 22 | none => s
     (onDie s = false → exec (.reserve port m) s = .next s ∧ exec (.grant port m) s = .next s ∧ exec (.refuse port m) s = .next s ∧
       exec (.release port m) s = .next s) ∧
     (onDie s = true →
       (m.dst = ownAddr s → recvTimed s m.dstStream = true → Completes (.reserve port m) s (fun t => t = admitBack u from_ (.grant m))) ∧
       (m.dst = ownAddr s → recvTimed s m.dstStream = false → Completes (.reserve port m) s (fun t =>
         t = admitBack u from_ (.refuse { m with reason := 4 }))) ∧
       (m.dst ≠ ownAddr s → 16 ≤ m.hops → Completes (.reserve port m) s (fun t =>
         t = admitBack u from_ (.refuse { m with hops := m.hops + 1, reason := 3 }))) ∧
       (∀ r, m.dst ≠ ownAddr s → m.hops < 16 → slotPort u m.dst m.slots = .inr r → Completes (.reserve port m) s (fun t =>
         t = admitBack u from_ (.refuse { m with hops := m.hops + 1, reason := r }))) ∧
       (∀ n, m.dst ≠ ownAddr s → m.hops < 16 → slotPort u m.dst m.slots = .inl n → Completes (.reserve port m) s (fun t =>
         let x := { m with hops := m.hops + 1, crypt := m.crypt || (getPort u n).crypt }
         t = portTx (holdSlots u n m.slots x from_) n 22 (.reserve x) ∧
         (∃ h, t.fab.holds = s.fab.holds ++ [(n, h)] ∧ h.adm = x ∧ h.fromPort = from_ ∧ h.committed = false ∧ h.start = s.clk.time ∧
           (getPort t n).slots = (getPort s n).slots ++ h.slots))) ∧
       (findHold s m = none → exec (.grant port m) s = .next u ∧ exec (.refuse port m) s = .next u ∧ exec (.release port m) s = .next u) ∧
       (∀ h, findHold s m = some h →
         let freed := fun (t : State) => h ∉ t.fab.holds
         (m.src ≠ ownAddr s → Completes (.grant port m) s (fun t => t = admitBack (commitHold u h m) h.2.fromPort (.grant m) ∧
           (h.1, { h.2 with adm := m, committed := true, due := false }) ∈ t.fab.holds)) ∧
         (m.src = ownAddr s → Completes (.grant port m) s (fun t => t = grantHere (commitHold u h m) m)) ∧
         (m.src ≠ ownAddr s → Completes (.refuse port m) s (fun t => t = admitBack (dropHold u h) h.2.fromPort (.refuse m) ∧ freed t)) ∧
         (m.src = ownAddr s → Completes (.refuse port m) s (fun t =>
           t = if h.2.committed then suspend (dropHold u h) m.srcStream else refuseHere (dropHold u h) m)) ∧
         Completes (.release port m) s (fun t => t = portTx (dropHold u h) h.1 22 (.release m) ∧ freed t))) ∧
     (∀ n : Fin 12,
       (openHold s n = none → exec (.admissionHoldTimeout n) s = .next s) ∧
       (∀ h, openHold s n = some h →
         (onDie s = false ∨ s.clk.time < h.2.start + 1000000 → exec (.admissionHoldTimeout n) s = .next s) ∧
         (onDie s = true → h.2.start + 1000000 ≤ s.clk.time → s.clk.time < h.2.start + 1002000 → Completes (.admissionHoldTimeout n) s (fun t =>
           (h.1, { h.2 with due := true }) ∈ t.fab.holds ∧ t.fab.holds.length = s.fab.holds.length ∧ t = { s with fab := { s.fab with holds := t.fab.holds } })) ∧
         (onDie s = true → h.2.start + 1002000 ≤ s.clk.time → Completes (.admissionHoldTimeout n) s (fun t => t = holdFire s h ∧
           (h.2.adm.src ≠ ownAddr s → h ∉ t.fab.holds))))))

/-- FEED_WRITE, ENC_RECORD, G1_UNIT, REDUCE_SCATTER_UNIT, ALL_GATHER_UNIT, FINGERPRINT_UNIT, REDUCTION_CREDIT, GRX_PART_BLOCKS_WRITE (R271,
R273, R277 to R284): records are written for a group whose step runs, at most 64 at a time; an ENC record enters dimension 0 and its
residues go to the other bank; a unit of another step is sunk, one that no schedule expects breaks the group, and every unit's credit
returns; a fingerprint is compared; a credit returns up to 2,048; block ranges change under an idle partition, in legal places. -/
def Obligations.ExchangeMoves : Prop :=
  ∀ (s : State) (slot : Fin 16) (n : Fin 12),
    let idle := fun (i : Instr) => exec i s = .next s
    (getGrp s slot = none → idle (.feedWrite slot) ∧ idle (.encRecord slot)) ∧
    (∀ g, getGrp s slot = some g →
      (onDie s = false ∨ grpRuns s g = false → idle (.feedWrite slot) ∧ idle (.encRecord slot)) ∧
      (onDie s = true → grpRuns s g = true →
        (g.feedNext = g.blocks ∨ engineRoom s g.feed = false → idle (.feedWrite slot)) ∧
        (g.feedNext < g.blocks → engineRoom s g.feed = true →
          let m := min 64 (g.blocks - g.feedNext)
          let r := feedRecords m s g g.feedNext
          let e := entryOf r.2.2 g.feed
          let s1 := feedPoison (engineProduce r.2.2 g.part g.feed r.1) g (ringDesc r.2.2 g.part e e.producer []).stack g.feedNext r.2.1
          Completes (.feedWrite slot) s (fun t => t = feedPump (g.blocks / 64) (modGrp s1 slot (fun g => { g with feedNext := g.feedNext + m })) slot)) ∧
        ((getRt s g.enc).flights.find? (fun f => !f.fin) = none → idle (.encRecord slot)) ∧
        (∀ f, (getRt s g.enc).flights.find? (fun f => !f.fin) = some f → f.desc.len % 144 = 0 → f.used + 144 ≤ f.desc.len → g.encNext < g.blocks →
          let r := relRead s g.part (f.desc.stack + f.used) 144
          let u := modFlight (encEnter r.2.2 slot (fitTo 144 r.1) r.2.1 true) g.enc f.idx (fun f => { f with used := f.used + 144 })
          Completes (.encRecord slot) s (fun t =>
            t = grxMove (if f.used + 144 = f.desc.len then flightEnd u g.enc f.idx 0 f.desc.len else u) slot)))) ∧
    (∀ (w : UnitWire) (fec : Nat × Nat) (d : List Byte), portLive s n = true → (if fec.2 = 0 then openUnit (getPort s n) w else none) = some d →
      let u := headerUnit w.header d
      let v := u.vc
      let y := modVc (countUnit s n fec) n v (fun c => { c with rxSeq := (c.rxSeq + 1) % 4096, nak := false, buf := [u] })
      let x := grxUnit y n u
      let sunk := fun (t : State) => t = modVc x n v (fun c => { c with buf := [], owed := c.owed + 1 })
      let dim := bits u.eseq 13 12
      let r := roleOf s n
      u.lseq = (getVc (getPort s n) v).rxSeq → (getVc (getPort s n) v).buf = [] →
        (isPhase w u 0 = true → Completes (.g1Unit n w fec) s sunk) ∧ (isPhase w u 1 = true → Completes (.reduceScatterUnit n w fec) s sunk) ∧
        (isPhase w u 2 = true → Completes (.allGatherUnit n w fec) s sunk) ∧ (isPhase w u 3 = true → Completes (.fingerprintUnit n w.header w.data w.crc fec) s sunk) ∧
        (getGrp s v = none → x = y) ∧
        (∀ g, getGrp s v = some g →
          let mine := u.dst = ownAddr s ∧ (grpDims g)[dim]? = some (roleDim r)
          (grpRuns s g = false ∨ bits u.eseq 11 1 ≠ g.step % 2048 → x = y) ∧
          (grpRuns s g = true → bits u.eseq 11 1 = g.step % 2048 →
            (¬ mine → x = grxBroken y v) ∧
            (mine → bits u.eseq 15 14 = 3 → u.data.length ≠ 8 ∨ rolePlus r = true ∨ fpExpects y g dim = false → x = grxBroken y v) ∧
            (mine → bits u.eseq 15 14 = 3 → u.data.length = 8 → rolePlus r = false → fpExpects y g dim = true →
              x = modGrp y v (fun g => fpCompare { g with fpGot := tset (fun _ => none) g.fpGot dim (some (leAt u.data 0 8)) })) ∧
            (mine → bits u.eseq 15 14 < 3 → gParse u = none → x = grxBroken y v) ∧
            (∀ q, mine → bits u.eseq 15 14 < 3 → gParse u = some q →
              let kind := if q.phase = 2 then 1 else 0
              let plus := !rolePlus r
              let k0 := q.block - blockOf y g 0
              let ks := (List.range q.recs.length).map (fun i => k0 + i)
              let fits := q.dim < (grpDims g).length ∧ blockOf y g 0 ≤ q.block ∧ ∀ k ∈ ks, k < g.blocks ∧ expects y g kind q.dim k plus = true ∧
                (kind = 1 ∨ (q.phase = 0 ↔ q.dim = 0 ∧ pathPos y g q.dim k plus = 1))
              (¬ fits → x = grxBroken y v) ∧
              (fits → x = grxMove (q.recs.zipIdx.foldl (fun s r =>
                  if kind = 0 then scatterIn s v q.dim plus (k0 + r.2) r.1 else gatherIn s v q.dim plus (k0 + r.2) r.1)
                (modGrp y v (fun g => { g with units := g.units ++ [(n.val, flowKey kind q.dim plus, ks)] }))) v))))) ∧
    (∀ d b k,
      (portLive s n = false → idle (.reductionCredit n slot d b k)) ∧
      (portLive s n = true →
        let y := took s n (nextVc s 18 none n)
        (getGrp s slot = none → exec (.reductionCredit n slot d b k) s = .next y) ∧
        (∀ g, getGrp s slot = some g → Completes (.reductionCredit n slot d b k) s (fun t =>
          let u := modGrp y slot (fun x => { x with credits := tset (fun _ => 2048) x.credits (dirKey d b) (min 2048 (credOf g d b + k)) })
          t = grxMove u slot ∧ ∃ x, getGrp u slot = some x ∧ credOf x d b = min 2048 (credOf g d b + k))))) ∧
    (∀ (fn : Fin 18) (p : Fin 16) (v : W64),
      let off := R.GRX_PART_BLOCKS p
      let busy := (∃ e ∈ (getPart s p).progs, e.2.isSome = true) ∨ (getPart s p).loading.isSome = true
      (mayWrite s fn off = false ∨ fn.val ≠ 0 → idle (.grxPartBlocksWrite fn p v)) ∧
      (mayWrite s fn off = true → fn.val = 0 → busy ∨ blocksLegal s p (fld v 21 0) (fld v 53 32) = false →
        Completes (.grxPartBlocksWrite fn p v) s (fun t => Logged s t 0x70B)) ∧
      (mayWrite s fn off = true → fn.val = 0 → ¬ busy → blocksLegal s p (fld v 21 0) (fld v 53 32) = true →
        Completes (.grxPartBlocksWrite fn p v) s (fun t => partBlocks t p = (fld v 21 0, fld v 53 32) ∧ OnlyReg s t off)))

/-- READY, SEND_READY, SEAL, SEAL_ACK, ABORT, DECISION_ACK, DECISION_QUERY, DECISION_ANSWER, REJOIN_COPY_DONE (R253, R289 to R297): a message
for another module goes on, and without a running program, or over a link that is down, none has an effect; a child's report is merged
once, the root decides on it, a failure goes on at once; the backup keeps PENDING_SEAL and acknowledges; the root seals on that; a
decision is forwarded, acknowledged and applied once; a query is answered with what this module knows; an answer ends the rejoin, which
without a record begins a copy; a copy's end restores the epoch and the program goes on. The free OUTCOME of an answer that aborts is log
57. -/
def Obligations.StepsAreSealed : Prop :=
  ∀ (s : State) (n : Fin 12) (dst src : Nat) (p : Fin 16) (step reason epoch now : Nat) (asked : Option Nat) (m : ReadyMsg) (d : Decision)
    (bs : List Byte),
    let each := fun (P : Instr → SealMsg → Prop) => P (.ready ⟨n, dst, p⟩ src m) (.ready m) ∧ P (.sealStep ⟨n, dst, p⟩ src step) (.decideSeal step) ∧
      P (.sealAck ⟨n, dst, p⟩ ⟨src, step⟩) (.sealAck step) ∧ P (.abort ⟨n, dst, p⟩ src ⟨step, reason⟩) (.abort step reason) ∧
      P (.decisionAck ⟨n, dst, p⟩ src step) (.decAck step) ∧ P (.decisionQuery ⟨n, dst, p⟩ src asked) (.query asked) ∧
      P (.decisionAnswer ⟨n, dst, p⟩ src step ⟨d, epoch, now⟩) (.answer step d epoch now)
    let z := took s n 22
    let a := ownAddr s
    (portLive s n = false → each (fun i _ => exec i s = .next s)) ∧
    (portLive s n = true → dst ≠ a → each (fun i y => exec i s = .next (fabPass z 22 (some (roleDim (roleOf s n))) (.sealing dst src p y)))) ∧
    (portLive s n = true → dst = a → (getPart s p).cur = none → each (fun i _ => exec i s = .next z)) ∧
    (onDie s = false ∨ (getPart s p).cur = none → exec (.sendReady p) s = .next s ∧ exec (.rejoinCopyDone p bs) s = .next s) ∧
    (onDie s = true → Completes (.sendReady p) s (fun t => t = tryReady s p)) ∧
    (∀ k, (getPart s p).cur = some k →
      let key := sealKey p k
      let x := getSeal s key
      let ds := sealDims x.dims
      (portLive s n = true → dst = a →
        (let new := x.heard.contains src = false ∨ m.failed = true
         let open_ := (getPart s p).step.active = true ∧ m.step = x.recStep ∧ undecidedYet x = true
         let s1 := modSeal (takeReady z key m) key (fun x => { x with heard := x.heard ++ [src] })
         (¬ new → exec (.ready ⟨n, dst, p⟩ src m) s = .next z) ∧
         (new → x.recStep < m.step → Completes (.ready ⟨n, dst, p⟩ src m) s (fun t => OnlySeal z t key ∧
           getSeal t key = { x with early := x.early ++ [(src, m)] })) ∧
         (new → m.step ≤ x.recStep → ¬ open_ → exec (.ready ⟨n, dst, p⟩ src m) s = .next z) ∧
         (new → open_ →
           ((getSeal s1 key).merged = some (match x.merged with | some y => mergeReady y m | none => m) ∧ (getSeal s1 key).heard = x.heard ++ [src]) ∧
           (decides s1 x = true → Completes (.ready ⟨n, dst, p⟩ src m) s (fun t => t = rootDecide s1 p k)) ∧
           (decides s1 x = false → m.failed = true → x.sent = true → Completes (.ready ⟨n, dst, p⟩ src m) s (fun t =>
             t = sealSend s1 p (readyTo s1 x) (.ready m))) ∧
           (decides s1 x = false → m.failed = true → x.sent = false → Completes (.ready ⟨n, dst, p⟩ src m) s (fun t => t = sendUp s1 p k)) ∧
           (decides s1 x = false → m.failed = false → Completes (.ready ⟨n, dst, p⟩ src m) s (fun t => t = tryReady s1 p)))) ∧
        (let first := backupOf z ds a = a ∧ src = rootOf ds a ∧ step = x.recStep ∧ x.st = .readySent ∧ x.recBad = false
         (first → Completes (.sealStep ⟨n, dst, p⟩ src step) s (fun t => getSeal t key = { x with st := .pendingSeal } ∧
           (∀ j, j ≠ key → getSeal t j = getSeal s j) ∧
           t = sealSend (modRec z key (fun x => { x with st := .pendingSeal })) p (rootOf ds a) (.sealAck step))) ∧
         (¬ first → Completes (.sealStep ⟨n, dst, p⟩ src step) s (fun t =>
           t = takeDecision z p k step (.decideSeal step) (fun s => applySeal s p k)))) ∧
        (x.waitBackup = true → step = x.recStep → Completes (.sealAck ⟨n, dst, p⟩ ⟨src, step⟩) s (fun t => t = issueSeal z p k)) ∧
        (x.waitBackup = false ∨ step ≠ x.recStep → exec (.sealAck ⟨n, dst, p⟩ ⟨src, step⟩) s = .next z) ∧
        Completes (.abort ⟨n, dst, p⟩ src ⟨step, reason⟩) s (fun t =>
          t = takeDecision z p k step (.abort step reason) (fun s => applyAbort s p k reason)) ∧
        (x.recBad = false → (step ≠ x.recStep ∨ undecidedYet x = false) → Completes (.abort ⟨n, dst, p⟩ src ⟨step, reason⟩) s (fun t =>
          t = sealSend z p (parentOf z ds a) (.decAck step))) ∧
        (let done := if undecidedYet x then x.recStep - 1 else x.recStep
         (step = done → Completes (.decisionAck ⟨n, dst, p⟩ src step) s (fun t => OnlySeal z t key ∧
           getSeal t key = { x with unacked := x.unacked.filter (fun c => c != src) })) ∧
         (step ≠ done → exec (.decisionAck ⟨n, dst, p⟩ src step) s = .next z)) ∧
        (x.recBad = true → exec (.decisionQuery ⟨n, dst, p⟩ src asked) s = .next z) ∧
        (x.recBad = false →
          let y := asked.getD x.recStep
          Completes (.decisionQuery ⟨n, dst, p⟩ src asked) s (fun t =>
            t = sealSend z p src (.answer y (knownDecision x y) (epochNow z p) x.recStep))) ∧
        (let asks := x.rejoin = true ∨ x.undecided = true
         let lost := modSeal z key (fun x => { x with rejoin := false })
         let u := modSeal z key (fun x => { x with rejoin := false, sitOut := if step < now then some now else none })
         (¬ asks → exec (.decisionAnswer ⟨n, dst, p⟩ src step ⟨d, epoch, now⟩) s = .next z) ∧
         (asks → x.recBad = true → Completes (.decisionAnswer ⟨n, dst, p⟩ src step ⟨d, epoch, now⟩) s (fun t => t = answerLost lost p k step d epoch)) ∧
         (asks → x.recBad = true → d = .undecided → Completes (.decisionAnswer ⟨n, dst, p⟩ src step ⟨d, epoch, now⟩) s (fun t =>
           getSeal t key = { x with rejoin := false, recStep := step, undecided := true } ∧ (∀ j, j ≠ key → getSeal t j = getSeal s j))) ∧
         (asks → x.recBad = false → step ≠ x.recStep → exec (.decisionAnswer ⟨n, dst, p⟩ src step ⟨d, epoch, now⟩) s = .next z) ∧
         (asks → x.recBad = false → step = x.recStep →
           (d = .sealed → (x.st = .readySent ∨ x.st = .pendingSeal) → Completes (.decisionAnswer ⟨n, dst, p⟩ src step ⟨d, epoch, now⟩) s (fun t =>
             t = applySeal u p k)) ∧
           (d = .aborted → Completes (.decisionAnswer ⟨n, dst, p⟩ src step ⟨d, epoch, now⟩) s (fun t =>
             ∃ code, code < 65536 ∧ t = applyAbort { u with free := s.free + 1 } p k code)) ∧
           (d = .undecided → x.st = .none → Completes (.decisionAnswer ⟨n, dst, p⟩ src step ⟨d, epoch, now⟩) s (fun t =>
             t = sendFailed u p k 0x705 a))))) ∧
      (x.copying = false → exec (.rejoinCopyDone p bs) s = .next s) ∧
      (∀ g, onDie s = true → curProg s p = some g → x.copying = true → Completes (.rejoinCopyDone p bs) s (fun t => ∃ w, t = stepBoundary w p ∧
        getSeal w key = { x with copying := false, recBad := false, st := .flipped } ∧
        (getReg w (R.GRX_EPOCH p)).toNat = x.recEpoch % 2 ^ 64 ∧ (∃ h, curProg w p = some h ∧ h.epoch = x.recEpoch) ∧ w.cores = s.cores)))

/-- ZONE_STRETCH, SLOW_LOOP, ZONE_SLEW_STEP, ZONE_LOCK_LOST, RELOCK, REF_LOST (R320 to R325, R338, R350): a margin of 4 or less stretches by
two cycles and alerts, one of 8 or less by one; the slow loop lowers the target by 10 MHz after an alert or many stretches, raises it
after ten quiet intervals, within 300 MHz and F_max; the applied frequency moves by 10 MHz toward the target, with the rail's voltage
before it on the way up; a zone that has lost lock runs at 425 MHz until a relock; a zone changes no other. -/
def Obligations.ZonesRun : Prop :=
  ∀ (s : State) (z : Fin 16),
    let x := getZone s z
    let only := fun (t : State) => ∀ j, j ≠ z.val → getZone t j = getZone s j
    (onDie s = false → (∀ m c, exec (.zoneStretch z m c) s = .next s) ∧ exec (.slowLoop z) s = .next s ∧ exec (.zoneSlewStep z) s = .next s ∧
      exec (.zoneLockLost z) s = .next s) ∧
    (onDie s = true →
      (∀ m c, c < 64 → let k := if c ≤ 4 then 2 else if c ≤ 8 then 1 else 0
        Completes (.zoneStretch z m c) s (fun t => only t ∧ getZone t z = { x with
            alert := x.alert || decide (c ≤ 4)
            warn := x.warn || decide (c < 16)
            stretched := x.stretched + k
            owed := x.owed + 1000 * k } ∧
          fld (getReg t (R.CLK_ZONE_STRETCH z)) 31 0 = (fld (getReg s (R.CLK_ZONE_STRETCH z)) 31 0 + k) % 2 ^ 32 ∧
          (c < fld (getReg s (R.CLK_ZONE_MARGIN z)) 5 0 → fld (getReg t (R.CLK_ZONE_MARGIN z)) 5 0 = c ∧
            fld (getReg t (R.CLK_ZONE_MARGIN z)) 12 8 = m % 32) ∧
          (4 < c → t = { s with
            regs := t.regs
            clk := { s.clk with zones := t.clk.zones } }))) ∧
      (x.bypass = true → exec (.slowLoop z) s = .next s) ∧
      (x.bypass = false →
        let t0 := target s z
        let down := x.alert = true ∨ 80 * x.applied < 256 * x.stretched
        let good := if x.stretched = 0 ∧ x.warn = false then x.good + 1 else 0
        let new := fun (t : State) (f : Nat) => only t ∧ getZone t z = { x with target := f, alert := false, warn := false, stretched := 0, good := good }
        (down → Completes (.slowLoop z) s (fun t => new t (max 300 (t0 - 10)) ∧ (x.alert = true → t0 = 300 → fld (getReg t R.MOD_FAULT_SUM) 63 48 = 0x205))) ∧
        (¬ down → 10 ≤ good → Completes (.slowLoop z) s (fun t => new t (min (max 300 (fMax s z)) (t0 + 10)) ∧ OnlyZone s t z)) ∧
        (¬ down → good < 10 → Completes (.slowLoop z) s (fun t => new t t0 ∧ OnlyZone s t z))) ∧
      (x.bypass = true → Completes (.zoneSlewStep z) s (fun t => OnlyZone s t z ∧ getZone t z = { x with mv := slewMv x.mv (zoneMv s z 430) })) ∧
      (x.bypass = false → x.locked = false ∨ s.clk.refOk = false → exec (.zoneSlewStep z) s = .next s) ∧
      (x.bypass = false → x.locked = true → s.clk.refOk = true →
        let t0 := target s z
        let f := if x.applied < t0 then min t0 (x.applied + 10) else max t0 (x.applied - 10)
        let v := slewMv x.mv (zoneMv s z f)
        Completes (.zoneSlewStep z) s (fun t => OnlyZone s t z ∧ getZone t z = { x with
          target := t0
          mv := v
          applied := if x.applied < t0 ∧ v < zoneMv s z f then x.applied else f })) ∧
      (x.locked = false → exec (.zoneLockLost z) s = .next s) ∧
      (x.locked = true → Completes (.zoneLockLost z) s (fun t => only t ∧ getZone t z = { x with locked := false, bypass := true, applied := 425 } ∧
        Logged { s with clk := t.clk } t 0x202))) ∧
    (∀ fn : Fin 18, (mayWrite s fn (R.CLK_ZONE_CTRL z) = false ∨ x.bypass = false → exec (.relock fn z) s = .next s) ∧
      (mayWrite s fn (R.CLK_ZONE_CTRL z) = true → x.bypass = true → Completes (.relock fn z) s (fun t => OnlyZone s t z ∧
        getZone t z = { x with
          locked := true
          bypass := false
          target := target s z
          applied := target s z
          mv := max x.mv (zoneMv s z (target s z)) }))) ∧
    (onDie s = false ∨ s.clk.refOk = false → Completes .refLost s (fun t => t = { s with clk := { s.clk with refOk := false } })) ∧
    (onDie s = true → s.clk.refOk = true → Completes .refLost s (fun t => Logged { s with clk := { s.clk with refOk := false } } t 0x201))

/-- EPOCH_PULSE, SYNC_IN_MISSED, SYNC_OUT_PULSE, CLK_TIME_SEED_WRITE, TIME_MESSAGE_SEND, TIME_MESSAGE, CLK_SYNC_LOST, FLUSH_COMPLETE (R325,
R332 to R336, R338): a seeded TIME locks at the pulse, a locked one slews its offset out; a seed is taken until then; the second missed
pulse turns to GPX0 where TIME_SYNC_AUX owns it; a master marks SYNC_OUT; messages go to the parent, which stamps and answers, and the
answer corrects a locked TIME; a boundary opens when both sides have flushed. -/
def Obligations.TimeKeeps : Prop :=
  ∀ (s : State),
    let c := s.clk
    (onDie s = false → exec .epochPulse s = .next s ∧ exec .syncInMissed s = .next s ∧ exec .syncOutPulse s = .next s ∧
      exec .timeMessageSend s = .next s ∧ exec .clkSyncLost s = .next s) ∧
    (onDie s = true →
      let heard := { c with aux := false, lastPulse := some c.time, missed := 0 }
      let o := pulseOffset s
      (c.tst = .free → Completes .epochPulse s (fun t => t = { s with clk := heard })) ∧
      (c.tst = .seeded → Completes .epochPulse s (fun t => t.clk.tst = .locked ∧ t.clk.time = c.seed + syncDelay s ∧ t.clk.debt = 0 ∧
        Logged { s with clk := t.clk } t 0x208)) ∧
      (c.tst = .locked → c.refOk = false ∨ (msgsCurrent s = true ∧ 1000 < o.natAbs) → Completes .epochPulse s (fun t => t = { s with clk := heard })) ∧
      (c.tst = .locked → c.refOk = true → (msgsCurrent s = false ∨ o.natAbs ≤ 1000) → Completes .epochPulse s (fun t =>
        t = { s with clk := { heard with debt := o, offset := o } })) ∧
      Completes .syncInMissed s (fun t => t = { s with clk := { c with missed := c.missed + 1, aux := c.aux || (decide (1 ≤ c.missed) && ownedBy s 0 1) } }) ∧
      Completes .syncOutPulse s (fun t => t = { s with out := if (getReg s R.CLK_TIME_CTRL).getLsbD 0 then s.out ++ [.pin 2 true, .pin 2 false] else s.out }) ∧
      ((getReg s R.CLK_TIME_CTRL).getLsbD 1 = false ∨ timeParent s = none → exec .timeMessageSend s = .next s) ∧
      (∀ d, (getReg s R.CLK_TIME_CTRL).getLsbD 1 = true → timeParent s = some d →
        ((dirUp s d.1 d.2).head? = none → exec .timeMessageSend s = .next s) ∧
        (∀ n, (dirUp s d.1 d.2).head? = some n → Completes .timeMessageSend s (fun t => t = portTx s n 22 (.time c.time none)))) ∧
      (let gone := fun (x : Option Nat) => ∀ y, x = some y → y + 10000000 ≤ c.time
       (c.tst = .locked → gone c.lastPulse → gone c.lastMsg → Completes .clkSyncLost s (fun t => Logged s t 0x207)) ∧
       (c.tst ≠ .locked ∨ ¬ gone c.lastPulse ∨ ¬ gone c.lastMsg → exec .clkSyncLost s = .next s))) ∧
    (∀ (fn : Fin 18) (v : W64), (mayWrite s fn R.CLK_TIME_SEED = false ∨ c.tst = .locked → exec (.clkTimeSeedWrite fn v) s = .next s) ∧
      (mayWrite s fn R.CLK_TIME_SEED = true → c.tst ≠ .locked → Completes (.clkTimeSeedWrite fn v) s (fun t =>
        t = { s with clk := { c with tst := .seeded, seed := v.toNat } }))) ∧
    (∀ (n : Fin 12) (t1 : Nat) (t2 : Option Nat) (t3 prop : Nat),
      let on := portLive s n = true ∧ (getReg s R.CLK_TIME_CTRL).getLsbD 1 = true
      let mine := ∃ d, timeParent s = some d ∧ n.val ∈ dirUp s d.1 d.2
      let u := took s n 22
      (portLive s n = false → exec (.timeMessage n t1 t2 t3 prop) s = .next s) ∧
      (portLive s n = true → (getReg s R.CLK_TIME_CTRL).getLsbD 1 = false → exec (.timeMessage n t1 t2 t3 prop) s = .next u) ∧
      (on → t2 = none → Completes (.timeMessage n t1 t2 t3 prop) s (fun t =>
        t = portTx u n 22 (.time t1 (some { t2 := c.time, t3 := c.time, prop := portProp s n })))) ∧
      (∀ x, on → t2 = some x →
        let o := msgOffset t1 c.time (portProp s n) { t2 := x, t3 := t3, prop := prop }
        let big := if 20 < o.natAbs then c.bigMsgs + 1 else 0
        (¬ mine → exec (.timeMessage n t1 t2 t3 prop) s = .next u) ∧
        (mine → c.tst = .free → Completes (.timeMessage n t1 t2 t3 prop) s (fun t =>
          t = { u with clk := { c with lastMsg := some c.time, tst := .seeded, seed := (t3 / 1048576 + 1) * 1048576 } })) ∧
        (mine → c.tst = .seeded → Completes (.timeMessage n t1 t2 t3 prop) s (fun t => t = { u with clk := { c with lastMsg := some c.time } })) ∧
        (mine → c.tst = .locked → big ≠ 10 → Completes (.timeMessage n t1 t2 t3 prop) s (fun t =>
          t = { u with clk := { c with lastMsg := some c.time, bigMsgs := big, debt := -o, offset := o } })) ∧
        (mine → c.tst = .locked → big = 10 → Completes (.timeMessage n t1 t2 t3 prop) s (fun t =>
          t.clk = { c with lastMsg := some c.time, bigMsgs := 10, debt := -o, offset := o, unaligned := true } ∧ Logged { u with clk := t.clk } t 0x206)))) ∧
    (∀ b,
      let set := fun (i : Nat) => tget (fun _ => false) c.bounds i
      (onDie s = false ∨ set b = false → exec (.flushComplete b) s = .next s) ∧
      (onDie s = true → set b = true →
        let u := { s with clk := { c with bounds := tset (fun _ => false) c.bounds b false } }
        (256 ≤ b → b < 268 → Completes (.flushComplete b) s (fun t => t = vcStart u (b - 256) ∧ tget (fun _ => false) t.clk.bounds b = false)) ∧
        (b < 256 → set (b + 512) = true → Completes (.flushComplete b) s (fun t => t = u)) ∧
        (b < 256 → set (b + 512) = false → Completes (.flushComplete b) s (fun t => t = resetOver u 3 b ∧ resetRuns t 3 b = false)) ∧
        (512 ≤ b → b < 768 → set (b - 512) = true → Completes (.flushComplete b) s (fun t => t = u)) ∧
        (512 ≤ b → b < 768 → set (b - 512) = false → Completes (.flushComplete b) s (fun t => t = resetOver u 3 (b - 512)))))

/-- SUPPLY_HIGH, SUPPLY_THROTTLE, SUPPLY_NORMAL, SUPPLY_STOP, RETENTION_ENTER, SUPPLY_RIDE_THROUGH, HOLDUP_DEPLETED, INRUSH_FAULT,
INRUSH_RETRY (R339 to R344, R421, R425): a voltage of a band sets its state; the throttle closes the gates to 2 of 16 and stops the drone;
below 36 V the orderly stop begins and is logged; it ends in retention, or in the commanded state with a held reset taken; a supply back
at 42 V restarts the die over the stack; a depleted bank loses the stack's contents. -/
def Obligations.SupplyBands : Prop :=
  ∀ (s : State) (mv : Nat),
    let set := { s with pwr := { s.pwr with mv := mv } }
    let off := fun (t : State) (x : State) (ph : Phase) => t = { x with phase := ph, host := { x.host with width := 0, rate := 0, half := 0 } }
    (supplied s = false ∨ 2 < s.pwr.band → exec (.supplyHigh mv) s = .next s ∧ exec (.supplyThrottle mv) s = .next s ∧ exec (.supplyNormal mv) s = .next s) ∧
    (mv < 60000 ∨ 66000 < mv → exec (.supplyHigh mv) s = .next s) ∧
    (mv < 36000 ∨ 40000 ≤ mv → exec (.supplyThrottle mv) s = .next s) ∧
    (backToNormal s.pwr.band mv = false → exec (.supplyNormal mv) s = .next s) ∧
    (backToNormal s.pwr.band mv = true ↔ 40000 ≤ mv ∧ mv < 60000 ∧ (s.pwr.band = 2 → 42000 ≤ mv) ∧ (s.pwr.band = 1 → mv ≤ 59000)) ∧
    (supplied s = true → s.pwr.band ≤ 2 →
      (60000 ≤ mv → mv ≤ 66000 → Completes (.supplyHigh mv) s (fun t => t.pwr = { s.pwr with mv := mv, band := 1 } ∧ t.phase = s.phase ∧
        (ownedBy s 1 6 = true → (getGpx t 1).high = false) ∧ t.stack = s.stack ∧ t.cores = s.cores)) ∧
      (36000 ≤ mv → mv < 40000 → Completes (.supplyThrottle mv) s (fun t => t.pwr.band = 2 ∧ t.pwr.mv = mv ∧ t.pwr.droneW = 0 ∧ t.pwr.floorW = 0 ∧
        (∀ z, z < 16 → getGate t z = min 2 (getGate s z)) ∧ (s.pwr.band ≠ 2 → fld (getReg t R.MOD_FAULT_SUM) 63 48 = 0x301) ∧ t.phase = s.phase ∧
        (ownedBy s 1 6 = true → (getGpx t 1).high = true) ∧ (s.pwr.band = 2 → t.flog = s.flog))) ∧
      (backToNormal s.pwr.band mv = true → Completes (.supplyNormal mv) s (fun t => t.pwr = { s.pwr with mv := mv, band := 0 } ∧
        (ownedBy s 1 6 = true → (getGpx t 1).high = false) ∧
        t = { s with pwr := t.pwr, regs := t.regs, msix := t.msix, host := t.host, out := t.out, gpx := t.gpx }))) ∧
    (36000 ≤ mv → mv ≤ 66000 → exec (.supplyStop mv) s = .next s) ∧
    (mv < 36000 ∨ 66000 < mv →
      (s.phase = .off ∨ s.phase = .retention → exec (.supplyStop mv) s = .next s) ∧
      (s.phase = .stopped ∨ s.phase = .tripped ∨ s.phase = .failed → Completes (.supplyStop mv) s (fun t => off t set .retention)) ∧
      (s.phase = .charging ∨ s.phase = .inrushWait → Completes (.supplyStop mv) s (fun t => off t set .off)) ∧
      (s.phase = .stopping → Completes (.supplyStop mv) s (fun t => t = { s with pwr := { s.pwr with mv := mv, commanded := false } })) ∧
      (railsOn s = true → s.phase ≠ .stopping → Completes (.supplyStop mv) s (fun t => t.phase = .stopping ∧ t.pwr.commanded = false ∧ t.pwr.band = 3 ∧
        t.pwr.droneW = 0 ∧ (∀ z, z < 16 → getGate t z = 0) ∧ fld (getReg t R.MOD_FAULT_SUM) 63 48 = 0x302 ∧ t.flog.opens = [] ∧ t.cores = s.cores))) ∧
    (s.phase ≠ .stopping → exec .retentionEnter s = .next s) ∧
    (s.phase = .stopping → s.pwr.commanded = false → Completes .retentionEnter s (fun t => off t s .retention)) ∧
    (s.phase = .stopping → s.pwr.commanded = true → Completes .retentionEnter s (fun t =>
      let u := setRegFld { s with phase := .stopped, host := { s.host with width := 0, rate := 0, half := 0 } } R.MOD_RESET_STATUS 1 0 2
      (s.pwr.held = none ∨ s.pwr.held = some 5 → t.phase = .stopped ∧ fld (getReg t R.MOD_RESET_STATUS) 1 0 = 2 ∧ t.pwr.held = none ∧
        t.stack = s.stack) ∧
      (s.pwr.held = some 1 → t = warmEnter u false) ∧ (s.pwr.held = some 2 → t = coldEnter u))) ∧
    (s.phase ≠ .retention → exec (.supplyRideThrough mv) s = .next s ∧ exec .holdupDepleted s = .next s) ∧
    (mv < 42000 → exec (.supplyRideThrough mv) s = .next s) ∧
    (s.phase = .retention → 42000 ≤ mv →
      (s.pwr.held = some 2 → Completes (.supplyRideThrough mv) s (fun t => t.phase = .boot ∧ t.pwr.mv = mv ∧ t.stack.bytes = s.stack.bytes)) ∧
      (s.pwr.held ≠ some 2 → Completes (.supplyRideThrough mv) s (fun t => t.phase = .boot ∧ t.pwr.mv = mv ∧ t.stack.bytes = s.stack.bytes ∧
        t.stack.poison = s.stack.poison ∧ fld (getReg t R.MOD_STATUS) 3 2 = 3 ∧ fld (getReg t R.MOD_FAULT_SUM) 63 48 = 0x304))) ∧
    (s.phase = .retention → Completes .holdupDepleted s (fun t => t = { s with
      phase := .off, stack := { s.stack with bytes := [], poison := [] }, pwr := { s.pwr with held := none } })) ∧
    (s.phase ≠ .charging → exec .inrushFault s = .next s) ∧
    (s.phase = .charging → Completes .inrushFault s (fun t => t.phase = .inrushWait ∧ (∃ r, r.code = 0x30D ∧
      t.flash.faults = keepLast 256 s.flash.faults r) ∧ t = { s with phase := .inrushWait, flash := { s.flash with faults := t.flash.faults } })) ∧
    (s.phase ≠ .inrushWait → exec .inrushRetry s = .next s) ∧
    (s.phase = .inrushWait → Completes .inrushRetry s (fun t => t = { s with phase := .charging }))

/-- GATE_EVAL, CAP_EVAL, TELEMETRY_SAMPLE, TELEMETRY_RECORD, POWERED_HOUR, REPLAN (R345 to R355): gates take the lowest of what ramp, class
cap, throttle and bypass allow, and the drone fills up to the floor and the ramp-down line; above 115 degrees the module trips, else the
caps step and each zone's cap register takes the lowest; a sample joins the last ten; a record goes to the host; an hour is counted, and
every 500th asks for a re-plan, which one at a time runs. -/
def Obligations.PowerControl : Prop :=
  ∀ (s : State),
    (railsOn s = false → ∀ r a b, exec (.gateEval r a b) s = .next s) ∧
    (railsOn s = true → ∀ (ramp : List Nat) (progW droneMax : Nat),
      let off := s.phase = .stopping ∨ s.pwr.band = 2
      let on := floorOn s = true ∧ ¬ off
      let line := max (s.pwr.line - s.tun.cur.rampDown) (1000 * pBar s)
      let need := if off then 0 else min (classWatts s.tun.cur.cooling) (max (if on then pFloor s else 0) (line / 1000)) - progW
      Completes (.gateEval ramp progW droneMax) s (fun t => t.pwr.line = line ∧ t.pwr.floorW = (if on then pFloor s else 0) ∧
        t.pwr.droneW = min droneMax need ∧
        (∀ z, z < 16 → getGate t z = gateFor s z (ramp.getD z 16)) ∧
        getReg t R.PWR_GATED = getReg s R.PWR_GATED + BitVec.ofNat 64 (gatedCycles s) ∧
        (on → droneMax < need → s.pwr.short = false → fld (getReg t R.MOD_FAULT_SUM) 63 48 = 0x306) ∧
        (¬ on ∨ need ≤ droneMax ∨ s.pwr.short = true → t = { s with
          pwr := t.pwr
          regs := t.regs }))) ∧
    (railsOn s = false ∨ s.phase = .stopping → exec .capEval s = .next s) ∧
    (railsOn s = true → s.phase ≠ .stopping →
      (115 < (hottest s).2 → Completes .capEval s (fun t => t.phase = .tripped ∧ t.pwr.band = 4 ∧ (∀ z, z < 16 → getGate t z = 0) ∧
        t.host.width = 0 ∧ fld (getReg t R.MOD_FAULT_SUM) 63 48 = 0x309 ∧ t.stack = s.stack)) ∧
      ((hottest s).2 ≤ 115 → Completes .capEval s (fun t => t.phase = s.phase ∧
        (∀ z, z < 16 → getReg t (R.CLK_ZONE_CAP z) = BitVec.ofNat 64 (capOf t z)) ∧
        (classWatts s.tun.cur.cooling < meanOf s.pwr.watts → t.pwr.clsEp = true ∧ t.pwr.clsGood = 0 ∧
          t.pwr.clsCut = min (s.pwr.clsCut + 10) (classMax s.tun.cur.cooling - 300)) ∧
        (meanOf s.pwr.watts ≤ classWatts s.tun.cur.cooling →
          t.pwr.clsGood = (if 100 * meanOf s.pwr.watts < 95 * classWatts s.tun.cur.cooling then s.pwr.clsGood + 1 else 0) ∧
          t.pwr.clsCut = (if 10 ≤ t.pwr.clsGood then s.pwr.clsCut - 10 else s.pwr.clsCut)) ∧
        (∀ z, z < 16 → 100 < zoneTemp s z → hotEp t z = true ∧ hotCut t z = min (hotCut s z + 10) (classMax s.tun.cur.cooling - 300)) ∧
        (∀ z, z < 16 → zoneTemp s z < 95 → hotCut t z = hotCut s z - 10) ∧
        (∀ z, z < 16 → 95 ≤ zoneTemp s z → zoneTemp s z ≤ 100 → hotCut t z = hotCut s z ∧ hotEp t z = hotEp s z)))) ∧
    (∀ mv w b zs, railsOn s = false → s.phase ≠ .stopped → s.phase ≠ .tripped → exec (.telemetrySample mv w b zs) s = .next s) ∧
    (∀ mv w b zs, railsOn s = true ∨ s.phase = .stopped ∨ s.phase = .tripped → Completes (.telemetrySample mv w b zs) s (fun t =>
      t.pwr.mv = mv ∧ t.pwr.samples.getLast? = some { mv := mv, watts := w, board := b, zones := zs.take 16 } ∧
      (s.pwr.samples.length ≤ 10 → t.pwr.samples.length = min 10 (s.pwr.samples.length + 1)) ∧
      t = { s with pwr := { s.pwr with mv := mv, energy := s.pwr.energy + w, samples := t.pwr.samples, watts := t.pwr.watts, refs := t.pwr.refs } })) ∧
    (let c := getReg s R.PWR_TELEM_CTRL
     let due := onDie s = true ∧ c.getLsbD 0 = true ∧ ∃ i, i < 8 ∧ ownedBy s (i + 2) 8 = true
     (¬ due → exec .telemetryRecord s = .next s) ∧
     (due → hostUp s 0 = true → Completes .telemetryRecord s (fun t => t.pwr = { s.pwr with telem := s.pwr.telem + 1 } ∧
       (∃ d, d.length = 64 ∧ t.out = s.out ++ [.host 0 ((getReg s R.PWR_TELEM_ADDR).toNat + 64 * (s.pwr.telem % 2 ^ (fld c 11 8 + 4))) d]) ∧
       t = { s with pwr := t.pwr, out := t.out }))) ∧
    (∀ slow, s.phase = .off ∨ s.phase = .retention → exec (.poweredHour slow) s = .next s) ∧
    (∀ slow, s.phase ≠ .off → s.phase ≠ .retention → Completes (.poweredHour slow) s (fun t => t.flash.hours = s.flash.hours + 1 ∧
      t.tun.jobs = (if (s.flash.hours + 1) % 500 = 0 then s.tun.jobs ++ [.plan 0] else s.tun.jobs) ∧
      (fwUp s = true → ∀ z, z < 16 → zoneSlow t z = slow.getD z 0) ∧
      t = { s with
        flash := { s.flash with hours := t.flash.hours, slow := t.flash.slow, hist := t.flash.hist }
        tun := { s.tun with jobs := t.tun.jobs } })) ∧
    (∀ fn : Fin 18, mayWrite s fn R.PWR_AGE_CTRL = false ∨ (coreFree s = true ∧ planNext s = true) → exec (.replan (some fn)) s = .next s) ∧
    (∀ fn : Fin 18, mayWrite s fn R.PWR_AGE_CTRL = true → ¬ (coreFree s = true ∧ planNext s = true) → Completes (.replan (some fn)) s (fun t =>
      t = { s with tun := { s.tun with jobs := s.tun.jobs ++ [.plan 1] } })) ∧
    (planNext s = false ∨ coreFree s = false → exec (.replan none) s = .next s) ∧
    (∀ c cs, s.tun.jobs = .plan c :: cs → coreFree s = true →
      let u := replan { s with tun := { s.tun with jobs := cs } } c
      Completes (.replan none) s (fun t => t = fwResume u ∧ (cs = [] → t = u)) ∧
      u.flash.planCount = s.flash.planCount + 1 ∧
      (∃ x, u.flash.plans = keepLast 1024 s.flash.plans x ∧ x.cause = c ∧ x.plan = s.flash.planCount + 1 ∧ x.zones.length = 16) ∧
      (fld (getReg u R.MOD_FAULT_SUM) 63 48 = 0x30A ∨ fld (getReg u R.MOD_FAULT_SUM) 63 48 = 0x30B) ∧ u.cores = s.cores ∧ u.stack = s.stack)

/-- GET_CERTS, ATTEST, LOG_READ, LOCK, UNLOCK, KEY_AGREE, KEY_IMPORT, KEY_DESTROY, SVN_COMMIT, MAILBOX_DONE (R359, R362, R364 to R371, R378):
a request is taken where the function may write its mailbox and the opcode is the command's; a busy mailbox refuses and logs; while the
management core is busy a request waits in its line; a taken one is busy with the command's code and response until MAILBOX_DONE writes it
and interrupts; a command that is refused leaves keys, locks and fuses as they were. -/
def Obligations.MailboxCommands : Prop :=
  ∀ (s : State) (fn : Fin 18) (req : List Byte),
    let r := req.take (fld (getReg s (fnKey fn R.SEC_MB_REQ_LEN)) 15 0)
    let f := getFn s fn
    let k := fnKey fn R.SEC_MB_STATUS
    Answers (.getCerts fn req) s fn r 1 (fun s => mbCerts s r) ∧
    Answers (.attest fn req) s fn r 2 (fun s => mbAttest s fn r) ∧
    Answers (.logRead fn req) s fn r 3 (fun s => mbLog s r) ∧
    Answers (.lock fn req) s fn r 4 (fun s => mbLock s fn r) ∧
    Answers (.unlock fn req) s fn r 5 (fun s => mbUnlock s fn r) ∧
    Answers (.keyAgree fn req) s fn r 6 (fun s => mbAgree s fn r) ∧
    Answers (.keyImport fn req) s fn r 7 (fun s => mbImport s fn r) ∧
    Answers (.keyDestroy fn req) s fn r 8 (fun s => mbDestroy s fn r) ∧
    Answers (.svnCommit fn req) s fn r 9 (fun s => mbSvn s fn r) ∧
    (fwUp s = false ∨ f.mbBusy = false ∨ f.mbHeld ≠ none → exec (.mailboxDone fn) s = .next s) ∧
    (fwUp s = true → f.mbBusy = true → f.mbHeld = none →
      let freed := fun (t : State) => getFn t fn = { f with mbBusy := false, mbDiscard := false, mbRsp := [] } ∧ (∀ j, j ≠ fn.val → getFn t j = getFn s j)
      let done := fun (P : State → Prop) => ∃ u, P u ∧ Completes (.mailboxDone fn) s (fun t => t = fwResume u ∧ (s.tun.jobs = [] → t = u))
      (f.mbDiscard = true → done (fun t => freed t ∧ (getReg t k).getLsbD 0 = false ∧ t = { s with fns := t.fns, regs := t.regs })) ∧
      (f.mbDiscard = false → fn = 17 → done (fun t => freed t ∧ getReg t k = at_ f.mbCode 32 ||| at_ f.mbRsp.length 16 ∧
        t = { s with
          sec := { s.sec with busRsp := f.mbRsp }
          fns := t.fns
          regs := t.regs })) ∧
      (f.mbDiscard = false → fn ≠ 17 → done (fun t => freed t ∧ getReg t k = at_ f.mbCode 32 ||| at_ f.mbRsp.length 16 ∧
        (getReg t (fnKey fn R.MOD_INT_CAUSE)).getLsbD 3 = true ∧ t.sec = s.sec ∧ t.flash = s.flash ∧ t.stack = s.stack ∧
        (hostUp s fn = true → f.mbRsp ≠ [] → .host fn (getReg s (fnKey fn R.SEC_MB_RSP_ADDR)).toNat f.mbRsp ∈ t.out))))

/-- What the mailbox commands do (R359, R362, R366 to R371): certificates are the part's; a lock needs an empty partition with its table in
the stack, zeroes its region and takes the owner key; owner commands need the owner's signature and a rising counter; a key slot is
installed once and destroyed while no enabled stream names it; the fuses rise to the running image's version. FIRMWARE_UPDATE writes the
other bank and makes it active once it verifies; IDE_KM secures an IDE stream and HOST_IDE_ERROR makes it insecure (R361, R363, R377,
R396). -/
def Obligations.SecurityEffects : Prop :=
  ∀ (s : State) (fn : Nat) (r : List Byte),
    let h := mbHdr r
    let p := h.part
    let n := 256 * p + leAt (mbBody r) 0 1
    (h.len = 0 → mbCerts s r = (s, 0, s.part.caCert ++ s.part.devCert)) ∧
    (let free := mbPart s fn p = true ∧ isLocked s p = false ∧ loadedProgs s p = [] ∧ anyEnabled s p = false ∧ tabInStack s p = true
     (¬ free → mbLock s fn r = (s, 0x903, [])) ∧
     ((mbLock s fn r).2.1 = 0 → free ∧ lockOf (mbLock s fn r).1 p = some { owner := (mbBody r).take 97, counter := 0, vault := leAt (mbBody r) 97 8 } ∧
       (∀ a, regionBase s p ≤ a → a < regionBase s p + regionSize s p → saFenced s a = false → memGet (mbLock s fn r).1.stack.bytes a = 0) ∧
       (mbLock s fn r).1.sec.count = s.sec.count + 1)) ∧
    ((mbUnlock s fn r).2.1 = 0 → ownerSigned s p r = true ∧ lockOf (mbUnlock s fn r).1 p = none) ∧
    ((mbAgree s fn r).2.1 = 0 ∨ (mbImport s fn r).2.1 = 0 ∨ (mbDestroy s fn r).2.1 = 0 → ownerSigned s p r = true ∧
      ∃ l, lockOf s p = some l ∧ l.counter < h.counter) ∧
    ((getSlot s n).used = true → (mbAgree s fn r).2.1 ≠ 0) ∧
    (h.len = 130 → mbPart s fn p = true → ownerCheck s p r true = 0 → (getSlot s n).used = false →
      mbAgree s fn r = (s, 0x903, []) ∨
      (mbAgree s fn r).2.1 = 0 ∧ (getSlot (mbAgree s fn r).1 n).used = true ∧ (getSlot (mbAgree s fn r).1 n).floor = 1) ∧
    ((mbImport s fn r).2.1 = 0 → (getSlot s n).used = false ∧ (getSlot (mbImport s fn r).1 n).used = true) ∧
    ((mbDestroy s fn r).2.1 = 0 → slotInUse s n = false ∧ getSlot (mbDestroy s fn r).1 n = {}) ∧
    ((mbSvn s fn r).2.1 = 0 → (mbSvn s fn r).1.part = { s.part with svnFuses := max s.part.svnFuses (s.sec.running.elim 0 Bank.svn) } ∧
      s.sec.running.elim 0 Bank.svn ≤ 64) ∧
    (∀ image, (fwUp s = false → s.phase ≠ .failed → exec (.firmwareUpdate image) s = .next s) ∧
      (fwUp s = true ∨ s.phase = .failed →
        let b := bankFrom s image
        let ok := b.valid = true ∧ s.part.svnFuses ≤ b.svn
        Completes (.firmwareUpdate image) s (fun t => t.flash.banks = s.flash.banks.set (1 - s.flash.bank) b ∧
          t.flash.bank = (if ok then 1 - s.flash.bank else s.flash.bank) ∧ t.sec.count = s.sec.count + 1 ∧
          t = { s with flash := { s.flash with banks := t.flash.banks, bank := t.flash.bank }, sec := t.sec }))) ∧
    (∀ st : Fin 17,
      let ide := fun (x : State) (i : Nat) => tget (fun _ => 0) x.sec.ide i
      (onDie s = false ∨ s.host.width = 0 → exec (.ideKm st) s = .next s) ∧
      (onDie s = true → s.host.width ≠ 0 → Completes (.ideKm st) s (fun t => ide t st = 1 ∧ (∀ j, j ≠ st.val → ide t j = ide s j) ∧
        t.host.wait = s.host.wait.filter (fun w => !hostUp t w.1) ∧
        t.out = s.out ++ (s.host.wait.filter (fun w => hostUp t w.1)).map Prod.snd ∧
        tget (fun _ => []) t.sec.ideCut st = [] ∧ (∀ j, j ≠ st.val → tget (fun _ => []) t.sec.ideCut j = tget (fun _ => []) s.sec.ideCut j) ∧
        t = { s with
          out := t.out
          host := { s.host with wait := t.host.wait }
          sec := { s.sec with ide := t.sec.ide, ideCut := t.sec.ideCut } })) ∧
      (∀ hit, onDie s = false ∨ ide s st ≠ 1 → exec (.hostIdeError st hit) s = .next s) ∧
      (∀ hit, onDie s = true → ide s st = 1 → ∃ u, ide u st = 2 ∧ (∀ j, j ≠ st.val → ide u j = ide s j) ∧
        tget (fun _ => []) u.sec.ideCut st = hit ∧ Logged { s with sec := u.sec } u 0x516 ∧
        Completes (.hostIdeError st hit) s (fun t => t = hit.foldl failHost u)))

/-- HOST_LINK_CHANGE, HOST_LINK_DOWN, HOT_RESET (R381 to R383): the link takes its width and rate, with the cause HOST_LINK of the physical
function when either differs from the last training's and HOST_LINK_REDUCED below x16 or rate 7; what waited for the host goes out; a link
that goes down is logged once. A width, half or rate that the link does not have changes nothing. VF_FLR, PF_FLR (R383): the function's
interrupt cause and mask, mailbox registers, MSI-X table and queued stream commands are cleared, a running mailbox command's response will
be discarded, and a virtual function loses bus master and its partition's streams without a journal, with FUNCTION_RESET logged; a reset
of the physical function resets every virtual function too. -/
def Obligations.HostLinkAndFunctionResets : Prop :=
  (∀ (s : State),
     (∀ w r h,
       let ok := (s.phase = .run ∨ s.phase = .stopping ∨ s.phase = .warm) ∧ (w = 16 ∧ h = 0 ∨ w = 8 ∧ (h = 1 ∨ h = 2)) ∧ 1 ≤ r ∧ r ≤ 7
       let u := { s with host := { s.host with width := w, rate := r, half := h, was := (w, r), downLogged := false } }
       let v := if s.host.was = (0, 0) ∨ s.host.was = (w, r) then u else raiseCause u 0 7
       (¬ ok → exec (.hostLinkChange w r h) s = .next s) ∧
       (ok → w = 16 → r = 7 → Completes (.hostLinkChange w r h) s (fun t => t = hostResume v)) ∧
       (ok → w = 8 ∨ r < 7 → Completes (.hostLinkChange w r h) s (fun t => ∃ x, Logged v x 0x512 ∧ t = hostResume x))) ∧
     (let u := { s with host := { s.host with width := 0, rate := 0, half := 0, downLogged := true } }
      let lost := fun (t : State) => (s.host.downLogged = true → t = u) ∧ (s.host.downLogged = false → Logged u t 0x513)
      (railsOn s = false → exec .hostLinkDown s = .next s ∧ exec .hotReset s = .next s) ∧
      (railsOn s = true → Completes .hostLinkDown s lost ∧ (s.host.width ≠ 0 → Completes .hotReset s lost) ∧
        (s.host.width = 0 → exec .hotReset s = .next s)))) ∧
  (∀ (s : State),
     let cleared := fun (u : State) (f : Nat) =>
       getReg u (fnKey f R.MOD_INT_CAUSE) = 0 ∧ getReg u (fnKey f R.MOD_INT_MASK) = 0 ∧ getReg u (fnKey f R.SEC_MB_REQ_ADDR) = 0 ∧
       getReg u (fnKey f R.SEC_MB_RSP_ADDR) = 0 ∧ (getFn u f).d3 = false ∧ (getFn u f).mbDiscard = (getFn s f).mbBusy ∧
       (∀ v, getMsix u v = if fnOfVec v = f then {} else getMsix s v) ∧ (∀ g, g ≠ f → getFn u g = getFn s g) ∧
       (getReg u (fnKey f R.SEC_MB_STATUS)).getLsbD 0 = (getFn s f).mbBusy ∧
       u.stm.cmdWait = s.stm.cmdWait.filter (fun k => k.fn != f) ∧ (∀ k, u.stm.cmd = some k ↔ s.stm.cmd = some k ∧ k.fn ≠ f) ∧
       u = { s with
         regs := u.regs
         fns := u.fns
         msix := u.msix
         stm := { s.stm with cmd := u.stm.cmd, cmdWait := u.stm.cmdWait } }
     (railsOn s = false → exec .pfFlr s = .next s) ∧
     (railsOn s = true → Completes .pfFlr s (fun t => ∃ u, cleared u 0 ∧ t = (List.range 16).foldl vfReset u)) ∧
     (∀ v : Fin 16,
       (railsOn s = false ∨ fnLive s (v.val + 1) = false → exec (.vfFlr v) s = .next s) ∧
       (railsOn s = true → fnLive s (v.val + 1) = true → Completes (.vfFlr v) s (fun t => t = vfReset s v ∧
         ∃ u, cleared u (v.val + 1) ∧ (getFn u (v.val + 1)).noBusMaster = true ∧ Logged ((partIdx u v).foldl flrStream u) t 0x517))) ∧
     (∀ i, eEnabled (entryOf s i) = true → eJournal (entryOf s i) = false → (getCtx s i).isSome = true →
       eEnabled (entryOf (flrStream s i) i) = false ∧ getRt (flrStream s i) i = {}) ∧
     (∀ i, eEnabled (entryOf s i) = false ∨ eJournal (entryOf s i) = true → flrStream s i = s))

/-- FUNCTION_POWER_STATE, BUS_MASTER_ENABLE, MOD_INT_CAUSE_CLEAR, MOD_INT_MASK_WRITE, MSIX_UNMASK (R381, R383, R390, R391): a function in
D3hot or without bus master reaches no host memory until it returns; a written cause bit is cleared unless its event comes in the same
cycle, a cause that stays set and unmasked or is newly unmasked raises its vector; an unmasked vector sends its pending message. -/
def Obligations.FunctionsAndVectors : Prop :=
  ∀ (s : State),
    (∀ (f : Fin 18) (d : Bool),
      let u := { s with fns := (modFn s f (fun x => { x with d3 := d })).fns }
      (f = 17 ∨ railsOn s = false → exec (.functionPowerState f d) s = .next s) ∧
      (f ≠ 17 → railsOn s = true → d = true → Completes (.functionPowerState f d) s (fun t => OnlyFn s t f ∧ (getFn t f).d3 = true)) ∧
      (f ≠ 17 → railsOn s = true → d = false → Completes (.functionPowerState f d) s (fun t => t = hostResume u ∧ (getFn t f).d3 = false))) ∧
    (∀ v : Fin 16,
      (railsOn s = false → exec (.busMasterEnable v) s = .next s) ∧
      (railsOn s = true → Completes (.busMasterEnable v) s (fun t =>
        t = hostResume (modFn s (v.val + 1) (fun x => { x with noBusMaster := false })) ∧ (getFn t (v.val + 1)).noBusMaster = false))) ∧
    (∀ (f : Fin 18) (v ev : W64),
      let k := fnKey f R.MOD_INT_CAUSE
      let q := fnKey f R.MOD_INT_MASK
      let c := getReg s k &&& ~~~(v &&& ~~~ev)
      (mayWrite s f R.MOD_INT_CAUSE = false → exec (.modIntCauseClear f v ev) s = .next s) ∧
      (mayWrite s f R.MOD_INT_CAUSE = true → Completes (.modIntCauseClear f v ev) s (fun t => OnlyLog s t ∧
        getReg t k = c ∧ (∀ j, j ≠ k → getReg t j = getReg s j) ∧
        (∀ b, b < 64 → (getReg s k).getLsbD b = true → (v.getLsbD b = false ∨ ev.getLsbD b = true → (getReg t k).getLsbD b = true) ∧
          (v.getLsbD b = true → ev.getLsbD b = false → (getReg t k).getLsbD b = false)) ∧
        (fld v 8 0 = 0 → t = setReg s k c) ∧
        (fld v 8 0 ≠ 0 → t = raiseMask (setReg s k c) f (c &&& getReg s q)))) ∧
      (mayWrite s f R.MOD_INT_MASK = false → exec (.modIntMaskWrite f v) s = .next s) ∧
      (mayWrite s f R.MOD_INT_MASK = true → Completes (.modIntMaskWrite f v) s (fun t =>
        getReg t q = v &&& 0x1FF#64 ∧ (∀ j, j ≠ q → getReg t j = getReg s j) ∧
        t = raiseMask (setReg s q (v &&& 0x1FF#64)) f (getReg s k &&& (v &&& 0x1FF#64) &&& ~~~(getReg s q))))) ∧
    (∀ v,
      let f := fnOfVec v
      let e := getMsix s v
      let ok := railsOn s = true ∧ v < 2048 ∧ fnLive s f = true ∧ (getFn s f).d3 = false
      (¬ ok → exec (.msixUnmask v) s = .next s) ∧
      (ok → Completes (.msixUnmask v) s (fun t => getMsix t v = { e with unmasked := true, pba := false } ∧ (∀ j, j ≠ v → getMsix t j = getMsix s j) ∧
        t = { s with msix := t.msix, out := t.out, host := { s.host with wait := t.host.wait } } ∧
        (e.pba = false → t.out = s.out ∧ t.host.wait = s.host.wait) ∧
        (e.pba = true → hostUp s f = true → t.out = s.out ++ [.msix v e.addr e.data] ∧ t.host.wait = s.host.wait) ∧
        (e.pba = true → hostUp s f = false → t.out = s.out ∧ t.host.wait = s.host.wait ++ [(f, .msix v e.addr e.data)]))))

/-- BAR2_READ and BAR2_WRITE (R198, R387): through its BAR2 a function reaches the bytes of its own partition, or of the partition that the
physical function selected; a locked partition, a function that does not serve, or an unmapped offset reads as zeros and drops writes;
outside the region the access aborts and logs STACK_PARTITION. -/
def Obligations.BarTwoAccess : Prop :=
  ∀ (s : State) (f : Fin 18) (off : Nat),
    let p := if f = 0 then fld (getReg s R.STK_BAR2_PART) 3 0 else f.val - 1
    let opn := railsOn s = true ∧ s.host.width ≠ 0 ∧ f ≠ 17 ∧ (getFn s f).d3 = false
    let maps := fun n => fnLive s f = true ∧ isLocked s p = false ∧ relMapped s p off n = true ∧ (relToSa s p off).isSome = true
    (∀ n ecc,
      (¬ opn → exec (.bar2Read f off n ecc) s = .next s) ∧
      (opn → ¬ maps n → Completes (.bar2Read f off n ecc) s (fun t => t = { s with out := s.out ++ [.bar 0 (List.replicate n 0)] })) ∧
      (∀ sa, opn → maps n → relToSa s p off = some sa →
        (saAllowed s p sa n = false → Completes (.bar2Read f off n ecc) s (fun t => ∃ u, Logged s u 0x801 ∧ t = { u with out := u.out ++ [.bar 1 []] })) ∧
        (saAllowed s p sa n = true →
          let r := saRead (latent s ecc) .host p sa n
          Completes (.bar2Read f off n ecc) s (fun t => t = { r.2.2 with out := r.2.2.out ++ [.bar (if r.2.1 then 3 else 0) r.1] })))) ∧
    (∀ data ecc,
      (¬ opn ∨ ¬ maps data.length → exec (.bar2Write f off data ecc) s = .next s) ∧
      (∀ sa, opn → maps data.length → relToSa s p off = some sa →
        (saAllowed s p sa data.length = false → Completes (.bar2Write f off data ecc) s (fun t => ∃ u, Logged s u 0x801 ∧ t = { u with out := u.out ++ [.bar 1 []] })) ∧
        (saAllowed s p sa data.length = true → Completes (.bar2Write f off data ecc) s (fun t => t = saWrite (latent s ecc) .host p sa data))))

/-- FAULT_MERGE_END, FAULT_RING_DRAIN, CORE_HW_FAULT, QUARANTINE_ADD, QUARANTINE_REMOVE (R91, R400, R401, R404, R405): a merged record is
stored at its interval's end; a write of the tail sends the records that wait; a core's hardware fault aborts its step, its array's String
too, and the second within 24 powered hours lists the core; the list takes 16 cores, and a removed core's faults count from zero. -/
def Obligations.FaultsAndQuarantine : Prop :=
  ∀ (s : State),
    let joined := fun (u t : State) (c : Nat) =>
      (u.flash.quarantine.contains c = true → t = u) ∧
      (u.flash.quarantine.contains c = false → 16 ≤ u.flash.quarantine.length → Logged u t 0xA42) ∧
      (u.flash.quarantine.contains c = false → u.flash.quarantine.length < 16 →
        Logged { u with flash := { u.flash with quarantine := u.flash.quarantine ++ [c] } } t 0xA41)
    (∀ i, (∀ o, s.flog.opens[i]? = some o → s.clk.time < o.until_) → exec (.faultMergeEnd i) s = .next s) ∧
    (∀ i o, s.flog.opens[i]? = some o → o.until_ ≤ s.clk.time → Completes (.faultMergeEnd i) s (fun t => t = closeOpens s (fun x => x = o) ∧
      o ∉ t.flog.opens ∧ ∀ x, x ∈ s.flog.opens → x ≠ o → x ∈ t.flog.opens)) ∧
    (∀ (f : Fin 18) (v : W64), (mayWrite s f R.DBG_FLOG_TAIL = false → exec (.faultRingDrain f v) s = .next s) ∧
      (mayWrite s f R.DBG_FLOG_TAIL = true → Completes (.faultRingDrain f v) s (fun t => getReg t R.DBG_FLOG_TAIL = v ∧ OnlyLog (setReg s R.DBG_FLOG_TAIL v) t ∧
        t = drainRing s.flog.onDie.length (setReg s R.DBG_FLOG_TAIL v)))) ∧
    (∀ c : Fin 256,
      let again := ∃ h, lastHw s c = some h ∧ s.flash.hours ≤ h + 24
      let marked := fun (x : State) => { x with flash := { x.flash with hwErr := tset (fun _ => none) x.flash.hwErr c (some s.flash.hours) } }
      (onDie s = false ∨ isFused s c = true → ∀ a, exec (.coreHwFault c a) s = .next s) ∧
      (onDie s = true → isFused s c = false →
        (∀ u, u = marked (coreFault s c .c 0xA40) →
          Completes (.coreHwFault c none) s (fun t => (again → t = joinList u c ∧ joined u t c) ∧ (¬ again → t = u))) ∧
        (∀ a u, (let f := coreFault s c (unitOfArr a) 0xA40
                 u = marked (match fretOf f (arrOf c a) with | some x => strFault f x.1 0xA20 x.2 | none => f)) →
          Completes (.coreHwFault c (some a)) s (fun t => (again → t = joinList u c ∧ joined u t c) ∧ (¬ again → t = u))))) ∧
    (∀ (f : Fin 18) (v : W64),
      (mayWrite s f R.DBG_QUAR_CTRL = false → exec (.quarantineAdd f v) s = .next s ∧ exec (.quarantineRemove f v) s = .next s) ∧
      (v.getLsbD 8 = false → exec (.quarantineAdd f v) s = .next s) ∧ (v.getLsbD 9 = false → exec (.quarantineRemove f v) s = .next s) ∧
      (mayWrite s f R.DBG_QUAR_CTRL = true → v.getLsbD 8 = true → Completes (.quarantineAdd f v) s (fun t => joined s t (fld v 7 0))) ∧
      (mayWrite s f R.DBG_QUAR_CTRL = true → v.getLsbD 9 = true → Completes (.quarantineRemove f v) s (fun t =>
        fld v 7 0 ∉ t.flash.quarantine ∧ (∀ c, c ≠ fld v 7 0 → (c ∈ t.flash.quarantine ↔ c ∈ s.flash.quarantine)) ∧
        lastHw t (fld v 7 0) = none ∧ (∀ c, c ≠ fld v 7 0 → lastHw t c = lastHw s c) ∧ t = { s with flash := { s.flash with quarantine := t.flash.quarantine, hwErr := t.flash.hwErr } })))

/-- REC_EN, REC_ARM, REC_STOP, GPX0_EDGE (R333, R406, R408, R435): record mode takes TRACE_BUF or fails with RESOURCE_OWNED, is refused while
replay runs, waits for the edge of GPX0 when armed and else starts, with a DEBUG entry; a stop writes END, when it fits, and logs
RECORD_STOPPED; an edge within 1 us of the pin's taking is ignored. TRACE_EN, DUMP, SEAL_PULSE_END (R410, R435): the trace takes TRACE_BUF
or fails, is refused for the cores of a locked partition, starts empty with a DEBUG entry, and stops when the bit is cleared; a dump
writes the events, oldest first, to DBG_TRACE_ADDR; a pin's pulse ends after its microsecond. Room in the ring is the model's choice, log
12. -/
def Obligations.RecordTraceAndPulse : Prop :=
  (∀ (s : State),
     let st := fld (getReg s R.DBG_STATUS) 1 0
     let rep := fld (getReg s R.DBG_STATUS) 3 2 = 1
     let started := fun (u t : State) => t = debugMeasure (setRegFld { u with dbg := { u.dbg with recSeq := 0 } } R.DBG_STATUS 1 0 2) 1 ∧
       fld (getReg t R.DBG_STATUS) 1 0 = 2 ∧ t.sec.count = u.sec.count + 1
     (∀ f : Fin 18,
       (mayWrite s f R.DBG_CTRL = false → exec (.recEn f) s = .next s ∧ exec (.recArm f) s = .next s ∧ exec (.recStop f) s = .next s) ∧
       (mayWrite s f R.DBG_CTRL = true →
         ((getReg s R.DBG_CTRL).getLsbD 0 = true → exec (.recEn f) s = .next s) ∧
         ((getReg s R.DBG_CTRL).getLsbD 0 = false →
           (rep → Completes (.recEn f) s (fun t => Logged s t 0x524)) ∧
           (¬ rep → (∃ o, ownerOf s 10 = some o ∧ claimFeat o.1 ≠ 3) → Completes (.recEn f) s (fun t => Logged s t 0x107)) ∧
           (∀ u, ¬ rep → ownerOf s 10 = none ∧ u = takeRes s 10 (claimValue 3 10 0) ∨ (∃ o, ownerOf s 10 = some o ∧ claimFeat o.1 = 3) ∧ u = s →
             ((getReg s R.DBG_CTRL).getLsbD 2 = true → Completes (.recEn f) s (fun t =>
               t = setRegFld (setRegFld u R.DBG_CTRL 0 0 1) R.DBG_STATUS 1 0 1)) ∧
             ((getReg s R.DBG_CTRL).getLsbD 2 = false → Completes (.recEn f) s (started (setRegFld u R.DBG_CTRL 0 0 1))))) ∧
         ((getReg s R.DBG_CTRL).getLsbD 0 = true → st ≠ 2 → Completes (.recArm f) s (fun t =>
           t = setRegFld (setRegFld s R.DBG_CTRL 2 2 1) R.DBG_STATUS 1 0 1)) ∧
         ((getReg s R.DBG_CTRL).getLsbD 0 = false ∨ st = 2 → Completes (.recArm f) s (fun t => t = setRegFld s R.DBG_CTRL 2 2 1)) ∧
         (st = 2 → (let e := recEntBytes s.dbg.recSeq s.clk.time 0x0F 0 0xFF 0 0 [0x20#8, 0x05#8]
           Completes (.recStop f) s (fun t => Logged (setRegFld (if e.length ≤ recRoom s then recPut s e else s) R.DBG_STATUS 1 0 3) t 0x520))) ∧
         (st = 1 → Completes (.recStop f) s (fun t => t = setRegFld s R.DBG_STATUS 1 0 3)) ∧
         (st = 0 ∨ st = 3 → exec (.recStop f) s = .next s))) ∧
     (let early := ∃ x, (getGpx s 0).takenAt = some x ∧ s.clk.time < x + 1000
      (onDie s = false ∨ early → exec .gpx0Edge s = .next s) ∧
      (onDie s = true → ¬ early →
        (ownedBy s 0 1 = true → s.clk.aux = true → Completes .gpx0Edge s (fun t => t = epochPulse s)) ∧
        (ownedBy s 0 1 = true → s.clk.aux = false → exec .gpx0Edge s = .next s) ∧
        (ownedBy s 0 1 = false → ownedBy s 0 2 = true → st = 1 → Completes .gpx0Edge s (started s)) ∧
        (ownedBy s 0 1 = false → ownedBy s 0 2 = false ∨ st ≠ 1 → exec .gpx0Edge s = .next s)))) ∧
  (∀ (s : State),
     (∀ (f : Fin 18) (v : W64),
       let on := (getReg s R.DBG_STATUS).getLsbD 4 = true
       let lock := ∃ c p, c < 256 ∧ (getReg s (R.DBG_TRACE_CORES (c / 64))).getLsbD (c % 64) = true ∧ partOfCore s c = some p ∧ isLocked s p = true
       (mayWrite s f R.DBG_CTRL = false → exec (.traceEn f v) s = .next s ∧ exec (.dump f) s = .next s) ∧
       (mayWrite s f R.DBG_CTRL = true →
         (v.getLsbD 5 = true →
           (on → exec (.traceEn f v) s = .next s) ∧
           (¬ on → lock → Completes (.traceEn f v) s (fun t => Logged s t 0x907)) ∧
           (¬ on → ¬ lock → (∃ o, ownerOf s 10 = some o ∧ claimFeat o.1 ≠ 4) → Completes (.traceEn f v) s (fun t => Logged s t 0x107)) ∧
           (∀ u, ¬ on → ¬ lock →
             ownerOf s 10 = none ∧ u = takeRes s 10 (claimValue 4 10 0) ∨ (∃ o, ownerOf s 10 = some o ∧ claimFeat o.1 = 4) ∧ u = s →
             Completes (.traceEn f v) s (fun t => t.dbg.trace = [] ∧ (getReg t R.DBG_STATUS).getLsbD 4 = true ∧ (getReg t R.DBG_CTRL).getLsbD 5 = true ∧
               t.sec.count = s.sec.count + 1 ∧ t = { u with dbg := t.dbg, regs := t.regs, sec := t.sec }))) ∧
         (v.getLsbD 5 = false → Completes (.traceEn f v) s (fun t => (getReg t R.DBG_STATUS).getLsbD 4 = false ∧ (getReg t R.DBG_CTRL).getLsbD 5 = false ∧
           t.dbg = s.dbg ∧ (∀ c, c ∈ s.tun.runtime → c.res ≠ 10 → c ∈ t.tun.runtime) ∧
           (∀ c, c ∈ t.tun.runtime → c ∈ s.tun.runtime ∧ ¬ (c.res = 10 ∧ claimFeat c.value = 4)))) ∧
         (s.dbg.trace = [] → exec (.dump f) s = .next s) ∧
         (s.dbg.trace ≠ [] → Completes (.dump f) s (fun t => t = hostWrite s 0 (getReg s R.DBG_TRACE_ADDR).toNat s.dbg.trace.flatten)))) ∧
     (∀ r : Fin 2,
       let due := fun (i : Nat) => (getGpx s i).high = true ∧ ∃ x, (getGpx s i).endAt = some x ∧ x ≤ s.clk.time
       Completes .sealPulseEnd s (fun t =>
         (due r → getGpx t r = { getGpx s r with high := false, endAt := none } ∧ .pin r false ∈ t.out) ∧ (¬ due r → getGpx t r = getGpx s r) ∧
         t = { s with gpx := t.gpx, out := t.out } ∧ (¬ due 0 → ¬ due 1 → t.out = s.out))))

/-- REPLAY_EN, REPLAY_ENTRY, REPLAY_DIVERGED (R409): a start is refused with DEBUG_BUSY while recording is on or a named partition is not
idle, with SEC_PARTITION_LOCKED for a locked one, and else holds the ports and adds a DEBUG entry; an entry is applied when its turn
comes, a digest that fails stops replay, END or the last entry ends it, and an entry that has waited 2 ms is a divergence. Log 54 names
what a PROGRAM entry does. -/
def Obligations.ReplayMode : Prop :=
  ∀ (s : State),
    let rep := fld (getReg s R.DBG_STATUS) 3 2 = 1
    let ended := fun (u t : State) (st code : Nat) =>
      Logged (eachPort (freeTrace { setRegFld (setRegFld u R.DBG_CTRL 4 4 0) R.DBG_STATUS 3 2 st with
        dbg := { u.dbg with waitData := [], waitSince := none } } 3) portTrain) t code
    (∀ f : Fin 18,
      let busy := (getReg s R.DBG_CTRL).getLsbD 0 = true ∨ ∃ p, p < 16 ∧ (getReg s R.DBG_REC_PARTS).getLsbD p = true ∧ partIdle s p = false
      let lock := ∃ p, p < 16 ∧ (getReg s R.DBG_REC_PARTS).getLsbD p = true ∧ isLocked s p = true
      (mayWrite s f R.DBG_CTRL = false ∨ rep → exec (.replayEn f) s = .next s) ∧
      (mayWrite s f R.DBG_CTRL = true → ¬ rep →
        (busy → Completes (.replayEn f) s (fun t => Logged s t 0x524)) ∧
        (¬ busy → lock → Completes (.replayEn f) s (fun t => Logged s t 0x907)) ∧
        (¬ busy → ¬ lock → (∃ o, ownerOf s 10 = some o ∧ claimFeat o.1 ≠ 3) → Completes (.replayEn f) s (fun t => Logged s t 0x107)) ∧
        (∀ u, ¬ busy → ¬ lock →
          ownerOf s 10 = none ∧ u = takeRes s 10 (claimValue 3 10 0) ∨ (∃ o, ownerOf s 10 = some o ∧ claimFeat o.1 = 3) ∧ u = s →
          Completes (.replayEn f) s (fun t => ∃ v, v = eachPort { setRegFld (setRegFld u R.DBG_CTRL 4 4 1) R.DBG_STATUS 3 2 1 with
            dbg := { u.dbg with waitData := [], waitSince := some u.clk.time } } portTrain ∧
            t = debugMeasure v 1 ∧ t.sec.count = v.sec.count + 1)))) ∧
    (∀ entry bulk : List Byte,
      let typ := leAt entry 16 1
      let p := leAt entry 18 1
      let b := (entry.drop 32).take (leAt entry 20 4)
      let a := if leAt entry 17 1 = 1 then (if typ = 4 then b.take 13 ++ bulk else bulk) else b
      let waits := fun (t : State) => t = { s with dbg := { s.dbg with waitSince := some (s.dbg.waitSince.getD s.clk.time) } }
      let taken := fun (u t : State) =>
        let v := setReg { u with dbg := { u.dbg with waitSince := some u.clk.time } } R.DBG_REC_HEAD
          (BitVec.ofNat 64 (((getReg u R.DBG_REC_HEAD).toNat + entry.length) % max 1 (getReg u R.DBG_REC_SIZE).toNat))
        (getReg v R.DBG_REC_HEAD = getReg v R.DBG_REC_TAIL → u.dbg.waitData = [] → ended v t 2 0x523) ∧
        (getReg v R.DBG_REC_HEAD ≠ getReg v R.DBG_REC_TAIL ∨ u.dbg.waitData ≠ [] → t = v)
      (onDie s = false ∨ ¬ rep → exec (.replayEntry entry bulk) s = .next s) ∧
      (onDie s = true → rep →
        (s.dbg.waitData ≠ [] → Completes (.replayEntry entry bulk) s waits) ∧
        (s.dbg.waitData = [] →
          (typ = 15 → Completes (.replayEntry entry bulk) s (fun t => ended s t 2 0x523)) ∧
          (typ ≠ 15 → p < 16 → (getReg s R.DBG_REC_PARTS).getLsbD p = false → Completes (.replayEntry entry bulk) s (taken s)) ∧
          (typ ≠ 15 → (p < 16 → (getReg s R.DBG_REC_PARTS).getLsbD p = true) →
            (typ = 6 → replayApply s 6 p 0 0 b bulk = none → Completes (.replayEntry entry bulk) s waits) ∧
            ((typ = 6 → replayApply s 6 p 0 0 b bulk ≠ none) →
              (replayBad s typ (leAt entry 17 1) p b bulk = true → Completes (.replayEntry entry bulk) s (fun t => ended s t 3 0x522)) ∧
              (replayBad s typ (leAt entry 17 1) p b bulk = false →
                (replayApply s typ p (leAt entry 24 4) (leAt entry 28 4) a bulk = none → Completes (.replayEntry entry bulk) s waits) ∧
                (∀ u, replayApply s typ p (leAt entry 24 4) (leAt entry 28 4) a bulk = some u → Completes (.replayEntry entry bulk) s (taken u)) ∧
                (typ = 2 → Completes (.replayEntry entry bulk) s (taken (bell s p (leAt a 0 4) (pay64 a 4)))) ∧
                (typ = 5 → Completes (.replayEntry entry bulk) s (taken (loadTuning s false false a))) ∧
                (typ = 7 → Completes (.replayEntry entry bulk) s (taken (replayCmd s p a bulk))) ∧
                (typ = 8 → Completes (.replayEntry entry bulk) s
                  (taken { s with dbg := { s.dbg with waitData := s.dbg.waitData ++ [(timerdKey (leAt entry 24 4), a.drop 8)] } })))))))) ∧
    (let late := onDie s = true ∧ rep ∧ ∃ x, s.dbg.waitSince = some x ∧ x + 2000000 < s.clk.time
     (late → Completes .replayDiverged s (fun t => ended s t 3 0x521)) ∧ (¬ late → exec .replayDiverged s = .next s))

/-- READ_CLEAR and the widths of accesses (R15, R16; what events of the same cycle leave, R13): an aligned 64-bit read answers the register,
an aligned 32-bit read its addressed half; each clears the read-to-clear fields that it reaches whole; a read of any other width or
alignment answers zeros and has no other effect; any write but a full, aligned one is discarded; where no register is defined a read
answers zero and a write is discarded. -/
def Obligations.RegisterAccesses : Prop :=
  ∀ (s : State) (f : Fin 18) (off w : Nat) (ev : W64),
    let up := regsUp s = true ∧ (getFn s f).d3 = false
    let fits := (w = 64 ∧ off % 8 = 0) ∨ (w = 32 ∧ off % 4 = 0)
    let base := off / 8 * 8
    let r := readReg s f base
    (¬ up → exec (.readClear f off w ev) s = .next s) ∧
    (up → ¬ fits → Completes (.readClear f off w ev) s (fun t => t = { s with out := s.out ++ [.bar 0 (List.replicate (w / 8) 0)] })) ∧
    (up → w = 64 → off % 8 = 0 → Completes (.readClear f off w ev) s (fun t => ∃ u, u = clearRead r.2 f base 0 63 ev ∧
      t = { u with out := u.out ++ [.bar 0 (natLe r.1.toNat 8)] })) ∧
    (up → w = 32 → off % 4 = 0 → Completes (.readClear f off w ev) s (fun t => ∃ u, u = clearRead r.2 f base (off % 8 * 8) (off % 8 * 8 + 31) ev ∧
      t = { u with out := u.out ++ [.bar 0 (((natLe r.1.toNat 8).drop (off % 8)).take 4)] })) ∧
    (isMsix base = false → fnSees s f base = false → r = (0, s) ∧ clearRead s f base 0 63 ev = s) ∧
    (∀ v, w ≠ 64 ∨ off % 8 ≠ 0 → exec (.registerWrite f off w v ev) s = .next s) ∧
    (isMsix base = false → isCredit base = false → regAt base = none →
      (up → fits → Completes (.readClear f off w ev) s (fun t => t = { s with out := s.out ++ [.bar 0 (List.replicate (w / 8) 0)] })) ∧
      (∀ v, off % 8 = 0 → exec (.registerWrite f off 64 v ev) s = .next s)) ∧
    (∀ x, isMsix base = false → fnSees s f base = true → isCredit base = false → regAt base = some x → openBits s base = 0 →
      r = ((viewOf s f base).getD (getReg s (regKey s f base)) &&& x.1.readMask, s)) ∧
    (∀ lo hi, (∀ k, k ≠ regKey s f base → getReg (clearRead s f base lo hi ev) k = getReg s k) ∧
      clearRead s f base lo hi ev = { s with regs := (clearRead s f base lo hi ev).regs } ∧
      (∀ x, regAt base = some x → fnSees s f base = true →
        let k := regKey s f base
        let m := fieldsMask (x.1.rc.filter (fun y => decide (lo ≤ y.2) && decide (y.1 ≤ hi)))
        let n := getReg (clearRead s f base lo hi ev) k
        n &&& ~~~m = getReg s k &&& ~~~m ∧ (ev &&& m = 0 → n &&& m = regReset k &&& m) ∧ (ev &&& m ≠ 0 → n &&& m = ev &&& m)))

/-- REGISTER_WRITE (R12, R14 to R16, R384): only a full aligned 64-bit write by a function that may write the register has an effect; writable
bits take the value, ones clear write-one-to-clear bits but those that an event of the same cycle sets, all others stay; registers that
start a command start it; a write of the MSI-X table sets the address, or data and mask. -/
def Obligations.RegisterWrites : Prop :=
  ∀ (s : State) (f : Fin 18) (off w : Nat) (v ev : W64),
    (w ≠ 64 ∨ off % 8 ≠ 0 → exec (.registerWrite f off w v ev) s = .next s) ∧
    (off ≠ R.MOD_RESET_CTRL → onDie s = false ∨ (getFn s f).d3 = true → exec (.registerWrite f off w v ev) s = .next s) ∧
    (off ≠ R.MOD_RESET_CTRL → isMsix off = false → mayWrite s f off = false → exec (.registerWrite f off w v ev) s = .next s) ∧
    (∀ x, off ≠ R.MOD_RESET_CTRL → isMsix off = false → off % 8 = 0 → mayWrite s f off = true → writeOwn s f off v ev = none → regAt off = some x →
      Completes (.registerWrite f off 64 v ev) s (fun t => OnlyReg s t (regKey s f off) ∧
        getReg t (regKey s f off) =
          (getReg s (regKey s f off) &&& ~~~(fieldsMask x.1.rw) ||| v &&& fieldsMask x.1.rw) &&& ~~~(v &&& ~~~ev &&& fieldsMask x.1.w1c))) ∧
    (∀ t, off ≠ R.MOD_RESET_CTRL → isMsix off = false → off % 8 = 0 → mayWrite s f off = true → writeOwn s f off v ev = some t →
      Completes (.registerWrite f off 64 v ev) s (fun u => u = t)) ∧
    (mayWrite s f R.MOD_INT_CAUSE = true → exec (.registerWrite f R.MOD_INT_CAUSE 64 v ev) s = exec (.modIntCauseClear f v ev) s) ∧
    (mayWrite s f R.MOD_INT_MASK = true → exec (.registerWrite f R.MOD_INT_MASK 64 v ev) s = exec (.modIntMaskWrite f v) s) ∧
    (mayWrite s f R.CLK_TIME_SEED = true → exec (.registerWrite f R.CLK_TIME_SEED 64 v ev) s = exec (.clkTimeSeedWrite f v) s) ∧
    (mayWrite s f R.DBG_FLOG_TAIL = true → exec (.registerWrite f R.DBG_FLOG_TAIL 64 v ev) s = exec (.faultRingDrain f v) s) ∧
    (∀ n : Fin 128, mayWrite s f (R.STR_FAULT n) = true → exec (.registerWrite f (R.STR_FAULT n) 64 v ev) s = exec (.stringFaultClear f n v ev) s) ∧
    (mayWrite s f R.STM_RECOVER = true → exec (.registerWrite f R.STM_RECOVER 64 v ev) s = exec (.stmRecover f v) s) ∧
    (mayWrite s f R.STK_SC_CTRL = true → exec (.registerWrite f R.STK_SC_CTRL 64 v ev) s = exec (.scFlush f v) s) ∧
    (mayWrite s f R.FAB_MOD_ADDR = true → exec (.registerWrite f R.FAB_MOD_ADDR 64 v ev) s = exec (.fabModAddrWrite f v) s) ∧
    (fld v 2 0 = 1 → exec (.registerWrite f R.MOD_RESET_CTRL 64 v ev) s = exec (.warmReset f v) s) ∧
    (fld v 2 0 = 2 → exec (.registerWrite f R.MOD_RESET_CTRL 64 v ev) s = exec (.coldReset f v) s) ∧
    (fld v 2 0 = 5 → exec (.registerWrite f R.MOD_RESET_CTRL 64 v ev) s = exec (.shutdown f v) s) ∧
    (∀ i, f ≠ 17 → fnLive s f = true → onDie s = true → (getFn s f).d3 = false → i < (if f = 0 then 256 else 112) →
      let g := vecBase f + i
      Completes (.registerWrite f (0x2000000 + 16 * i) 64 v ev) s (fun t => OnlyMsix s t g ∧ getMsix t g = { getMsix s g with addr := v.toNat / 4 * 4 }) ∧
      (v.getLsbD 32 = true → Completes (.registerWrite f (0x2000008 + 16 * i) 64 v ev) s (fun t => OnlyMsix s t g ∧
        getMsix t g = { getMsix s g with data := fld v 31 0, unmasked := false })))

/-- REG_READ, REG_WRITE, BUF_WRITE, BUF_READ, TUN_REPORT (R439, R440): while the management core answers, the bus reads any register, writes
six, and fills and reads its buffers within their sizes; STATUS tells a write not permitted, a range, or a buffer in use. STATUS for a
range and for a buffer in use is the model's choice, log 85. -/
def Obligations.BusRegistersAndBuffers : Prop :=
  ∀ (s : State),
    let said := fun (st : Nat) (d : List Byte) (t : State) => t = { s with out := s.out ++ [.mgmt st d] }
    (busUp s = false → (∀ a ev, exec (.regRead a ev) s = .next s) ∧ (∀ a v ev, exec (.regWrite a v ev) s = .next s) ∧ (∀ b o d, exec (.bufWrite b o d) s = .next s) ∧
      (∀ o n, exec (.bufRead o n) s = .next s) ∧ (∀ i, exec (.tunReport i) s = .next s)) ∧
    (busUp s = true →
      (∀ a ev, a % 8 = 0 → Completes (.regRead a ev) s (fun t => ∃ u, u = clearRead (readReg s 17 a).2 17 a 0 63 ev ∧
        t = { u with out := u.out ++ [.mgmt 0 (natLe (readReg s 17 a).1.toNat 8)] })) ∧
      (∀ a ev, a % 8 ≠ 0 → Completes (.regRead a ev) s (said 0 (List.replicate 8 0))) ∧
      (∀ a v ev, busWritable a = true → Completes (.regWrite a v ev) s (fun t => t = writeReg { s with out := s.out ++ [.mgmt 0 []] } 17 a v ev)) ∧
      (∀ a v ev, busWritable a = false → Completes (.regWrite a v ev) s (said 2 [])) ∧
      (∀ b o d,
        let size := if b = 0 then 1048576 else 65536
        let inUse := (b = 0 ∧ tunBusy s = true ∧ s.tun.busLoad = true) ∨ (b = 1 ∧ (getFn s 17).mbBusy = true)
        (1 < b ∨ 240 < d.length ∨ size < o + d.length → Completes (.bufWrite b o d) s (said 3 [])) ∧
        (b ≤ 1 → d.length ≤ 240 → o + d.length ≤ size → inUse → Completes (.bufWrite b o d) s (said 4 [])) ∧
        (b = 0 → d.length ≤ 240 → o + d.length ≤ size → ¬ inUse → Completes (.bufWrite b o d) s (fun t =>
          (∀ i, memGet t.tun.busBuf i = if o ≤ i ∧ i < o + d.length then d.getD (i - o) 0 else memGet s.tun.busBuf i) ∧
          t = { s with tun := { s.tun with busBuf := t.tun.busBuf }, out := s.out ++ [.mgmt 0 []] })) ∧
        (b = 1 → d.length ≤ 240 → o + d.length ≤ size → ¬ inUse → Completes (.bufWrite b o d) s (fun t =>
          (∀ i, memGet t.sec.busReq i = if o ≤ i ∧ i < o + d.length then d.getD (i - o) 0 else memGet s.sec.busReq i) ∧
          t = { s with sec := { s.sec with busReq := t.sec.busReq }, out := s.out ++ [.mgmt 0 []] }))) ∧
      (∀ o n, 240 < n ∨ s.sec.busRsp.length < o + n → Completes (.bufRead o n) s (said 3 [])) ∧
      (∀ o n, n ≤ 240 → o + n ≤ s.sec.busRsp.length → Completes (.bufRead o n) s (said 0 ((s.sec.busRsp.drop o).take n))) ∧
      (∀ i e, s.tun.busReport[i]? = some e → Completes (.tunReport i) s (said 0 (repBytes e))) ∧
      (∀ i, s.tun.busReport[i]? = none → Completes (.tunReport i) s (said 3 [])))

/-- TUN_LOAD, SEC_GO, PLDM_DISCOVERY, PLDM_MONITOR, PLDM_FRU, EXTEST (R437 to R441): a load takes the bus's buffer, or is refused while one
runs; a request runs from the bus's mailbox buffer; PLDM tells the ordering number, serial number, grade and sensors; boundary scan is
taken only with no lock and no program, with a DEBUG entry. The form of PLDM answers is the model's choice, log 41, and STATUS in the
refusals log 85. -/
def Obligations.BusCommands : Prop :=
  ∀ (s : State),
    let said := fun (u : State) (st : Nat) (d : List Byte) (t : State) => t = { u with out := u.out ++ [.mgmt st d] }
    (busUp s = false → (∀ c n, exec (.tunLoad c n) s = .next s) ∧ (∀ n, exec (.secGo n) s = .next s) ∧ (∀ i, exec (.pldmMonitor i) s = .next s) ∧
      exec .pldmFru s = .next s ∧ (s.phase ≠ .failed → ∀ c, exec (.pldmDiscovery c) s = .next s)) ∧
    (busUp s = true →
      (∀ c n,
        let bytes := memRead s.tun.busBuf 0 (min n 1048576)
        let ok := { s with out := s.out ++ [.mgmt 0 []] }
        (fwUp s = false → Completes (.tunLoad c n) s (said s 4 [])) ∧
        (fwUp s = true → tunBusy s = true → Completes (.tunLoad c n) s (fun t => ∃ u, Logged { s with out := s.out ++ [.mgmt 4 []] } u 0x106 ∧
          t = Machine.measure u 2 3 (b2n c) 0x106 0xFF (sha384 bytes) [])) ∧
        (fwUp s = true → tunBusy s = false → coreNow s = false → Completes (.tunLoad c n) s (fun t => fld (getReg t R.TUN_STATUS) 1 0 = 1 ∧
          (∀ k, k ≠ R.TUN_STATUS → getReg t k = getReg s k) ∧ t = { ok with
            regs := t.regs
            tun := { s.tun with busLoad := true, jobs := s.tun.jobs ++ [.load true c bytes] } })) ∧
        (tunBusy s = false → coreNow s = true → Completes (.tunLoad c n) s (fun t => t = loadTuning ok true c bytes ∧
          t.sec.count = s.sec.count + 1 ∧ (c = true → t.tun = { s.tun with busReport := t.tun.busReport })))) ∧
      (∀ n, 65536 < n → Completes (.secGo n) s (said s 3 [])) ∧
      (∀ n, n ≤ 65536 →
        let r := memRead s.sec.busReq 0 n
        (fwUp s = false ∨ replaying s (mbHdr r).part = true → Completes (.secGo n) s (said s 4 [])) ∧
        (fwUp s = true → replaying s (mbHdr r).part = false → (getFn s 17).mbBusy = true → Completes (.secGo n) s (fun t => ∃ u,
          Logged (setRegFld s (fnKey 17 R.SEC_MB_STATUS) 47 32 0x904) u 0x904 ∧ said u 4 [] t)) ∧
        (fwUp s = true → replaying s (mbHdr r).part = false → (getFn s 17).mbBusy = false → Completes (.secGo n) s (fun t => ∃ u,
          u = mailbox s 17 r (fun x => mbAny x 17 r) ∧ (getFn u 17).mbBusy = true ∧ (coreNow s = true → (getFn u 17).mbHeld = none) ∧
          (coreNow s = false → (getFn u 17).mbHeld = some r ∧ u.tun = { s.tun with jobs := s.tun.jobs ++ [.box 17] } ∧ u.sec = s.sec) ∧ said u 0 [] t))) ∧
      (∀ i v, sensorOf s i = some v → Completes (.pldmMonitor i) s (said s 0 (natLe v 4))) ∧
      (∀ i, sensorOf s i = none → Completes (.pldmMonitor i) s (said s 3 [])) ∧
      Completes .pldmFru s (said s 0 (orderingNumber s.part.grade ++ natLe s.part.serial 8 ++ natLe s.part.grade 1))) ∧
    (busUp s = true ∨ s.phase = .failed → ∀ c, Completes (.pldmDiscovery c) s (said s 0
      (natLe c 1 ++ natLe (0x50 + s.part.slotId % 8) 1 ++ (if s.phase = .failed then [0x21, 0, 0, 0, 0, 0, 0, 0] else [0x35, 0, 0, 0, 0, 0, 0, 0])))) ∧
    (onDie s = false → exec .extest s = .next s) ∧
    (let free := s.flash.locks = [] ∧ ∀ p, p < 16 → loadedProgs s p = []
     (onDie s = true → free → Completes .extest s (fun t => ∃ u, u = debugMeasure s 0 ∧ u.sec.count = s.sec.count + 1 ∧ t = { u with out := u.out ++ [.jtag true] })) ∧
     (onDie s = true → ¬ free → Completes .extest s (fun t => t = { s with out := s.out ++ [.jtag false] })))

/-- VF i, for i from 1 to 16, serves partition i - 1; one whose partition does not exist or holds no cores reads zero in every BAR, discards
every write, and its vectors are never raised (R384). -/
def Obligations.VirtualFunctionsServeTheirPartitions : Prop :=
  ∀ (s : State) (f : Fin 18), f ≠ 0 → f ≠ 17 →
    barPart s f = f.val - 1 ∧
    (fnLive s f = true ↔ f.val - 1 < s.tun.cur.partCount ∧ coreMask s (f.val - 1) ≠ 0) ∧
    (¬ (f.val - 1 < s.tun.cur.partCount ∧ coreMask s (f.val - 1) ≠ 0) →
      (∀ off w ev, regsUp s = true → (getFn s f).d3 = false →
        Completes (.readClear f off w ev) s (fun t => t = { s with out := s.out ++ [.bar 0 (List.replicate (w / 8) 0)] })) ∧
      (∀ off n ecc, barOpen s f = true → Completes (.bar2Read f off n ecc) s (fun t => t = { s with out := s.out ++ [.bar 0 (List.replicate n 0)] })) ∧
      (∀ off w v ev, exec (.registerWrite f off w v ev) s = .next s) ∧ (∀ off d ecc, exec (.bar2Write f off d ecc) s = .next s) ∧
      (∀ v, fnOfVec v = f.val → raiseVec s v = s ∧ exec (.msixUnmask v) s = .next s))

/-- A step takes the command at the front of the queue and answers what exec answers on the rest; on an empty queue TIME ticks, or nothing
happens without the fixed domain (log 8, the model's choice). -/
def Obligations.AStepRunsTheFrontCommand : Prop :=
  (∀ (c : Instr) (rest : List Instr) (s : State), step { s with pending := c :: rest } = exec c { s with pending := rest }) ∧
  (∀ s : State, s.pending = [] → step s = .next (if timeRuns s then timeTick s else s))

/-- The module right after reset: no command waits, the boot sequence holds the die, the default Tuning of grade MFY2-256-12 is in force,
every register reads its reset value, no core runs, memory is all zeros and in canonical form (the part and the phase are the model's
choice, log 2 and log 3). -/
def Obligations.ResetState : Prop :=
  let s := State.reset
  s.pending = [] ∧ s.phase = .boot ∧ LegalPart s.part ∧ Canonical s ∧ s.tun.cur = defaultTuning 1 [] ∧ (∀ k, getReg s k = regReset k) ∧
  (∀ c, coreRuns s c = false) ∧ (∀ a, memGet s.stack.bytes a = 0) ∧ s.flog.seq = 0 ∧ s.sec.count = 0 ∧ fwUp s = false ∧ onDie s = true

/-- Every command completes: exec answers a next state in every state, and the commands that wait stay as they are. -/
def Obligations.EveryCommandCompletes : Prop :=
  ∀ (c : Instr) (s : State), ∃ t, exec c s = .next t ∧ t.pending = s.pending

/-- Packet headers, unit headers, CONTROL units, sealed units, descriptors and Stream Table entries are laid out and read back whole (R220,
R230, R232, R247, R248, R256, R265): what a sender lays out a receiver reads as it was, with every field at every value that its width
admits; a header, a descriptor or an entry read and laid out again is the same, bit by bit; a unit whose length or CRC does not fit, or
under LINK_CRYPT whose tag does not verify, is not taken whole. The byte order of a header under its CRC is the model's choice, log 125,
and the link key a free value, log 126. -/
def Obligations.WordsReadBack : Prop :=
  (∀ pk : Packet, pk.wf = true → headerParse (headerBits pk) pk.data = some pk) ∧
  (∀ (h : BitVec 96) (d : List Byte) (pk : Packet), headerParse h d = some pk → headerBits pk = h ∧ pk.data = d) ∧
  (∀ u : LinkUnit, u.wf = true → headerUnit (unitHeader u u.data.length) u.data = u ∧
    bits (unitHeader u u.data.length).toNat 7 0 + 1 = u.data.length ∧ headerType (unitHeader u u.data.length) = (if u.mcast then 3 else 0)) ∧
  (∀ c : CtrlUnit, c.wf = true → ctrlParse (ctrlBytes c) = c ∧ (ctrlBytes c).length = 64) ∧
  (∀ (p : Port) (u : LinkUnit), u.wf = true → p.rxCtr = p.txCtr → (p.crypt = true → u.data.length ≤ 240) →
    let w := wireUnit p (unitHeader u) u.data
    openUnit p w = some u.data ∧ headerUnit w.header u.data = u ∧ w.wf = true) ∧
  (∀ (p : Port) (w : UnitWire), w.data.length ≠ bits w.header.toNat 7 0 + 1 ∨ w.crc ≠ unitCrc w.header w.data → openUnit p w = none) ∧
  (∀ (p : Port) (w : UnitWire) (d : List Byte), openUnit p w = some d → p.crypt = true →
    d.length = w.data.length - 16 ∧ gcmTag (aesKeys p.key) (linkNonce p.keyEpoch p.rxCtr % 2 ^ 96 * 2 ^ 32 + 1) (natLe w.header.toNat 10)
      (w.data.take (w.data.length - 16)) = w.data.drop (w.data.length - 16)) ∧
  (∀ b : List Byte, b.length = 32 → descBytes (descParse b) = b) ∧
  (∀ b : List Byte, b.length = 128 → b[65]? = some 0 → b.drop 112 = List.replicate 16 0 → entBytes (entParse b) = b)

/-- What manufacture fixed stays legal over every step: the grade, its number of fused cores, and at most 64 version fuses (R1, R2, R362). -/
def Obligations.EveryStepKeepsTheLegalPart : Prop :=
  ∀ s t : State, LegalPart s.part → step s = .next t → LegalPart t.part

/-- A fused core is never enabled later (R2): over every step the grade and the list of fused cores stay as they were. -/
def Obligations.AFusedCoreStaysFused : Prop :=
  ∀ s t : State, step s = .next t → t.part.grade = s.part.grade ∧ ∀ c, isFused t c = isFused s c
end

