-- ==== Sys2Proof/Laws/Table.lean ====
section
/-! SUPPORT. Sparse tables and byte memories: what a read finds after a write, and that every operation keeps the canonical form. -/

namespace Sys2Proof.Machine

variable {α : Type}

/-! ## Reading after an update -/

@[simp] theorem tget_nil (d : Nat → α) (k : Nat) : tget d [] k = d k := rfl

theorem tget_tput_same (d : Nat → α) (t : Tbl α) (k : Nat) (v : α) : tget d (tput t k v) k = v := by
  induction t with
  | nil => simp [tput, tget]
  | cons e t ih =>
    obtain ⟨j, w⟩ := e
    simp only [tput]
    split
    · simp [tget]
    · split
      · simp [tget]
      · next h1 h2 => simp only [tget]; rw [if_neg (fun h => h2 h.symm)]; exact ih

theorem tget_tput_ne (d : Nat → α) (t : Tbl α) {k i : Nat} (v : α) (h : i ≠ k) : tget d (tput t k v) i = tget d t i := by
  induction t with
  | nil => simp [tput, tget, Ne.symm h]
  | cons e t ih =>
    obtain ⟨j, w⟩ := e
    simp only [tput]
    split
    · simp [tget, Ne.symm h]
    · split
      · next h2 => subst h2; simp [tget, Ne.symm h]
      · simp only [tget]
        split
        · rfl
        · exact ih

theorem tget_tdel_same (d : Nat → α) (t : Tbl α) (k : Nat) : tget d (tdel t k) k = d k := by
  induction t with
  | nil => rfl
  | cons e t ih =>
    obtain ⟨j, w⟩ := e
    by_cases hj : j = k
    · subst hj; simpa [tdel] using ih
    · have : tdel ((j, w) :: t) k = (j, w) :: tdel t k := by simp [tdel, hj]
      rw [this]; simp only [tget]; rw [if_neg hj]; exact ih

theorem tget_tdel_ne (d : Nat → α) (t : Tbl α) {k i : Nat} (h : i ≠ k) : tget d (tdel t k) i = tget d t i := by
  induction t with
  | nil => rfl
  | cons e t ih =>
    obtain ⟨j, w⟩ := e
    by_cases hj : j = k
    · subst hj
      have : tdel ((j, w) :: t) j = tdel t j := by simp [tdel]
      rw [this, ih]; simp [tget, Ne.symm h]
    · have : tdel ((j, w) :: t) k = (j, w) :: tdel t k := by simp [tdel, hj]
      rw [this]; simp only [tget]; split
      · rfl
      · exact ih

variable [DecidableEq α]

/-- A write is read back, whatever the value. -/
@[simp] theorem tget_tset_same (d : Nat → α) (t : Tbl α) (k : Nat) (v : α) : tget d (tset d t k v) k = v := by
  unfold tset; split
  · next h => rw [tget_tdel_same, h]
  · exact tget_tput_same d t k v

/-- A write leaves every other key alone. -/
theorem tget_tset_ne (d : Nat → α) (t : Tbl α) {k i : Nat} (v : α) (h : i ≠ k) : tget d (tset d t k v) i = tget d t i := by
  unfold tset; split
  · exact tget_tdel_ne d t h
  · exact tget_tput_ne d t v h

@[simp] theorem tget_tmod_same (d : Nat → α) (t : Tbl α) (k : Nat) (f : α → α) : tget d (tmod d t k f) k = f (tget d t k) := by
  simp [tmod]

theorem tget_tmod_ne (d : Nat → α) (t : Tbl α) {k i : Nat} (f : α → α) (h : i ≠ k) : tget d (tmod d t k f) i = tget d t i :=
  tget_tset_ne d t _ h

/-! ## The canonical form -/

omit [DecidableEq α] in
theorem tsorted_tail {e : Nat × α} {t : Tbl α} (h : tsorted (e :: t) = true) : tsorted t = true := by
  cases t with
  | nil => rfl
  | cons b t => simp only [tsorted, Bool.and_eq_true] at h; exact h.2

omit [DecidableEq α] in
/-- Keys are strictly rising: the head's key is below every later one. -/
theorem tsorted_head_lt {e : Nat × α} {t : Tbl α} (h : tsorted (e :: t) = true) : ∀ x ∈ t, e.1 < x.1 := by
  induction t generalizing e with
  | nil => simp
  | cons b t ih =>
    simp only [tsorted, Bool.and_eq_true, decide_eq_true_eq] at h
    intro x hx
    rcases List.mem_cons.1 hx with rfl | hx
    · exact h.1
    · exact Nat.lt_trans h.1 (ih h.2 x hx)

omit [DecidableEq α] in
theorem tsorted_cons {e : Nat × α} {t : Tbl α} (h : tsorted t = true) (hl : ∀ x ∈ t, e.1 < x.1) : tsorted (e :: t) = true := by
  cases t with
  | nil => rfl
  | cons b t => simp only [tsorted, Bool.and_eq_true, decide_eq_true_eq]; exact ⟨hl b (by simp), h⟩

omit [DecidableEq α] in
theorem tsorted_filter {t : Tbl α} (p : Nat × α → Bool) (h : tsorted t = true) : tsorted (t.filter p) = true := by
  induction t with
  | nil => rfl
  | cons e t ih =>
    have ht := ih (tsorted_tail h)
    by_cases hp : p e
    · rw [List.filter_cons_of_pos hp]
      exact tsorted_cons ht (fun x hx => tsorted_head_lt h x (List.mem_filter.1 hx).1)
    · rw [List.filter_cons_of_neg (by simpa using hp)]; exact ht

omit [DecidableEq α] in
theorem mem_tput {t : Tbl α} {k : Nat} {v : α} {x : Nat × α} (h : x ∈ tput t k v) : x = (k, v) ∨ x ∈ t := by
  induction t with
  | nil => simpa [tput] using h
  | cons e t ih =>
    obtain ⟨j, w⟩ := e
    simp only [tput] at h
    split at h
    · simpa using h
    · split at h
      · rcases List.mem_cons.1 h with rfl | h
        · exact .inl rfl
        · exact .inr (List.mem_cons_of_mem _ h)
      · rcases List.mem_cons.1 h with rfl | h
        · exact .inr (by simp)
        · rcases ih h with h | h
          · exact .inl h
          · exact .inr (List.mem_cons_of_mem _ h)

omit [DecidableEq α] in
theorem tsorted_tput {t : Tbl α} (k : Nat) (v : α) (h : tsorted t = true) : tsorted (tput t k v) = true := by
  induction t with
  | nil => rfl
  | cons e t ih =>
    obtain ⟨j, w⟩ := e
    simp only [tput]
    split
    · next hk => exact tsorted_cons h (fun x hx => by
        rcases List.mem_cons.1 hx with rfl | hx
        · exact hk
        · exact Nat.lt_trans hk (tsorted_head_lt h x hx))
    · split
      · next h2 => subst h2; exact tsorted_cons (tsorted_tail h) (fun x hx => tsorted_head_lt (e := (k, w)) h x hx)
      · next h1 h2 =>
        refine tsorted_cons (ih (tsorted_tail h)) (fun x hx => ?_)
        rcases mem_tput hx with rfl | hx
        · show j < k; omega
        · exact tsorted_head_lt h x hx

/-- Any part of a canonical table is canonical. -/
theorem wf_filter {d : Nat → α} {t : Tbl α} (p : Nat × α → Bool) (h : Tbl.wf d t = true) : Tbl.wf d (t.filter p) = true := by
  simp only [Tbl.wf, Bool.and_eq_true, List.all_eq_true] at h ⊢
  exact ⟨tsorted_filter p h.1, fun x hx => h.2 x (List.mem_filter.1 hx).1⟩

/-- Writing keeps the canonical form. -/
theorem wf_tset {d : Nat → α} {t : Tbl α} (k : Nat) (v : α) (h : Tbl.wf d t = true) : Tbl.wf d (tset d t k v) = true := by
  unfold tset; split
  · exact wf_filter _ h
  · next hv =>
    simp only [Tbl.wf, Bool.and_eq_true, List.all_eq_true] at h ⊢
    refine ⟨tsorted_tput k v h.1, fun x hx => ?_⟩
    rcases mem_tput hx with rfl | hx
    · simpa using hv
    · exact h.2 x hx

/-- Changing an entry keeps the canonical form. -/
theorem wf_tmod {d : Nat → α} {t : Tbl α} (k : Nat) (f : α → α) (h : Tbl.wf d t = true) : Tbl.wf d (tmod d t k f) = true := wf_tset k _ h

/-- Forgetting entries keeps the canonical form. -/
theorem wf_tclear {d : Nat → α} {t : Tbl α} (p : Nat → Bool) (h : Tbl.wf d t = true) : Tbl.wf d (tclear t p) = true := wf_filter _ h

omit [DecidableEq α] in
theorem tsorted_map {t : Tbl α} (f : Nat → α → α) (h : tsorted t = true) : tsorted (t.map (fun e => (e.1, f e.1 e.2))) = true := by
  induction t with
  | nil => rfl
  | cons e t ih =>
    refine tsorted_cons (ih (tsorted_tail h)) (fun x hx => ?_)
    obtain ⟨y, hy, rfl⟩ := List.mem_map.1 hx
    exact tsorted_head_lt h y hy

/-- Changing every entry keeps the canonical form. -/
theorem wf_tmap {d : Nat → α} {t : Tbl α} (f : Nat → α → α) (h : Tbl.wf d t = true) : Tbl.wf d (tmap d t f) = true := by
  simp only [Tbl.wf, Bool.and_eq_true, List.all_eq_true] at h ⊢
  exact ⟨tsorted_filter _ (tsorted_map f h.1), fun x hx => (List.mem_filter.1 hx).2⟩

/-! ## Byte memories -/

/-- A byte written is read back. -/
@[simp] theorem memGet_memSet_same (m : Mem) (a : Nat) (b : Byte) : memGet (memSet m a b) a = b := tget_tset_same _ _ _ _

/-- Every other byte keeps its value. -/
theorem memGet_memSet_ne (m : Mem) {a i : Nat} (b : Byte) (h : i ≠ a) : memGet (memSet m a b) i = memGet m i := tget_tset_ne _ _ _ h

/-- Bytes outside a written range keep their values. -/
theorem memGet_memWrite_out (m : Mem) (a : Nat) (bs : List Byte) (i : Nat) (h : i < a ∨ a + bs.length ≤ i) :
    memGet (memWrite m a bs) i = memGet m i := by
  induction bs generalizing m a with
  | nil => rfl
  | cons b bs ih =>
    simp only [List.length_cons] at h
    simp only [memWrite]
    rw [ih (memSet m a b) (a + 1) (by omega), memGet_memSet_ne m b (by omega)]

/-- A written range reads as what was written. -/
theorem memRead_memWrite (m : Mem) (a : Nat) (bs : List Byte) : memRead (memWrite m a bs) a bs.length = bs := by
  induction bs generalizing m a with
  | nil => rfl
  | cons b bs ih =>
    simp only [memWrite, List.length_cons, memRead]
    rw [ih, memGet_memWrite_out _ _ _ _ (.inl (Nat.lt_succ_self a)), memGet_memSet_same]

/-- Writing a byte keeps the canonical form. -/
theorem wf_memSet {m : Mem} (a : Nat) (b : Byte) (h : Memory.wf m = true) : Memory.wf (memSet m a b) = true := wf_tset a b h

/-- Writing bytes keeps the canonical form. -/
theorem wf_memWrite {m : Mem} (a : Nat) (bs : List Byte) (h : Memory.wf m = true) : Memory.wf (memWrite m a bs) = true := by
  induction bs generalizing m a with
  | nil => exact h
  | cons b bs ih => exact ih (a + 1) (wf_memSet a b h)

/-- Writing zeros keeps the canonical form. -/
theorem wf_memZero {m : Mem} (a n : Nat) (h : Memory.wf m = true) : Memory.wf (memZero m a n) = true := wf_tclear _ h

end Sys2Proof.Machine
end

