-- ==== Sys2Proof/Laws/State.lean ====
section
/-! SUPPORT. What each named update of State leaves alone, field by field, and what reads find after it. -/

namespace Sys2Proof.Machine

/-! ## setReg -/

@[simp] theorem setReg_pending (s : State) (k : Nat) (v : W64) : (setReg s k v).pending = s.pending := rfl
@[simp] theorem setReg_phase (s : State) (k : Nat) (v : W64) : (setReg s k v).phase = s.phase := rfl
@[simp] theorem setReg_began (s : State) (k : Nat) (v : W64) : (setReg s k v).began = s.began := rfl
@[simp] theorem setReg_small (s : State) (k : Nat) (v : W64) : (setReg s k v).small = s.small := rfl
@[simp] theorem setReg_part (s : State) (k : Nat) (v : W64) : (setReg s k v).part = s.part := rfl
@[simp] theorem setReg_flash (s : State) (k : Nat) (v : W64) : (setReg s k v).flash = s.flash := rfl
@[simp] theorem setReg_fns (s : State) (k : Nat) (v : W64) : (setReg s k v).fns = s.fns := rfl
@[simp] theorem setReg_msix (s : State) (k : Nat) (v : W64) : (setReg s k v).msix = s.msix := rfl
@[simp] theorem setReg_flog (s : State) (k : Nat) (v : W64) : (setReg s k v).flog = s.flog := rfl
@[simp] theorem setReg_tun (s : State) (k : Nat) (v : W64) : (setReg s k v).tun = s.tun := rfl
@[simp] theorem setReg_arrs (s : State) (k : Nat) (v : W64) : (setReg s k v).arrs = s.arrs := rfl
@[simp] theorem setReg_strs (s : State) (k : Nat) (v : W64) : (setReg s k v).strs = s.strs := rfl
@[simp] theorem setReg_cores (s : State) (k : Nat) (v : W64) : (setReg s k v).cores = s.cores := rfl
@[simp] theorem setReg_parts (s : State) (k : Nat) (v : W64) : (setReg s k v).parts = s.parts := rfl
@[simp] theorem setReg_stack (s : State) (k : Nat) (v : W64) : (setReg s k v).stack = s.stack := rfl
@[simp] theorem setReg_mesh (s : State) (k : Nat) (v : W64) : (setReg s k v).mesh = s.mesh := rfl
@[simp] theorem setReg_stm (s : State) (k : Nat) (v : W64) : (setReg s k v).stm = s.stm := rfl
@[simp] theorem setReg_fab (s : State) (k : Nat) (v : W64) : (setReg s k v).fab = s.fab := rfl
@[simp] theorem setReg_grx (s : State) (k : Nat) (v : W64) : (setReg s k v).grx = s.grx := rfl
@[simp] theorem setReg_clk (s : State) (k : Nat) (v : W64) : (setReg s k v).clk = s.clk := rfl
@[simp] theorem setReg_pwr (s : State) (k : Nat) (v : W64) : (setReg s k v).pwr = s.pwr := rfl
@[simp] theorem setReg_sec (s : State) (k : Nat) (v : W64) : (setReg s k v).sec = s.sec := rfl
@[simp] theorem setReg_dbg (s : State) (k : Nat) (v : W64) : (setReg s k v).dbg = s.dbg := rfl
@[simp] theorem setReg_host (s : State) (k : Nat) (v : W64) : (setReg s k v).host = s.host := rfl
@[simp] theorem setReg_gpx (s : State) (k : Nat) (v : W64) : (setReg s k v).gpx = s.gpx := rfl
@[simp] theorem setReg_out (s : State) (k : Nat) (v : W64) : (setReg s k v).out = s.out := rfl
@[simp] theorem setReg_free (s : State) (k : Nat) (v : W64) : (setReg s k v).free = s.free := rfl

/-! ## modReg -/

@[simp] theorem modReg_pending (s : State) (k : Nat) (f : W64 → W64) : (modReg s k f).pending = s.pending := rfl
@[simp] theorem modReg_phase (s : State) (k : Nat) (f : W64 → W64) : (modReg s k f).phase = s.phase := rfl
@[simp] theorem modReg_began (s : State) (k : Nat) (f : W64 → W64) : (modReg s k f).began = s.began := rfl
@[simp] theorem modReg_small (s : State) (k : Nat) (f : W64 → W64) : (modReg s k f).small = s.small := rfl
@[simp] theorem modReg_part (s : State) (k : Nat) (f : W64 → W64) : (modReg s k f).part = s.part := rfl
@[simp] theorem modReg_flash (s : State) (k : Nat) (f : W64 → W64) : (modReg s k f).flash = s.flash := rfl
@[simp] theorem modReg_fns (s : State) (k : Nat) (f : W64 → W64) : (modReg s k f).fns = s.fns := rfl
@[simp] theorem modReg_msix (s : State) (k : Nat) (f : W64 → W64) : (modReg s k f).msix = s.msix := rfl
@[simp] theorem modReg_flog (s : State) (k : Nat) (f : W64 → W64) : (modReg s k f).flog = s.flog := rfl
@[simp] theorem modReg_tun (s : State) (k : Nat) (f : W64 → W64) : (modReg s k f).tun = s.tun := rfl
@[simp] theorem modReg_arrs (s : State) (k : Nat) (f : W64 → W64) : (modReg s k f).arrs = s.arrs := rfl
@[simp] theorem modReg_strs (s : State) (k : Nat) (f : W64 → W64) : (modReg s k f).strs = s.strs := rfl
@[simp] theorem modReg_cores (s : State) (k : Nat) (f : W64 → W64) : (modReg s k f).cores = s.cores := rfl
@[simp] theorem modReg_parts (s : State) (k : Nat) (f : W64 → W64) : (modReg s k f).parts = s.parts := rfl
@[simp] theorem modReg_stack (s : State) (k : Nat) (f : W64 → W64) : (modReg s k f).stack = s.stack := rfl
@[simp] theorem modReg_mesh (s : State) (k : Nat) (f : W64 → W64) : (modReg s k f).mesh = s.mesh := rfl
@[simp] theorem modReg_stm (s : State) (k : Nat) (f : W64 → W64) : (modReg s k f).stm = s.stm := rfl
@[simp] theorem modReg_fab (s : State) (k : Nat) (f : W64 → W64) : (modReg s k f).fab = s.fab := rfl
@[simp] theorem modReg_grx (s : State) (k : Nat) (f : W64 → W64) : (modReg s k f).grx = s.grx := rfl
@[simp] theorem modReg_clk (s : State) (k : Nat) (f : W64 → W64) : (modReg s k f).clk = s.clk := rfl
@[simp] theorem modReg_pwr (s : State) (k : Nat) (f : W64 → W64) : (modReg s k f).pwr = s.pwr := rfl
@[simp] theorem modReg_sec (s : State) (k : Nat) (f : W64 → W64) : (modReg s k f).sec = s.sec := rfl
@[simp] theorem modReg_dbg (s : State) (k : Nat) (f : W64 → W64) : (modReg s k f).dbg = s.dbg := rfl
@[simp] theorem modReg_host (s : State) (k : Nat) (f : W64 → W64) : (modReg s k f).host = s.host := rfl
@[simp] theorem modReg_gpx (s : State) (k : Nat) (f : W64 → W64) : (modReg s k f).gpx = s.gpx := rfl
@[simp] theorem modReg_out (s : State) (k : Nat) (f : W64 → W64) : (modReg s k f).out = s.out := rfl
@[simp] theorem modReg_free (s : State) (k : Nat) (f : W64 → W64) : (modReg s k f).free = s.free := rfl

/-! ## setRegFld -/

@[simp] theorem setRegFld_pending (s : State) (k hi lo v : Nat) : (setRegFld s k hi lo v).pending = s.pending := rfl
@[simp] theorem setRegFld_phase (s : State) (k hi lo v : Nat) : (setRegFld s k hi lo v).phase = s.phase := rfl
@[simp] theorem setRegFld_began (s : State) (k hi lo v : Nat) : (setRegFld s k hi lo v).began = s.began := rfl
@[simp] theorem setRegFld_small (s : State) (k hi lo v : Nat) : (setRegFld s k hi lo v).small = s.small := rfl
@[simp] theorem setRegFld_part (s : State) (k hi lo v : Nat) : (setRegFld s k hi lo v).part = s.part := rfl
@[simp] theorem setRegFld_flash (s : State) (k hi lo v : Nat) : (setRegFld s k hi lo v).flash = s.flash := rfl
@[simp] theorem setRegFld_fns (s : State) (k hi lo v : Nat) : (setRegFld s k hi lo v).fns = s.fns := rfl
@[simp] theorem setRegFld_msix (s : State) (k hi lo v : Nat) : (setRegFld s k hi lo v).msix = s.msix := rfl
@[simp] theorem setRegFld_flog (s : State) (k hi lo v : Nat) : (setRegFld s k hi lo v).flog = s.flog := rfl
@[simp] theorem setRegFld_tun (s : State) (k hi lo v : Nat) : (setRegFld s k hi lo v).tun = s.tun := rfl
@[simp] theorem setRegFld_arrs (s : State) (k hi lo v : Nat) : (setRegFld s k hi lo v).arrs = s.arrs := rfl
@[simp] theorem setRegFld_strs (s : State) (k hi lo v : Nat) : (setRegFld s k hi lo v).strs = s.strs := rfl
@[simp] theorem setRegFld_cores (s : State) (k hi lo v : Nat) : (setRegFld s k hi lo v).cores = s.cores := rfl
@[simp] theorem setRegFld_parts (s : State) (k hi lo v : Nat) : (setRegFld s k hi lo v).parts = s.parts := rfl
@[simp] theorem setRegFld_stack (s : State) (k hi lo v : Nat) : (setRegFld s k hi lo v).stack = s.stack := rfl
@[simp] theorem setRegFld_mesh (s : State) (k hi lo v : Nat) : (setRegFld s k hi lo v).mesh = s.mesh := rfl
@[simp] theorem setRegFld_stm (s : State) (k hi lo v : Nat) : (setRegFld s k hi lo v).stm = s.stm := rfl
@[simp] theorem setRegFld_fab (s : State) (k hi lo v : Nat) : (setRegFld s k hi lo v).fab = s.fab := rfl
@[simp] theorem setRegFld_grx (s : State) (k hi lo v : Nat) : (setRegFld s k hi lo v).grx = s.grx := rfl
@[simp] theorem setRegFld_clk (s : State) (k hi lo v : Nat) : (setRegFld s k hi lo v).clk = s.clk := rfl
@[simp] theorem setRegFld_pwr (s : State) (k hi lo v : Nat) : (setRegFld s k hi lo v).pwr = s.pwr := rfl
@[simp] theorem setRegFld_sec (s : State) (k hi lo v : Nat) : (setRegFld s k hi lo v).sec = s.sec := rfl
@[simp] theorem setRegFld_dbg (s : State) (k hi lo v : Nat) : (setRegFld s k hi lo v).dbg = s.dbg := rfl
@[simp] theorem setRegFld_host (s : State) (k hi lo v : Nat) : (setRegFld s k hi lo v).host = s.host := rfl
@[simp] theorem setRegFld_gpx (s : State) (k hi lo v : Nat) : (setRegFld s k hi lo v).gpx = s.gpx := rfl
@[simp] theorem setRegFld_out (s : State) (k hi lo v : Nat) : (setRegFld s k hi lo v).out = s.out := rfl
@[simp] theorem setRegFld_free (s : State) (k hi lo v : Nat) : (setRegFld s k hi lo v).free = s.free := rfl

/-! ## modFn -/

@[simp] theorem modFn_pending (s : State) (i : Nat) (f : FnSt → FnSt) : (modFn s i f).pending = s.pending := rfl
@[simp] theorem modFn_phase (s : State) (i : Nat) (f : FnSt → FnSt) : (modFn s i f).phase = s.phase := rfl
@[simp] theorem modFn_began (s : State) (i : Nat) (f : FnSt → FnSt) : (modFn s i f).began = s.began := rfl
@[simp] theorem modFn_small (s : State) (i : Nat) (f : FnSt → FnSt) : (modFn s i f).small = s.small := rfl
@[simp] theorem modFn_part (s : State) (i : Nat) (f : FnSt → FnSt) : (modFn s i f).part = s.part := rfl
@[simp] theorem modFn_flash (s : State) (i : Nat) (f : FnSt → FnSt) : (modFn s i f).flash = s.flash := rfl
@[simp] theorem modFn_regs (s : State) (i : Nat) (f : FnSt → FnSt) : (modFn s i f).regs = s.regs := rfl
@[simp] theorem modFn_msix (s : State) (i : Nat) (f : FnSt → FnSt) : (modFn s i f).msix = s.msix := rfl
@[simp] theorem modFn_flog (s : State) (i : Nat) (f : FnSt → FnSt) : (modFn s i f).flog = s.flog := rfl
@[simp] theorem modFn_tun (s : State) (i : Nat) (f : FnSt → FnSt) : (modFn s i f).tun = s.tun := rfl
@[simp] theorem modFn_arrs (s : State) (i : Nat) (f : FnSt → FnSt) : (modFn s i f).arrs = s.arrs := rfl
@[simp] theorem modFn_strs (s : State) (i : Nat) (f : FnSt → FnSt) : (modFn s i f).strs = s.strs := rfl
@[simp] theorem modFn_cores (s : State) (i : Nat) (f : FnSt → FnSt) : (modFn s i f).cores = s.cores := rfl
@[simp] theorem modFn_parts (s : State) (i : Nat) (f : FnSt → FnSt) : (modFn s i f).parts = s.parts := rfl
@[simp] theorem modFn_stack (s : State) (i : Nat) (f : FnSt → FnSt) : (modFn s i f).stack = s.stack := rfl
@[simp] theorem modFn_mesh (s : State) (i : Nat) (f : FnSt → FnSt) : (modFn s i f).mesh = s.mesh := rfl
@[simp] theorem modFn_stm (s : State) (i : Nat) (f : FnSt → FnSt) : (modFn s i f).stm = s.stm := rfl
@[simp] theorem modFn_fab (s : State) (i : Nat) (f : FnSt → FnSt) : (modFn s i f).fab = s.fab := rfl
@[simp] theorem modFn_grx (s : State) (i : Nat) (f : FnSt → FnSt) : (modFn s i f).grx = s.grx := rfl
@[simp] theorem modFn_clk (s : State) (i : Nat) (f : FnSt → FnSt) : (modFn s i f).clk = s.clk := rfl
@[simp] theorem modFn_pwr (s : State) (i : Nat) (f : FnSt → FnSt) : (modFn s i f).pwr = s.pwr := rfl
@[simp] theorem modFn_sec (s : State) (i : Nat) (f : FnSt → FnSt) : (modFn s i f).sec = s.sec := rfl
@[simp] theorem modFn_dbg (s : State) (i : Nat) (f : FnSt → FnSt) : (modFn s i f).dbg = s.dbg := rfl
@[simp] theorem modFn_host (s : State) (i : Nat) (f : FnSt → FnSt) : (modFn s i f).host = s.host := rfl
@[simp] theorem modFn_gpx (s : State) (i : Nat) (f : FnSt → FnSt) : (modFn s i f).gpx = s.gpx := rfl
@[simp] theorem modFn_out (s : State) (i : Nat) (f : FnSt → FnSt) : (modFn s i f).out = s.out := rfl
@[simp] theorem modFn_free (s : State) (i : Nat) (f : FnSt → FnSt) : (modFn s i f).free = s.free := rfl

/-! ## setArr -/

@[simp] theorem setArr_pending (s : State) (i : Nat) (a : Arr) : (setArr s i a).pending = s.pending := rfl
@[simp] theorem setArr_phase (s : State) (i : Nat) (a : Arr) : (setArr s i a).phase = s.phase := rfl
@[simp] theorem setArr_began (s : State) (i : Nat) (a : Arr) : (setArr s i a).began = s.began := rfl
@[simp] theorem setArr_small (s : State) (i : Nat) (a : Arr) : (setArr s i a).small = s.small := rfl
@[simp] theorem setArr_part (s : State) (i : Nat) (a : Arr) : (setArr s i a).part = s.part := rfl
@[simp] theorem setArr_flash (s : State) (i : Nat) (a : Arr) : (setArr s i a).flash = s.flash := rfl
@[simp] theorem setArr_regs (s : State) (i : Nat) (a : Arr) : (setArr s i a).regs = s.regs := rfl
@[simp] theorem setArr_fns (s : State) (i : Nat) (a : Arr) : (setArr s i a).fns = s.fns := rfl
@[simp] theorem setArr_msix (s : State) (i : Nat) (a : Arr) : (setArr s i a).msix = s.msix := rfl
@[simp] theorem setArr_flog (s : State) (i : Nat) (a : Arr) : (setArr s i a).flog = s.flog := rfl
@[simp] theorem setArr_tun (s : State) (i : Nat) (a : Arr) : (setArr s i a).tun = s.tun := rfl
@[simp] theorem setArr_strs (s : State) (i : Nat) (a : Arr) : (setArr s i a).strs = s.strs := rfl
@[simp] theorem setArr_cores (s : State) (i : Nat) (a : Arr) : (setArr s i a).cores = s.cores := rfl
@[simp] theorem setArr_parts (s : State) (i : Nat) (a : Arr) : (setArr s i a).parts = s.parts := rfl
@[simp] theorem setArr_stack (s : State) (i : Nat) (a : Arr) : (setArr s i a).stack = s.stack := rfl
@[simp] theorem setArr_mesh (s : State) (i : Nat) (a : Arr) : (setArr s i a).mesh = s.mesh := rfl
@[simp] theorem setArr_stm (s : State) (i : Nat) (a : Arr) : (setArr s i a).stm = s.stm := rfl
@[simp] theorem setArr_fab (s : State) (i : Nat) (a : Arr) : (setArr s i a).fab = s.fab := rfl
@[simp] theorem setArr_grx (s : State) (i : Nat) (a : Arr) : (setArr s i a).grx = s.grx := rfl
@[simp] theorem setArr_clk (s : State) (i : Nat) (a : Arr) : (setArr s i a).clk = s.clk := rfl
@[simp] theorem setArr_pwr (s : State) (i : Nat) (a : Arr) : (setArr s i a).pwr = s.pwr := rfl
@[simp] theorem setArr_sec (s : State) (i : Nat) (a : Arr) : (setArr s i a).sec = s.sec := rfl
@[simp] theorem setArr_dbg (s : State) (i : Nat) (a : Arr) : (setArr s i a).dbg = s.dbg := rfl
@[simp] theorem setArr_host (s : State) (i : Nat) (a : Arr) : (setArr s i a).host = s.host := rfl
@[simp] theorem setArr_gpx (s : State) (i : Nat) (a : Arr) : (setArr s i a).gpx = s.gpx := rfl
@[simp] theorem setArr_out (s : State) (i : Nat) (a : Arr) : (setArr s i a).out = s.out := rfl
@[simp] theorem setArr_free (s : State) (i : Nat) (a : Arr) : (setArr s i a).free = s.free := rfl

/-! ## modArr -/

@[simp] theorem modArr_pending (s : State) (i : Nat) (f : Arr → Arr) : (modArr s i f).pending = s.pending := rfl
@[simp] theorem modArr_phase (s : State) (i : Nat) (f : Arr → Arr) : (modArr s i f).phase = s.phase := rfl
@[simp] theorem modArr_began (s : State) (i : Nat) (f : Arr → Arr) : (modArr s i f).began = s.began := rfl
@[simp] theorem modArr_small (s : State) (i : Nat) (f : Arr → Arr) : (modArr s i f).small = s.small := rfl
@[simp] theorem modArr_part (s : State) (i : Nat) (f : Arr → Arr) : (modArr s i f).part = s.part := rfl
@[simp] theorem modArr_flash (s : State) (i : Nat) (f : Arr → Arr) : (modArr s i f).flash = s.flash := rfl
@[simp] theorem modArr_regs (s : State) (i : Nat) (f : Arr → Arr) : (modArr s i f).regs = s.regs := rfl
@[simp] theorem modArr_fns (s : State) (i : Nat) (f : Arr → Arr) : (modArr s i f).fns = s.fns := rfl
@[simp] theorem modArr_msix (s : State) (i : Nat) (f : Arr → Arr) : (modArr s i f).msix = s.msix := rfl
@[simp] theorem modArr_flog (s : State) (i : Nat) (f : Arr → Arr) : (modArr s i f).flog = s.flog := rfl
@[simp] theorem modArr_tun (s : State) (i : Nat) (f : Arr → Arr) : (modArr s i f).tun = s.tun := rfl
@[simp] theorem modArr_strs (s : State) (i : Nat) (f : Arr → Arr) : (modArr s i f).strs = s.strs := rfl
@[simp] theorem modArr_cores (s : State) (i : Nat) (f : Arr → Arr) : (modArr s i f).cores = s.cores := rfl
@[simp] theorem modArr_parts (s : State) (i : Nat) (f : Arr → Arr) : (modArr s i f).parts = s.parts := rfl
@[simp] theorem modArr_stack (s : State) (i : Nat) (f : Arr → Arr) : (modArr s i f).stack = s.stack := rfl
@[simp] theorem modArr_mesh (s : State) (i : Nat) (f : Arr → Arr) : (modArr s i f).mesh = s.mesh := rfl
@[simp] theorem modArr_stm (s : State) (i : Nat) (f : Arr → Arr) : (modArr s i f).stm = s.stm := rfl
@[simp] theorem modArr_fab (s : State) (i : Nat) (f : Arr → Arr) : (modArr s i f).fab = s.fab := rfl
@[simp] theorem modArr_grx (s : State) (i : Nat) (f : Arr → Arr) : (modArr s i f).grx = s.grx := rfl
@[simp] theorem modArr_clk (s : State) (i : Nat) (f : Arr → Arr) : (modArr s i f).clk = s.clk := rfl
@[simp] theorem modArr_pwr (s : State) (i : Nat) (f : Arr → Arr) : (modArr s i f).pwr = s.pwr := rfl
@[simp] theorem modArr_sec (s : State) (i : Nat) (f : Arr → Arr) : (modArr s i f).sec = s.sec := rfl
@[simp] theorem modArr_dbg (s : State) (i : Nat) (f : Arr → Arr) : (modArr s i f).dbg = s.dbg := rfl
@[simp] theorem modArr_host (s : State) (i : Nat) (f : Arr → Arr) : (modArr s i f).host = s.host := rfl
@[simp] theorem modArr_gpx (s : State) (i : Nat) (f : Arr → Arr) : (modArr s i f).gpx = s.gpx := rfl
@[simp] theorem modArr_out (s : State) (i : Nat) (f : Arr → Arr) : (modArr s i f).out = s.out := rfl
@[simp] theorem modArr_free (s : State) (i : Nat) (f : Arr → Arr) : (modArr s i f).free = s.free := rfl

/-! ## setStr -/

@[simp] theorem setStr_pending (s : State) (i : Nat) (a : Str) : (setStr s i a).pending = s.pending := rfl
@[simp] theorem setStr_phase (s : State) (i : Nat) (a : Str) : (setStr s i a).phase = s.phase := rfl
@[simp] theorem setStr_began (s : State) (i : Nat) (a : Str) : (setStr s i a).began = s.began := rfl
@[simp] theorem setStr_small (s : State) (i : Nat) (a : Str) : (setStr s i a).small = s.small := rfl
@[simp] theorem setStr_part (s : State) (i : Nat) (a : Str) : (setStr s i a).part = s.part := rfl
@[simp] theorem setStr_flash (s : State) (i : Nat) (a : Str) : (setStr s i a).flash = s.flash := rfl
@[simp] theorem setStr_regs (s : State) (i : Nat) (a : Str) : (setStr s i a).regs = s.regs := rfl
@[simp] theorem setStr_fns (s : State) (i : Nat) (a : Str) : (setStr s i a).fns = s.fns := rfl
@[simp] theorem setStr_msix (s : State) (i : Nat) (a : Str) : (setStr s i a).msix = s.msix := rfl
@[simp] theorem setStr_flog (s : State) (i : Nat) (a : Str) : (setStr s i a).flog = s.flog := rfl
@[simp] theorem setStr_tun (s : State) (i : Nat) (a : Str) : (setStr s i a).tun = s.tun := rfl
@[simp] theorem setStr_arrs (s : State) (i : Nat) (a : Str) : (setStr s i a).arrs = s.arrs := rfl
@[simp] theorem setStr_cores (s : State) (i : Nat) (a : Str) : (setStr s i a).cores = s.cores := rfl
@[simp] theorem setStr_parts (s : State) (i : Nat) (a : Str) : (setStr s i a).parts = s.parts := rfl
@[simp] theorem setStr_stack (s : State) (i : Nat) (a : Str) : (setStr s i a).stack = s.stack := rfl
@[simp] theorem setStr_mesh (s : State) (i : Nat) (a : Str) : (setStr s i a).mesh = s.mesh := rfl
@[simp] theorem setStr_stm (s : State) (i : Nat) (a : Str) : (setStr s i a).stm = s.stm := rfl
@[simp] theorem setStr_fab (s : State) (i : Nat) (a : Str) : (setStr s i a).fab = s.fab := rfl
@[simp] theorem setStr_grx (s : State) (i : Nat) (a : Str) : (setStr s i a).grx = s.grx := rfl
@[simp] theorem setStr_clk (s : State) (i : Nat) (a : Str) : (setStr s i a).clk = s.clk := rfl
@[simp] theorem setStr_pwr (s : State) (i : Nat) (a : Str) : (setStr s i a).pwr = s.pwr := rfl
@[simp] theorem setStr_sec (s : State) (i : Nat) (a : Str) : (setStr s i a).sec = s.sec := rfl
@[simp] theorem setStr_dbg (s : State) (i : Nat) (a : Str) : (setStr s i a).dbg = s.dbg := rfl
@[simp] theorem setStr_host (s : State) (i : Nat) (a : Str) : (setStr s i a).host = s.host := rfl
@[simp] theorem setStr_gpx (s : State) (i : Nat) (a : Str) : (setStr s i a).gpx = s.gpx := rfl
@[simp] theorem setStr_out (s : State) (i : Nat) (a : Str) : (setStr s i a).out = s.out := rfl
@[simp] theorem setStr_free (s : State) (i : Nat) (a : Str) : (setStr s i a).free = s.free := rfl

/-! ## modStr -/

@[simp] theorem modStr_pending (s : State) (i : Nat) (f : Str → Str) : (modStr s i f).pending = s.pending := rfl
@[simp] theorem modStr_phase (s : State) (i : Nat) (f : Str → Str) : (modStr s i f).phase = s.phase := rfl
@[simp] theorem modStr_began (s : State) (i : Nat) (f : Str → Str) : (modStr s i f).began = s.began := rfl
@[simp] theorem modStr_small (s : State) (i : Nat) (f : Str → Str) : (modStr s i f).small = s.small := rfl
@[simp] theorem modStr_part (s : State) (i : Nat) (f : Str → Str) : (modStr s i f).part = s.part := rfl
@[simp] theorem modStr_flash (s : State) (i : Nat) (f : Str → Str) : (modStr s i f).flash = s.flash := rfl
@[simp] theorem modStr_regs (s : State) (i : Nat) (f : Str → Str) : (modStr s i f).regs = s.regs := rfl
@[simp] theorem modStr_fns (s : State) (i : Nat) (f : Str → Str) : (modStr s i f).fns = s.fns := rfl
@[simp] theorem modStr_msix (s : State) (i : Nat) (f : Str → Str) : (modStr s i f).msix = s.msix := rfl
@[simp] theorem modStr_flog (s : State) (i : Nat) (f : Str → Str) : (modStr s i f).flog = s.flog := rfl
@[simp] theorem modStr_tun (s : State) (i : Nat) (f : Str → Str) : (modStr s i f).tun = s.tun := rfl
@[simp] theorem modStr_arrs (s : State) (i : Nat) (f : Str → Str) : (modStr s i f).arrs = s.arrs := rfl
@[simp] theorem modStr_cores (s : State) (i : Nat) (f : Str → Str) : (modStr s i f).cores = s.cores := rfl
@[simp] theorem modStr_parts (s : State) (i : Nat) (f : Str → Str) : (modStr s i f).parts = s.parts := rfl
@[simp] theorem modStr_stack (s : State) (i : Nat) (f : Str → Str) : (modStr s i f).stack = s.stack := rfl
@[simp] theorem modStr_mesh (s : State) (i : Nat) (f : Str → Str) : (modStr s i f).mesh = s.mesh := rfl
@[simp] theorem modStr_stm (s : State) (i : Nat) (f : Str → Str) : (modStr s i f).stm = s.stm := rfl
@[simp] theorem modStr_fab (s : State) (i : Nat) (f : Str → Str) : (modStr s i f).fab = s.fab := rfl
@[simp] theorem modStr_grx (s : State) (i : Nat) (f : Str → Str) : (modStr s i f).grx = s.grx := rfl
@[simp] theorem modStr_clk (s : State) (i : Nat) (f : Str → Str) : (modStr s i f).clk = s.clk := rfl
@[simp] theorem modStr_pwr (s : State) (i : Nat) (f : Str → Str) : (modStr s i f).pwr = s.pwr := rfl
@[simp] theorem modStr_sec (s : State) (i : Nat) (f : Str → Str) : (modStr s i f).sec = s.sec := rfl
@[simp] theorem modStr_dbg (s : State) (i : Nat) (f : Str → Str) : (modStr s i f).dbg = s.dbg := rfl
@[simp] theorem modStr_host (s : State) (i : Nat) (f : Str → Str) : (modStr s i f).host = s.host := rfl
@[simp] theorem modStr_gpx (s : State) (i : Nat) (f : Str → Str) : (modStr s i f).gpx = s.gpx := rfl
@[simp] theorem modStr_out (s : State) (i : Nat) (f : Str → Str) : (modStr s i f).out = s.out := rfl
@[simp] theorem modStr_free (s : State) (i : Nat) (f : Str → Str) : (modStr s i f).free = s.free := rfl

/-! ## setCore -/

@[simp] theorem setCore_pending (s : State) (i : Nat) (c : Core) : (setCore s i c).pending = s.pending := rfl
@[simp] theorem setCore_phase (s : State) (i : Nat) (c : Core) : (setCore s i c).phase = s.phase := rfl
@[simp] theorem setCore_began (s : State) (i : Nat) (c : Core) : (setCore s i c).began = s.began := rfl
@[simp] theorem setCore_small (s : State) (i : Nat) (c : Core) : (setCore s i c).small = s.small := rfl
@[simp] theorem setCore_part (s : State) (i : Nat) (c : Core) : (setCore s i c).part = s.part := rfl
@[simp] theorem setCore_flash (s : State) (i : Nat) (c : Core) : (setCore s i c).flash = s.flash := rfl
@[simp] theorem setCore_regs (s : State) (i : Nat) (c : Core) : (setCore s i c).regs = s.regs := rfl
@[simp] theorem setCore_fns (s : State) (i : Nat) (c : Core) : (setCore s i c).fns = s.fns := rfl
@[simp] theorem setCore_msix (s : State) (i : Nat) (c : Core) : (setCore s i c).msix = s.msix := rfl
@[simp] theorem setCore_flog (s : State) (i : Nat) (c : Core) : (setCore s i c).flog = s.flog := rfl
@[simp] theorem setCore_tun (s : State) (i : Nat) (c : Core) : (setCore s i c).tun = s.tun := rfl
@[simp] theorem setCore_arrs (s : State) (i : Nat) (c : Core) : (setCore s i c).arrs = s.arrs := rfl
@[simp] theorem setCore_strs (s : State) (i : Nat) (c : Core) : (setCore s i c).strs = s.strs := rfl
@[simp] theorem setCore_parts (s : State) (i : Nat) (c : Core) : (setCore s i c).parts = s.parts := rfl
@[simp] theorem setCore_stack (s : State) (i : Nat) (c : Core) : (setCore s i c).stack = s.stack := rfl
@[simp] theorem setCore_mesh (s : State) (i : Nat) (c : Core) : (setCore s i c).mesh = s.mesh := rfl
@[simp] theorem setCore_stm (s : State) (i : Nat) (c : Core) : (setCore s i c).stm = s.stm := rfl
@[simp] theorem setCore_fab (s : State) (i : Nat) (c : Core) : (setCore s i c).fab = s.fab := rfl
@[simp] theorem setCore_grx (s : State) (i : Nat) (c : Core) : (setCore s i c).grx = s.grx := rfl
@[simp] theorem setCore_clk (s : State) (i : Nat) (c : Core) : (setCore s i c).clk = s.clk := rfl
@[simp] theorem setCore_pwr (s : State) (i : Nat) (c : Core) : (setCore s i c).pwr = s.pwr := rfl
@[simp] theorem setCore_sec (s : State) (i : Nat) (c : Core) : (setCore s i c).sec = s.sec := rfl
@[simp] theorem setCore_dbg (s : State) (i : Nat) (c : Core) : (setCore s i c).dbg = s.dbg := rfl
@[simp] theorem setCore_host (s : State) (i : Nat) (c : Core) : (setCore s i c).host = s.host := rfl
@[simp] theorem setCore_gpx (s : State) (i : Nat) (c : Core) : (setCore s i c).gpx = s.gpx := rfl
@[simp] theorem setCore_out (s : State) (i : Nat) (c : Core) : (setCore s i c).out = s.out := rfl
@[simp] theorem setCore_free (s : State) (i : Nat) (c : Core) : (setCore s i c).free = s.free := rfl

/-! ## modCore -/

@[simp] theorem modCore_pending (s : State) (i : Nat) (f : Core → Core) : (modCore s i f).pending = s.pending := rfl
@[simp] theorem modCore_phase (s : State) (i : Nat) (f : Core → Core) : (modCore s i f).phase = s.phase := rfl
@[simp] theorem modCore_began (s : State) (i : Nat) (f : Core → Core) : (modCore s i f).began = s.began := rfl
@[simp] theorem modCore_small (s : State) (i : Nat) (f : Core → Core) : (modCore s i f).small = s.small := rfl
@[simp] theorem modCore_part (s : State) (i : Nat) (f : Core → Core) : (modCore s i f).part = s.part := rfl
@[simp] theorem modCore_flash (s : State) (i : Nat) (f : Core → Core) : (modCore s i f).flash = s.flash := rfl
@[simp] theorem modCore_regs (s : State) (i : Nat) (f : Core → Core) : (modCore s i f).regs = s.regs := rfl
@[simp] theorem modCore_fns (s : State) (i : Nat) (f : Core → Core) : (modCore s i f).fns = s.fns := rfl
@[simp] theorem modCore_msix (s : State) (i : Nat) (f : Core → Core) : (modCore s i f).msix = s.msix := rfl
@[simp] theorem modCore_flog (s : State) (i : Nat) (f : Core → Core) : (modCore s i f).flog = s.flog := rfl
@[simp] theorem modCore_tun (s : State) (i : Nat) (f : Core → Core) : (modCore s i f).tun = s.tun := rfl
@[simp] theorem modCore_arrs (s : State) (i : Nat) (f : Core → Core) : (modCore s i f).arrs = s.arrs := rfl
@[simp] theorem modCore_strs (s : State) (i : Nat) (f : Core → Core) : (modCore s i f).strs = s.strs := rfl
@[simp] theorem modCore_parts (s : State) (i : Nat) (f : Core → Core) : (modCore s i f).parts = s.parts := rfl
@[simp] theorem modCore_stack (s : State) (i : Nat) (f : Core → Core) : (modCore s i f).stack = s.stack := rfl
@[simp] theorem modCore_mesh (s : State) (i : Nat) (f : Core → Core) : (modCore s i f).mesh = s.mesh := rfl
@[simp] theorem modCore_stm (s : State) (i : Nat) (f : Core → Core) : (modCore s i f).stm = s.stm := rfl
@[simp] theorem modCore_fab (s : State) (i : Nat) (f : Core → Core) : (modCore s i f).fab = s.fab := rfl
@[simp] theorem modCore_grx (s : State) (i : Nat) (f : Core → Core) : (modCore s i f).grx = s.grx := rfl
@[simp] theorem modCore_clk (s : State) (i : Nat) (f : Core → Core) : (modCore s i f).clk = s.clk := rfl
@[simp] theorem modCore_pwr (s : State) (i : Nat) (f : Core → Core) : (modCore s i f).pwr = s.pwr := rfl
@[simp] theorem modCore_sec (s : State) (i : Nat) (f : Core → Core) : (modCore s i f).sec = s.sec := rfl
@[simp] theorem modCore_dbg (s : State) (i : Nat) (f : Core → Core) : (modCore s i f).dbg = s.dbg := rfl
@[simp] theorem modCore_host (s : State) (i : Nat) (f : Core → Core) : (modCore s i f).host = s.host := rfl
@[simp] theorem modCore_gpx (s : State) (i : Nat) (f : Core → Core) : (modCore s i f).gpx = s.gpx := rfl
@[simp] theorem modCore_out (s : State) (i : Nat) (f : Core → Core) : (modCore s i f).out = s.out := rfl
@[simp] theorem modCore_free (s : State) (i : Nat) (f : Core → Core) : (modCore s i f).free = s.free := rfl

/-! ## setPart -/

@[simp] theorem setPart_pending (s : State) (i : Nat) (p : PartSt) : (setPart s i p).pending = s.pending := rfl
@[simp] theorem setPart_phase (s : State) (i : Nat) (p : PartSt) : (setPart s i p).phase = s.phase := rfl
@[simp] theorem setPart_began (s : State) (i : Nat) (p : PartSt) : (setPart s i p).began = s.began := rfl
@[simp] theorem setPart_small (s : State) (i : Nat) (p : PartSt) : (setPart s i p).small = s.small := rfl
@[simp] theorem setPart_part (s : State) (i : Nat) (p : PartSt) : (setPart s i p).part = s.part := rfl
@[simp] theorem setPart_flash (s : State) (i : Nat) (p : PartSt) : (setPart s i p).flash = s.flash := rfl
@[simp] theorem setPart_regs (s : State) (i : Nat) (p : PartSt) : (setPart s i p).regs = s.regs := rfl
@[simp] theorem setPart_fns (s : State) (i : Nat) (p : PartSt) : (setPart s i p).fns = s.fns := rfl
@[simp] theorem setPart_msix (s : State) (i : Nat) (p : PartSt) : (setPart s i p).msix = s.msix := rfl
@[simp] theorem setPart_flog (s : State) (i : Nat) (p : PartSt) : (setPart s i p).flog = s.flog := rfl
@[simp] theorem setPart_tun (s : State) (i : Nat) (p : PartSt) : (setPart s i p).tun = s.tun := rfl
@[simp] theorem setPart_arrs (s : State) (i : Nat) (p : PartSt) : (setPart s i p).arrs = s.arrs := rfl
@[simp] theorem setPart_strs (s : State) (i : Nat) (p : PartSt) : (setPart s i p).strs = s.strs := rfl
@[simp] theorem setPart_cores (s : State) (i : Nat) (p : PartSt) : (setPart s i p).cores = s.cores := rfl
@[simp] theorem setPart_stack (s : State) (i : Nat) (p : PartSt) : (setPart s i p).stack = s.stack := rfl
@[simp] theorem setPart_mesh (s : State) (i : Nat) (p : PartSt) : (setPart s i p).mesh = s.mesh := rfl
@[simp] theorem setPart_stm (s : State) (i : Nat) (p : PartSt) : (setPart s i p).stm = s.stm := rfl
@[simp] theorem setPart_fab (s : State) (i : Nat) (p : PartSt) : (setPart s i p).fab = s.fab := rfl
@[simp] theorem setPart_grx (s : State) (i : Nat) (p : PartSt) : (setPart s i p).grx = s.grx := rfl
@[simp] theorem setPart_clk (s : State) (i : Nat) (p : PartSt) : (setPart s i p).clk = s.clk := rfl
@[simp] theorem setPart_pwr (s : State) (i : Nat) (p : PartSt) : (setPart s i p).pwr = s.pwr := rfl
@[simp] theorem setPart_sec (s : State) (i : Nat) (p : PartSt) : (setPart s i p).sec = s.sec := rfl
@[simp] theorem setPart_dbg (s : State) (i : Nat) (p : PartSt) : (setPart s i p).dbg = s.dbg := rfl
@[simp] theorem setPart_host (s : State) (i : Nat) (p : PartSt) : (setPart s i p).host = s.host := rfl
@[simp] theorem setPart_gpx (s : State) (i : Nat) (p : PartSt) : (setPart s i p).gpx = s.gpx := rfl
@[simp] theorem setPart_out (s : State) (i : Nat) (p : PartSt) : (setPart s i p).out = s.out := rfl
@[simp] theorem setPart_free (s : State) (i : Nat) (p : PartSt) : (setPart s i p).free = s.free := rfl

/-! ## modPart -/

@[simp] theorem modPart_pending (s : State) (i : Nat) (f : PartSt → PartSt) : (modPart s i f).pending = s.pending := rfl
@[simp] theorem modPart_phase (s : State) (i : Nat) (f : PartSt → PartSt) : (modPart s i f).phase = s.phase := rfl
@[simp] theorem modPart_began (s : State) (i : Nat) (f : PartSt → PartSt) : (modPart s i f).began = s.began := rfl
@[simp] theorem modPart_small (s : State) (i : Nat) (f : PartSt → PartSt) : (modPart s i f).small = s.small := rfl
@[simp] theorem modPart_part (s : State) (i : Nat) (f : PartSt → PartSt) : (modPart s i f).part = s.part := rfl
@[simp] theorem modPart_flash (s : State) (i : Nat) (f : PartSt → PartSt) : (modPart s i f).flash = s.flash := rfl
@[simp] theorem modPart_regs (s : State) (i : Nat) (f : PartSt → PartSt) : (modPart s i f).regs = s.regs := rfl
@[simp] theorem modPart_fns (s : State) (i : Nat) (f : PartSt → PartSt) : (modPart s i f).fns = s.fns := rfl
@[simp] theorem modPart_msix (s : State) (i : Nat) (f : PartSt → PartSt) : (modPart s i f).msix = s.msix := rfl
@[simp] theorem modPart_flog (s : State) (i : Nat) (f : PartSt → PartSt) : (modPart s i f).flog = s.flog := rfl
@[simp] theorem modPart_tun (s : State) (i : Nat) (f : PartSt → PartSt) : (modPart s i f).tun = s.tun := rfl
@[simp] theorem modPart_arrs (s : State) (i : Nat) (f : PartSt → PartSt) : (modPart s i f).arrs = s.arrs := rfl
@[simp] theorem modPart_strs (s : State) (i : Nat) (f : PartSt → PartSt) : (modPart s i f).strs = s.strs := rfl
@[simp] theorem modPart_cores (s : State) (i : Nat) (f : PartSt → PartSt) : (modPart s i f).cores = s.cores := rfl
@[simp] theorem modPart_stack (s : State) (i : Nat) (f : PartSt → PartSt) : (modPart s i f).stack = s.stack := rfl
@[simp] theorem modPart_mesh (s : State) (i : Nat) (f : PartSt → PartSt) : (modPart s i f).mesh = s.mesh := rfl
@[simp] theorem modPart_stm (s : State) (i : Nat) (f : PartSt → PartSt) : (modPart s i f).stm = s.stm := rfl
@[simp] theorem modPart_fab (s : State) (i : Nat) (f : PartSt → PartSt) : (modPart s i f).fab = s.fab := rfl
@[simp] theorem modPart_grx (s : State) (i : Nat) (f : PartSt → PartSt) : (modPart s i f).grx = s.grx := rfl
@[simp] theorem modPart_clk (s : State) (i : Nat) (f : PartSt → PartSt) : (modPart s i f).clk = s.clk := rfl
@[simp] theorem modPart_pwr (s : State) (i : Nat) (f : PartSt → PartSt) : (modPart s i f).pwr = s.pwr := rfl
@[simp] theorem modPart_sec (s : State) (i : Nat) (f : PartSt → PartSt) : (modPart s i f).sec = s.sec := rfl
@[simp] theorem modPart_dbg (s : State) (i : Nat) (f : PartSt → PartSt) : (modPart s i f).dbg = s.dbg := rfl
@[simp] theorem modPart_host (s : State) (i : Nat) (f : PartSt → PartSt) : (modPart s i f).host = s.host := rfl
@[simp] theorem modPart_gpx (s : State) (i : Nat) (f : PartSt → PartSt) : (modPart s i f).gpx = s.gpx := rfl
@[simp] theorem modPart_out (s : State) (i : Nat) (f : PartSt → PartSt) : (modPart s i f).out = s.out := rfl
@[simp] theorem modPart_free (s : State) (i : Nat) (f : PartSt → PartSt) : (modPart s i f).free = s.free := rfl

/-! ## modStep -/

@[simp] theorem modStep_pending (s : State) (i : Nat) (f : Step → Step) : (modStep s i f).pending = s.pending := rfl
@[simp] theorem modStep_phase (s : State) (i : Nat) (f : Step → Step) : (modStep s i f).phase = s.phase := rfl
@[simp] theorem modStep_began (s : State) (i : Nat) (f : Step → Step) : (modStep s i f).began = s.began := rfl
@[simp] theorem modStep_small (s : State) (i : Nat) (f : Step → Step) : (modStep s i f).small = s.small := rfl
@[simp] theorem modStep_part (s : State) (i : Nat) (f : Step → Step) : (modStep s i f).part = s.part := rfl
@[simp] theorem modStep_flash (s : State) (i : Nat) (f : Step → Step) : (modStep s i f).flash = s.flash := rfl
@[simp] theorem modStep_regs (s : State) (i : Nat) (f : Step → Step) : (modStep s i f).regs = s.regs := rfl
@[simp] theorem modStep_fns (s : State) (i : Nat) (f : Step → Step) : (modStep s i f).fns = s.fns := rfl
@[simp] theorem modStep_msix (s : State) (i : Nat) (f : Step → Step) : (modStep s i f).msix = s.msix := rfl
@[simp] theorem modStep_flog (s : State) (i : Nat) (f : Step → Step) : (modStep s i f).flog = s.flog := rfl
@[simp] theorem modStep_tun (s : State) (i : Nat) (f : Step → Step) : (modStep s i f).tun = s.tun := rfl
@[simp] theorem modStep_arrs (s : State) (i : Nat) (f : Step → Step) : (modStep s i f).arrs = s.arrs := rfl
@[simp] theorem modStep_strs (s : State) (i : Nat) (f : Step → Step) : (modStep s i f).strs = s.strs := rfl
@[simp] theorem modStep_cores (s : State) (i : Nat) (f : Step → Step) : (modStep s i f).cores = s.cores := rfl
@[simp] theorem modStep_stack (s : State) (i : Nat) (f : Step → Step) : (modStep s i f).stack = s.stack := rfl
@[simp] theorem modStep_mesh (s : State) (i : Nat) (f : Step → Step) : (modStep s i f).mesh = s.mesh := rfl
@[simp] theorem modStep_stm (s : State) (i : Nat) (f : Step → Step) : (modStep s i f).stm = s.stm := rfl
@[simp] theorem modStep_fab (s : State) (i : Nat) (f : Step → Step) : (modStep s i f).fab = s.fab := rfl
@[simp] theorem modStep_grx (s : State) (i : Nat) (f : Step → Step) : (modStep s i f).grx = s.grx := rfl
@[simp] theorem modStep_clk (s : State) (i : Nat) (f : Step → Step) : (modStep s i f).clk = s.clk := rfl
@[simp] theorem modStep_pwr (s : State) (i : Nat) (f : Step → Step) : (modStep s i f).pwr = s.pwr := rfl
@[simp] theorem modStep_sec (s : State) (i : Nat) (f : Step → Step) : (modStep s i f).sec = s.sec := rfl
@[simp] theorem modStep_dbg (s : State) (i : Nat) (f : Step → Step) : (modStep s i f).dbg = s.dbg := rfl
@[simp] theorem modStep_host (s : State) (i : Nat) (f : Step → Step) : (modStep s i f).host = s.host := rfl
@[simp] theorem modStep_gpx (s : State) (i : Nat) (f : Step → Step) : (modStep s i f).gpx = s.gpx := rfl
@[simp] theorem modStep_out (s : State) (i : Nat) (f : Step → Step) : (modStep s i f).out = s.out := rfl
@[simp] theorem modStep_free (s : State) (i : Nat) (f : Step → Step) : (modStep s i f).free = s.free := rfl

/-! ## modCol -/

@[simp] theorem modCol_pending (s : State) (i : Nat) (f : Col → Col) : (modCol s i f).pending = s.pending := rfl
@[simp] theorem modCol_phase (s : State) (i : Nat) (f : Col → Col) : (modCol s i f).phase = s.phase := rfl
@[simp] theorem modCol_began (s : State) (i : Nat) (f : Col → Col) : (modCol s i f).began = s.began := rfl
@[simp] theorem modCol_small (s : State) (i : Nat) (f : Col → Col) : (modCol s i f).small = s.small := rfl
@[simp] theorem modCol_part (s : State) (i : Nat) (f : Col → Col) : (modCol s i f).part = s.part := rfl
@[simp] theorem modCol_flash (s : State) (i : Nat) (f : Col → Col) : (modCol s i f).flash = s.flash := rfl
@[simp] theorem modCol_regs (s : State) (i : Nat) (f : Col → Col) : (modCol s i f).regs = s.regs := rfl
@[simp] theorem modCol_fns (s : State) (i : Nat) (f : Col → Col) : (modCol s i f).fns = s.fns := rfl
@[simp] theorem modCol_msix (s : State) (i : Nat) (f : Col → Col) : (modCol s i f).msix = s.msix := rfl
@[simp] theorem modCol_flog (s : State) (i : Nat) (f : Col → Col) : (modCol s i f).flog = s.flog := rfl
@[simp] theorem modCol_tun (s : State) (i : Nat) (f : Col → Col) : (modCol s i f).tun = s.tun := rfl
@[simp] theorem modCol_arrs (s : State) (i : Nat) (f : Col → Col) : (modCol s i f).arrs = s.arrs := rfl
@[simp] theorem modCol_strs (s : State) (i : Nat) (f : Col → Col) : (modCol s i f).strs = s.strs := rfl
@[simp] theorem modCol_cores (s : State) (i : Nat) (f : Col → Col) : (modCol s i f).cores = s.cores := rfl
@[simp] theorem modCol_parts (s : State) (i : Nat) (f : Col → Col) : (modCol s i f).parts = s.parts := rfl
@[simp] theorem modCol_mesh (s : State) (i : Nat) (f : Col → Col) : (modCol s i f).mesh = s.mesh := rfl
@[simp] theorem modCol_stm (s : State) (i : Nat) (f : Col → Col) : (modCol s i f).stm = s.stm := rfl
@[simp] theorem modCol_fab (s : State) (i : Nat) (f : Col → Col) : (modCol s i f).fab = s.fab := rfl
@[simp] theorem modCol_grx (s : State) (i : Nat) (f : Col → Col) : (modCol s i f).grx = s.grx := rfl
@[simp] theorem modCol_clk (s : State) (i : Nat) (f : Col → Col) : (modCol s i f).clk = s.clk := rfl
@[simp] theorem modCol_pwr (s : State) (i : Nat) (f : Col → Col) : (modCol s i f).pwr = s.pwr := rfl
@[simp] theorem modCol_sec (s : State) (i : Nat) (f : Col → Col) : (modCol s i f).sec = s.sec := rfl
@[simp] theorem modCol_dbg (s : State) (i : Nat) (f : Col → Col) : (modCol s i f).dbg = s.dbg := rfl
@[simp] theorem modCol_host (s : State) (i : Nat) (f : Col → Col) : (modCol s i f).host = s.host := rfl
@[simp] theorem modCol_gpx (s : State) (i : Nat) (f : Col → Col) : (modCol s i f).gpx = s.gpx := rfl
@[simp] theorem modCol_out (s : State) (i : Nat) (f : Col → Col) : (modCol s i f).out = s.out := rfl
@[simp] theorem modCol_free (s : State) (i : Nat) (f : Col → Col) : (modCol s i f).free = s.free := rfl

/-! ## modRt -/

@[simp] theorem modRt_pending (s : State) (i : Nat) (f : StrRt → StrRt) : (modRt s i f).pending = s.pending := rfl
@[simp] theorem modRt_phase (s : State) (i : Nat) (f : StrRt → StrRt) : (modRt s i f).phase = s.phase := rfl
@[simp] theorem modRt_began (s : State) (i : Nat) (f : StrRt → StrRt) : (modRt s i f).began = s.began := rfl
@[simp] theorem modRt_small (s : State) (i : Nat) (f : StrRt → StrRt) : (modRt s i f).small = s.small := rfl
@[simp] theorem modRt_part (s : State) (i : Nat) (f : StrRt → StrRt) : (modRt s i f).part = s.part := rfl
@[simp] theorem modRt_flash (s : State) (i : Nat) (f : StrRt → StrRt) : (modRt s i f).flash = s.flash := rfl
@[simp] theorem modRt_regs (s : State) (i : Nat) (f : StrRt → StrRt) : (modRt s i f).regs = s.regs := rfl
@[simp] theorem modRt_fns (s : State) (i : Nat) (f : StrRt → StrRt) : (modRt s i f).fns = s.fns := rfl
@[simp] theorem modRt_msix (s : State) (i : Nat) (f : StrRt → StrRt) : (modRt s i f).msix = s.msix := rfl
@[simp] theorem modRt_flog (s : State) (i : Nat) (f : StrRt → StrRt) : (modRt s i f).flog = s.flog := rfl
@[simp] theorem modRt_tun (s : State) (i : Nat) (f : StrRt → StrRt) : (modRt s i f).tun = s.tun := rfl
@[simp] theorem modRt_arrs (s : State) (i : Nat) (f : StrRt → StrRt) : (modRt s i f).arrs = s.arrs := rfl
@[simp] theorem modRt_strs (s : State) (i : Nat) (f : StrRt → StrRt) : (modRt s i f).strs = s.strs := rfl
@[simp] theorem modRt_cores (s : State) (i : Nat) (f : StrRt → StrRt) : (modRt s i f).cores = s.cores := rfl
@[simp] theorem modRt_parts (s : State) (i : Nat) (f : StrRt → StrRt) : (modRt s i f).parts = s.parts := rfl
@[simp] theorem modRt_stack (s : State) (i : Nat) (f : StrRt → StrRt) : (modRt s i f).stack = s.stack := rfl
@[simp] theorem modRt_mesh (s : State) (i : Nat) (f : StrRt → StrRt) : (modRt s i f).mesh = s.mesh := rfl
@[simp] theorem modRt_fab (s : State) (i : Nat) (f : StrRt → StrRt) : (modRt s i f).fab = s.fab := rfl
@[simp] theorem modRt_grx (s : State) (i : Nat) (f : StrRt → StrRt) : (modRt s i f).grx = s.grx := rfl
@[simp] theorem modRt_clk (s : State) (i : Nat) (f : StrRt → StrRt) : (modRt s i f).clk = s.clk := rfl
@[simp] theorem modRt_pwr (s : State) (i : Nat) (f : StrRt → StrRt) : (modRt s i f).pwr = s.pwr := rfl
@[simp] theorem modRt_sec (s : State) (i : Nat) (f : StrRt → StrRt) : (modRt s i f).sec = s.sec := rfl
@[simp] theorem modRt_dbg (s : State) (i : Nat) (f : StrRt → StrRt) : (modRt s i f).dbg = s.dbg := rfl
@[simp] theorem modRt_host (s : State) (i : Nat) (f : StrRt → StrRt) : (modRt s i f).host = s.host := rfl
@[simp] theorem modRt_gpx (s : State) (i : Nat) (f : StrRt → StrRt) : (modRt s i f).gpx = s.gpx := rfl
@[simp] theorem modRt_out (s : State) (i : Nat) (f : StrRt → StrRt) : (modRt s i f).out = s.out := rfl
@[simp] theorem modRt_free (s : State) (i : Nat) (f : StrRt → StrRt) : (modRt s i f).free = s.free := rfl

/-! ## setPort -/

@[simp] theorem setPort_pending (s : State) (i : Nat) (p : Port) : (setPort s i p).pending = s.pending := rfl
@[simp] theorem setPort_phase (s : State) (i : Nat) (p : Port) : (setPort s i p).phase = s.phase := rfl
@[simp] theorem setPort_began (s : State) (i : Nat) (p : Port) : (setPort s i p).began = s.began := rfl
@[simp] theorem setPort_small (s : State) (i : Nat) (p : Port) : (setPort s i p).small = s.small := rfl
@[simp] theorem setPort_part (s : State) (i : Nat) (p : Port) : (setPort s i p).part = s.part := rfl
@[simp] theorem setPort_flash (s : State) (i : Nat) (p : Port) : (setPort s i p).flash = s.flash := rfl
@[simp] theorem setPort_regs (s : State) (i : Nat) (p : Port) : (setPort s i p).regs = s.regs := rfl
@[simp] theorem setPort_fns (s : State) (i : Nat) (p : Port) : (setPort s i p).fns = s.fns := rfl
@[simp] theorem setPort_msix (s : State) (i : Nat) (p : Port) : (setPort s i p).msix = s.msix := rfl
@[simp] theorem setPort_flog (s : State) (i : Nat) (p : Port) : (setPort s i p).flog = s.flog := rfl
@[simp] theorem setPort_tun (s : State) (i : Nat) (p : Port) : (setPort s i p).tun = s.tun := rfl
@[simp] theorem setPort_arrs (s : State) (i : Nat) (p : Port) : (setPort s i p).arrs = s.arrs := rfl
@[simp] theorem setPort_strs (s : State) (i : Nat) (p : Port) : (setPort s i p).strs = s.strs := rfl
@[simp] theorem setPort_cores (s : State) (i : Nat) (p : Port) : (setPort s i p).cores = s.cores := rfl
@[simp] theorem setPort_parts (s : State) (i : Nat) (p : Port) : (setPort s i p).parts = s.parts := rfl
@[simp] theorem setPort_stack (s : State) (i : Nat) (p : Port) : (setPort s i p).stack = s.stack := rfl
@[simp] theorem setPort_mesh (s : State) (i : Nat) (p : Port) : (setPort s i p).mesh = s.mesh := rfl
@[simp] theorem setPort_stm (s : State) (i : Nat) (p : Port) : (setPort s i p).stm = s.stm := rfl
@[simp] theorem setPort_grx (s : State) (i : Nat) (p : Port) : (setPort s i p).grx = s.grx := rfl
@[simp] theorem setPort_clk (s : State) (i : Nat) (p : Port) : (setPort s i p).clk = s.clk := rfl
@[simp] theorem setPort_pwr (s : State) (i : Nat) (p : Port) : (setPort s i p).pwr = s.pwr := rfl
@[simp] theorem setPort_sec (s : State) (i : Nat) (p : Port) : (setPort s i p).sec = s.sec := rfl
@[simp] theorem setPort_dbg (s : State) (i : Nat) (p : Port) : (setPort s i p).dbg = s.dbg := rfl
@[simp] theorem setPort_host (s : State) (i : Nat) (p : Port) : (setPort s i p).host = s.host := rfl
@[simp] theorem setPort_gpx (s : State) (i : Nat) (p : Port) : (setPort s i p).gpx = s.gpx := rfl
@[simp] theorem setPort_out (s : State) (i : Nat) (p : Port) : (setPort s i p).out = s.out := rfl
@[simp] theorem setPort_free (s : State) (i : Nat) (p : Port) : (setPort s i p).free = s.free := rfl

/-! ## modPort -/

@[simp] theorem modPort_pending (s : State) (i : Nat) (f : Port → Port) : (modPort s i f).pending = s.pending := rfl
@[simp] theorem modPort_phase (s : State) (i : Nat) (f : Port → Port) : (modPort s i f).phase = s.phase := rfl
@[simp] theorem modPort_began (s : State) (i : Nat) (f : Port → Port) : (modPort s i f).began = s.began := rfl
@[simp] theorem modPort_small (s : State) (i : Nat) (f : Port → Port) : (modPort s i f).small = s.small := rfl
@[simp] theorem modPort_part (s : State) (i : Nat) (f : Port → Port) : (modPort s i f).part = s.part := rfl
@[simp] theorem modPort_flash (s : State) (i : Nat) (f : Port → Port) : (modPort s i f).flash = s.flash := rfl
@[simp] theorem modPort_regs (s : State) (i : Nat) (f : Port → Port) : (modPort s i f).regs = s.regs := rfl
@[simp] theorem modPort_fns (s : State) (i : Nat) (f : Port → Port) : (modPort s i f).fns = s.fns := rfl
@[simp] theorem modPort_msix (s : State) (i : Nat) (f : Port → Port) : (modPort s i f).msix = s.msix := rfl
@[simp] theorem modPort_flog (s : State) (i : Nat) (f : Port → Port) : (modPort s i f).flog = s.flog := rfl
@[simp] theorem modPort_tun (s : State) (i : Nat) (f : Port → Port) : (modPort s i f).tun = s.tun := rfl
@[simp] theorem modPort_arrs (s : State) (i : Nat) (f : Port → Port) : (modPort s i f).arrs = s.arrs := rfl
@[simp] theorem modPort_strs (s : State) (i : Nat) (f : Port → Port) : (modPort s i f).strs = s.strs := rfl
@[simp] theorem modPort_cores (s : State) (i : Nat) (f : Port → Port) : (modPort s i f).cores = s.cores := rfl
@[simp] theorem modPort_parts (s : State) (i : Nat) (f : Port → Port) : (modPort s i f).parts = s.parts := rfl
@[simp] theorem modPort_stack (s : State) (i : Nat) (f : Port → Port) : (modPort s i f).stack = s.stack := rfl
@[simp] theorem modPort_mesh (s : State) (i : Nat) (f : Port → Port) : (modPort s i f).mesh = s.mesh := rfl
@[simp] theorem modPort_stm (s : State) (i : Nat) (f : Port → Port) : (modPort s i f).stm = s.stm := rfl
@[simp] theorem modPort_grx (s : State) (i : Nat) (f : Port → Port) : (modPort s i f).grx = s.grx := rfl
@[simp] theorem modPort_clk (s : State) (i : Nat) (f : Port → Port) : (modPort s i f).clk = s.clk := rfl
@[simp] theorem modPort_pwr (s : State) (i : Nat) (f : Port → Port) : (modPort s i f).pwr = s.pwr := rfl
@[simp] theorem modPort_sec (s : State) (i : Nat) (f : Port → Port) : (modPort s i f).sec = s.sec := rfl
@[simp] theorem modPort_dbg (s : State) (i : Nat) (f : Port → Port) : (modPort s i f).dbg = s.dbg := rfl
@[simp] theorem modPort_host (s : State) (i : Nat) (f : Port → Port) : (modPort s i f).host = s.host := rfl
@[simp] theorem modPort_gpx (s : State) (i : Nat) (f : Port → Port) : (modPort s i f).gpx = s.gpx := rfl
@[simp] theorem modPort_out (s : State) (i : Nat) (f : Port → Port) : (modPort s i f).out = s.out := rfl
@[simp] theorem modPort_free (s : State) (i : Nat) (f : Port → Port) : (modPort s i f).free = s.free := rfl

/-! ## modSeal -/

@[simp] theorem modSeal_pending (s : State) (i : Nat) (f : SealSt → SealSt) : (modSeal s i f).pending = s.pending := rfl
@[simp] theorem modSeal_phase (s : State) (i : Nat) (f : SealSt → SealSt) : (modSeal s i f).phase = s.phase := rfl
@[simp] theorem modSeal_began (s : State) (i : Nat) (f : SealSt → SealSt) : (modSeal s i f).began = s.began := rfl
@[simp] theorem modSeal_small (s : State) (i : Nat) (f : SealSt → SealSt) : (modSeal s i f).small = s.small := rfl
@[simp] theorem modSeal_part (s : State) (i : Nat) (f : SealSt → SealSt) : (modSeal s i f).part = s.part := rfl
@[simp] theorem modSeal_flash (s : State) (i : Nat) (f : SealSt → SealSt) : (modSeal s i f).flash = s.flash := rfl
@[simp] theorem modSeal_regs (s : State) (i : Nat) (f : SealSt → SealSt) : (modSeal s i f).regs = s.regs := rfl
@[simp] theorem modSeal_fns (s : State) (i : Nat) (f : SealSt → SealSt) : (modSeal s i f).fns = s.fns := rfl
@[simp] theorem modSeal_msix (s : State) (i : Nat) (f : SealSt → SealSt) : (modSeal s i f).msix = s.msix := rfl
@[simp] theorem modSeal_flog (s : State) (i : Nat) (f : SealSt → SealSt) : (modSeal s i f).flog = s.flog := rfl
@[simp] theorem modSeal_tun (s : State) (i : Nat) (f : SealSt → SealSt) : (modSeal s i f).tun = s.tun := rfl
@[simp] theorem modSeal_arrs (s : State) (i : Nat) (f : SealSt → SealSt) : (modSeal s i f).arrs = s.arrs := rfl
@[simp] theorem modSeal_strs (s : State) (i : Nat) (f : SealSt → SealSt) : (modSeal s i f).strs = s.strs := rfl
@[simp] theorem modSeal_cores (s : State) (i : Nat) (f : SealSt → SealSt) : (modSeal s i f).cores = s.cores := rfl
@[simp] theorem modSeal_parts (s : State) (i : Nat) (f : SealSt → SealSt) : (modSeal s i f).parts = s.parts := rfl
@[simp] theorem modSeal_stack (s : State) (i : Nat) (f : SealSt → SealSt) : (modSeal s i f).stack = s.stack := rfl
@[simp] theorem modSeal_mesh (s : State) (i : Nat) (f : SealSt → SealSt) : (modSeal s i f).mesh = s.mesh := rfl
@[simp] theorem modSeal_stm (s : State) (i : Nat) (f : SealSt → SealSt) : (modSeal s i f).stm = s.stm := rfl
@[simp] theorem modSeal_fab (s : State) (i : Nat) (f : SealSt → SealSt) : (modSeal s i f).fab = s.fab := rfl
@[simp] theorem modSeal_clk (s : State) (i : Nat) (f : SealSt → SealSt) : (modSeal s i f).clk = s.clk := rfl
@[simp] theorem modSeal_pwr (s : State) (i : Nat) (f : SealSt → SealSt) : (modSeal s i f).pwr = s.pwr := rfl
@[simp] theorem modSeal_sec (s : State) (i : Nat) (f : SealSt → SealSt) : (modSeal s i f).sec = s.sec := rfl
@[simp] theorem modSeal_dbg (s : State) (i : Nat) (f : SealSt → SealSt) : (modSeal s i f).dbg = s.dbg := rfl
@[simp] theorem modSeal_host (s : State) (i : Nat) (f : SealSt → SealSt) : (modSeal s i f).host = s.host := rfl
@[simp] theorem modSeal_gpx (s : State) (i : Nat) (f : SealSt → SealSt) : (modSeal s i f).gpx = s.gpx := rfl
@[simp] theorem modSeal_out (s : State) (i : Nat) (f : SealSt → SealSt) : (modSeal s i f).out = s.out := rfl
@[simp] theorem modSeal_free (s : State) (i : Nat) (f : SealSt → SealSt) : (modSeal s i f).free = s.free := rfl

/-! ## setGrp -/

@[simp] theorem setGrp_pending (s : State) (g : Nat) (v : Option Grp) : (setGrp s g v).pending = s.pending := rfl
@[simp] theorem setGrp_phase (s : State) (g : Nat) (v : Option Grp) : (setGrp s g v).phase = s.phase := rfl
@[simp] theorem setGrp_began (s : State) (g : Nat) (v : Option Grp) : (setGrp s g v).began = s.began := rfl
@[simp] theorem setGrp_small (s : State) (g : Nat) (v : Option Grp) : (setGrp s g v).small = s.small := rfl
@[simp] theorem setGrp_part (s : State) (g : Nat) (v : Option Grp) : (setGrp s g v).part = s.part := rfl
@[simp] theorem setGrp_flash (s : State) (g : Nat) (v : Option Grp) : (setGrp s g v).flash = s.flash := rfl
@[simp] theorem setGrp_regs (s : State) (g : Nat) (v : Option Grp) : (setGrp s g v).regs = s.regs := rfl
@[simp] theorem setGrp_fns (s : State) (g : Nat) (v : Option Grp) : (setGrp s g v).fns = s.fns := rfl
@[simp] theorem setGrp_msix (s : State) (g : Nat) (v : Option Grp) : (setGrp s g v).msix = s.msix := rfl
@[simp] theorem setGrp_flog (s : State) (g : Nat) (v : Option Grp) : (setGrp s g v).flog = s.flog := rfl
@[simp] theorem setGrp_tun (s : State) (g : Nat) (v : Option Grp) : (setGrp s g v).tun = s.tun := rfl
@[simp] theorem setGrp_arrs (s : State) (g : Nat) (v : Option Grp) : (setGrp s g v).arrs = s.arrs := rfl
@[simp] theorem setGrp_strs (s : State) (g : Nat) (v : Option Grp) : (setGrp s g v).strs = s.strs := rfl
@[simp] theorem setGrp_cores (s : State) (g : Nat) (v : Option Grp) : (setGrp s g v).cores = s.cores := rfl
@[simp] theorem setGrp_parts (s : State) (g : Nat) (v : Option Grp) : (setGrp s g v).parts = s.parts := rfl
@[simp] theorem setGrp_stack (s : State) (g : Nat) (v : Option Grp) : (setGrp s g v).stack = s.stack := rfl
@[simp] theorem setGrp_mesh (s : State) (g : Nat) (v : Option Grp) : (setGrp s g v).mesh = s.mesh := rfl
@[simp] theorem setGrp_stm (s : State) (g : Nat) (v : Option Grp) : (setGrp s g v).stm = s.stm := rfl
@[simp] theorem setGrp_fab (s : State) (g : Nat) (v : Option Grp) : (setGrp s g v).fab = s.fab := rfl
@[simp] theorem setGrp_clk (s : State) (g : Nat) (v : Option Grp) : (setGrp s g v).clk = s.clk := rfl
@[simp] theorem setGrp_pwr (s : State) (g : Nat) (v : Option Grp) : (setGrp s g v).pwr = s.pwr := rfl
@[simp] theorem setGrp_sec (s : State) (g : Nat) (v : Option Grp) : (setGrp s g v).sec = s.sec := rfl
@[simp] theorem setGrp_dbg (s : State) (g : Nat) (v : Option Grp) : (setGrp s g v).dbg = s.dbg := rfl
@[simp] theorem setGrp_host (s : State) (g : Nat) (v : Option Grp) : (setGrp s g v).host = s.host := rfl
@[simp] theorem setGrp_gpx (s : State) (g : Nat) (v : Option Grp) : (setGrp s g v).gpx = s.gpx := rfl
@[simp] theorem setGrp_out (s : State) (g : Nat) (v : Option Grp) : (setGrp s g v).out = s.out := rfl
@[simp] theorem setGrp_free (s : State) (g : Nat) (v : Option Grp) : (setGrp s g v).free = s.free := rfl

/-! ## modZone -/

@[simp] theorem modZone_pending (s : State) (z : Nat) (f : ZoneSt → ZoneSt) : (modZone s z f).pending = s.pending := rfl
@[simp] theorem modZone_phase (s : State) (z : Nat) (f : ZoneSt → ZoneSt) : (modZone s z f).phase = s.phase := rfl
@[simp] theorem modZone_began (s : State) (z : Nat) (f : ZoneSt → ZoneSt) : (modZone s z f).began = s.began := rfl
@[simp] theorem modZone_small (s : State) (z : Nat) (f : ZoneSt → ZoneSt) : (modZone s z f).small = s.small := rfl
@[simp] theorem modZone_part (s : State) (z : Nat) (f : ZoneSt → ZoneSt) : (modZone s z f).part = s.part := rfl
@[simp] theorem modZone_flash (s : State) (z : Nat) (f : ZoneSt → ZoneSt) : (modZone s z f).flash = s.flash := rfl
@[simp] theorem modZone_regs (s : State) (z : Nat) (f : ZoneSt → ZoneSt) : (modZone s z f).regs = s.regs := rfl
@[simp] theorem modZone_fns (s : State) (z : Nat) (f : ZoneSt → ZoneSt) : (modZone s z f).fns = s.fns := rfl
@[simp] theorem modZone_msix (s : State) (z : Nat) (f : ZoneSt → ZoneSt) : (modZone s z f).msix = s.msix := rfl
@[simp] theorem modZone_flog (s : State) (z : Nat) (f : ZoneSt → ZoneSt) : (modZone s z f).flog = s.flog := rfl
@[simp] theorem modZone_tun (s : State) (z : Nat) (f : ZoneSt → ZoneSt) : (modZone s z f).tun = s.tun := rfl
@[simp] theorem modZone_arrs (s : State) (z : Nat) (f : ZoneSt → ZoneSt) : (modZone s z f).arrs = s.arrs := rfl
@[simp] theorem modZone_strs (s : State) (z : Nat) (f : ZoneSt → ZoneSt) : (modZone s z f).strs = s.strs := rfl
@[simp] theorem modZone_cores (s : State) (z : Nat) (f : ZoneSt → ZoneSt) : (modZone s z f).cores = s.cores := rfl
@[simp] theorem modZone_parts (s : State) (z : Nat) (f : ZoneSt → ZoneSt) : (modZone s z f).parts = s.parts := rfl
@[simp] theorem modZone_stack (s : State) (z : Nat) (f : ZoneSt → ZoneSt) : (modZone s z f).stack = s.stack := rfl
@[simp] theorem modZone_mesh (s : State) (z : Nat) (f : ZoneSt → ZoneSt) : (modZone s z f).mesh = s.mesh := rfl
@[simp] theorem modZone_stm (s : State) (z : Nat) (f : ZoneSt → ZoneSt) : (modZone s z f).stm = s.stm := rfl
@[simp] theorem modZone_fab (s : State) (z : Nat) (f : ZoneSt → ZoneSt) : (modZone s z f).fab = s.fab := rfl
@[simp] theorem modZone_grx (s : State) (z : Nat) (f : ZoneSt → ZoneSt) : (modZone s z f).grx = s.grx := rfl
@[simp] theorem modZone_pwr (s : State) (z : Nat) (f : ZoneSt → ZoneSt) : (modZone s z f).pwr = s.pwr := rfl
@[simp] theorem modZone_sec (s : State) (z : Nat) (f : ZoneSt → ZoneSt) : (modZone s z f).sec = s.sec := rfl
@[simp] theorem modZone_dbg (s : State) (z : Nat) (f : ZoneSt → ZoneSt) : (modZone s z f).dbg = s.dbg := rfl
@[simp] theorem modZone_host (s : State) (z : Nat) (f : ZoneSt → ZoneSt) : (modZone s z f).host = s.host := rfl
@[simp] theorem modZone_gpx (s : State) (z : Nat) (f : ZoneSt → ZoneSt) : (modZone s z f).gpx = s.gpx := rfl
@[simp] theorem modZone_out (s : State) (z : Nat) (f : ZoneSt → ZoneSt) : (modZone s z f).out = s.out := rfl
@[simp] theorem modZone_free (s : State) (z : Nat) (f : ZoneSt → ZoneSt) : (modZone s z f).free = s.free := rfl

/-! ## emit -/

@[simp] theorem emit_pending (s : State) (o : Out) : (emit s o).pending = s.pending := rfl
@[simp] theorem emit_phase (s : State) (o : Out) : (emit s o).phase = s.phase := rfl
@[simp] theorem emit_began (s : State) (o : Out) : (emit s o).began = s.began := rfl
@[simp] theorem emit_small (s : State) (o : Out) : (emit s o).small = s.small := rfl
@[simp] theorem emit_part (s : State) (o : Out) : (emit s o).part = s.part := rfl
@[simp] theorem emit_flash (s : State) (o : Out) : (emit s o).flash = s.flash := rfl
@[simp] theorem emit_regs (s : State) (o : Out) : (emit s o).regs = s.regs := rfl
@[simp] theorem emit_fns (s : State) (o : Out) : (emit s o).fns = s.fns := rfl
@[simp] theorem emit_msix (s : State) (o : Out) : (emit s o).msix = s.msix := rfl
@[simp] theorem emit_flog (s : State) (o : Out) : (emit s o).flog = s.flog := rfl
@[simp] theorem emit_tun (s : State) (o : Out) : (emit s o).tun = s.tun := rfl
@[simp] theorem emit_arrs (s : State) (o : Out) : (emit s o).arrs = s.arrs := rfl
@[simp] theorem emit_strs (s : State) (o : Out) : (emit s o).strs = s.strs := rfl
@[simp] theorem emit_cores (s : State) (o : Out) : (emit s o).cores = s.cores := rfl
@[simp] theorem emit_parts (s : State) (o : Out) : (emit s o).parts = s.parts := rfl
@[simp] theorem emit_stack (s : State) (o : Out) : (emit s o).stack = s.stack := rfl
@[simp] theorem emit_mesh (s : State) (o : Out) : (emit s o).mesh = s.mesh := rfl
@[simp] theorem emit_stm (s : State) (o : Out) : (emit s o).stm = s.stm := rfl
@[simp] theorem emit_fab (s : State) (o : Out) : (emit s o).fab = s.fab := rfl
@[simp] theorem emit_grx (s : State) (o : Out) : (emit s o).grx = s.grx := rfl
@[simp] theorem emit_clk (s : State) (o : Out) : (emit s o).clk = s.clk := rfl
@[simp] theorem emit_pwr (s : State) (o : Out) : (emit s o).pwr = s.pwr := rfl
@[simp] theorem emit_sec (s : State) (o : Out) : (emit s o).sec = s.sec := rfl
@[simp] theorem emit_dbg (s : State) (o : Out) : (emit s o).dbg = s.dbg := rfl
@[simp] theorem emit_host (s : State) (o : Out) : (emit s o).host = s.host := rfl
@[simp] theorem emit_gpx (s : State) (o : Out) : (emit s o).gpx = s.gpx := rfl
@[simp] theorem emit_free (s : State) (o : Out) : (emit s o).free = s.free := rfl

/-! ## modMsix -/

@[simp] theorem modMsix_pending (s : State) (v : Nat) (f : MsixEnt → MsixEnt) : (modMsix s v f).pending = s.pending := rfl
@[simp] theorem modMsix_phase (s : State) (v : Nat) (f : MsixEnt → MsixEnt) : (modMsix s v f).phase = s.phase := rfl
@[simp] theorem modMsix_began (s : State) (v : Nat) (f : MsixEnt → MsixEnt) : (modMsix s v f).began = s.began := rfl
@[simp] theorem modMsix_small (s : State) (v : Nat) (f : MsixEnt → MsixEnt) : (modMsix s v f).small = s.small := rfl
@[simp] theorem modMsix_part (s : State) (v : Nat) (f : MsixEnt → MsixEnt) : (modMsix s v f).part = s.part := rfl
@[simp] theorem modMsix_flash (s : State) (v : Nat) (f : MsixEnt → MsixEnt) : (modMsix s v f).flash = s.flash := rfl
@[simp] theorem modMsix_regs (s : State) (v : Nat) (f : MsixEnt → MsixEnt) : (modMsix s v f).regs = s.regs := rfl
@[simp] theorem modMsix_fns (s : State) (v : Nat) (f : MsixEnt → MsixEnt) : (modMsix s v f).fns = s.fns := rfl
@[simp] theorem modMsix_flog (s : State) (v : Nat) (f : MsixEnt → MsixEnt) : (modMsix s v f).flog = s.flog := rfl
@[simp] theorem modMsix_tun (s : State) (v : Nat) (f : MsixEnt → MsixEnt) : (modMsix s v f).tun = s.tun := rfl
@[simp] theorem modMsix_arrs (s : State) (v : Nat) (f : MsixEnt → MsixEnt) : (modMsix s v f).arrs = s.arrs := rfl
@[simp] theorem modMsix_strs (s : State) (v : Nat) (f : MsixEnt → MsixEnt) : (modMsix s v f).strs = s.strs := rfl
@[simp] theorem modMsix_cores (s : State) (v : Nat) (f : MsixEnt → MsixEnt) : (modMsix s v f).cores = s.cores := rfl
@[simp] theorem modMsix_parts (s : State) (v : Nat) (f : MsixEnt → MsixEnt) : (modMsix s v f).parts = s.parts := rfl
@[simp] theorem modMsix_stack (s : State) (v : Nat) (f : MsixEnt → MsixEnt) : (modMsix s v f).stack = s.stack := rfl
@[simp] theorem modMsix_mesh (s : State) (v : Nat) (f : MsixEnt → MsixEnt) : (modMsix s v f).mesh = s.mesh := rfl
@[simp] theorem modMsix_stm (s : State) (v : Nat) (f : MsixEnt → MsixEnt) : (modMsix s v f).stm = s.stm := rfl
@[simp] theorem modMsix_fab (s : State) (v : Nat) (f : MsixEnt → MsixEnt) : (modMsix s v f).fab = s.fab := rfl
@[simp] theorem modMsix_grx (s : State) (v : Nat) (f : MsixEnt → MsixEnt) : (modMsix s v f).grx = s.grx := rfl
@[simp] theorem modMsix_clk (s : State) (v : Nat) (f : MsixEnt → MsixEnt) : (modMsix s v f).clk = s.clk := rfl
@[simp] theorem modMsix_pwr (s : State) (v : Nat) (f : MsixEnt → MsixEnt) : (modMsix s v f).pwr = s.pwr := rfl
@[simp] theorem modMsix_sec (s : State) (v : Nat) (f : MsixEnt → MsixEnt) : (modMsix s v f).sec = s.sec := rfl
@[simp] theorem modMsix_dbg (s : State) (v : Nat) (f : MsixEnt → MsixEnt) : (modMsix s v f).dbg = s.dbg := rfl
@[simp] theorem modMsix_host (s : State) (v : Nat) (f : MsixEnt → MsixEnt) : (modMsix s v f).host = s.host := rfl
@[simp] theorem modMsix_gpx (s : State) (v : Nat) (f : MsixEnt → MsixEnt) : (modMsix s v f).gpx = s.gpx := rfl
@[simp] theorem modMsix_out (s : State) (v : Nat) (f : MsixEnt → MsixEnt) : (modMsix s v f).out = s.out := rfl
@[simp] theorem modMsix_free (s : State) (v : Nat) (f : MsixEnt → MsixEnt) : (modMsix s v f).free = s.free := rfl

/-! ## modGpx -/

@[simp] theorem modGpx_pending (s : State) (i : Nat) (f : Gpx → Gpx) : (modGpx s i f).pending = s.pending := rfl
@[simp] theorem modGpx_phase (s : State) (i : Nat) (f : Gpx → Gpx) : (modGpx s i f).phase = s.phase := rfl
@[simp] theorem modGpx_began (s : State) (i : Nat) (f : Gpx → Gpx) : (modGpx s i f).began = s.began := rfl
@[simp] theorem modGpx_small (s : State) (i : Nat) (f : Gpx → Gpx) : (modGpx s i f).small = s.small := rfl
@[simp] theorem modGpx_part (s : State) (i : Nat) (f : Gpx → Gpx) : (modGpx s i f).part = s.part := rfl
@[simp] theorem modGpx_flash (s : State) (i : Nat) (f : Gpx → Gpx) : (modGpx s i f).flash = s.flash := rfl
@[simp] theorem modGpx_regs (s : State) (i : Nat) (f : Gpx → Gpx) : (modGpx s i f).regs = s.regs := rfl
@[simp] theorem modGpx_fns (s : State) (i : Nat) (f : Gpx → Gpx) : (modGpx s i f).fns = s.fns := rfl
@[simp] theorem modGpx_msix (s : State) (i : Nat) (f : Gpx → Gpx) : (modGpx s i f).msix = s.msix := rfl
@[simp] theorem modGpx_flog (s : State) (i : Nat) (f : Gpx → Gpx) : (modGpx s i f).flog = s.flog := rfl
@[simp] theorem modGpx_tun (s : State) (i : Nat) (f : Gpx → Gpx) : (modGpx s i f).tun = s.tun := rfl
@[simp] theorem modGpx_arrs (s : State) (i : Nat) (f : Gpx → Gpx) : (modGpx s i f).arrs = s.arrs := rfl
@[simp] theorem modGpx_strs (s : State) (i : Nat) (f : Gpx → Gpx) : (modGpx s i f).strs = s.strs := rfl
@[simp] theorem modGpx_cores (s : State) (i : Nat) (f : Gpx → Gpx) : (modGpx s i f).cores = s.cores := rfl
@[simp] theorem modGpx_parts (s : State) (i : Nat) (f : Gpx → Gpx) : (modGpx s i f).parts = s.parts := rfl
@[simp] theorem modGpx_stack (s : State) (i : Nat) (f : Gpx → Gpx) : (modGpx s i f).stack = s.stack := rfl
@[simp] theorem modGpx_mesh (s : State) (i : Nat) (f : Gpx → Gpx) : (modGpx s i f).mesh = s.mesh := rfl
@[simp] theorem modGpx_stm (s : State) (i : Nat) (f : Gpx → Gpx) : (modGpx s i f).stm = s.stm := rfl
@[simp] theorem modGpx_fab (s : State) (i : Nat) (f : Gpx → Gpx) : (modGpx s i f).fab = s.fab := rfl
@[simp] theorem modGpx_grx (s : State) (i : Nat) (f : Gpx → Gpx) : (modGpx s i f).grx = s.grx := rfl
@[simp] theorem modGpx_clk (s : State) (i : Nat) (f : Gpx → Gpx) : (modGpx s i f).clk = s.clk := rfl
@[simp] theorem modGpx_pwr (s : State) (i : Nat) (f : Gpx → Gpx) : (modGpx s i f).pwr = s.pwr := rfl
@[simp] theorem modGpx_sec (s : State) (i : Nat) (f : Gpx → Gpx) : (modGpx s i f).sec = s.sec := rfl
@[simp] theorem modGpx_dbg (s : State) (i : Nat) (f : Gpx → Gpx) : (modGpx s i f).dbg = s.dbg := rfl
@[simp] theorem modGpx_host (s : State) (i : Nat) (f : Gpx → Gpx) : (modGpx s i f).host = s.host := rfl
@[simp] theorem modGpx_out (s : State) (i : Nat) (f : Gpx → Gpx) : (modGpx s i f).out = s.out := rfl
@[simp] theorem modGpx_free (s : State) (i : Nat) (f : Gpx → Gpx) : (modGpx s i f).free = s.free := rfl

/-! ## Reading after an update -/

@[simp] theorem getReg_setReg_same (s : State) (i : Nat) (v : W64) : getReg (setReg s i v) i = v := by simp [getReg, setReg]
theorem getReg_setReg_ne (s : State) {i j : Nat} (v : W64) (h : j ≠ i) : getReg (setReg s i v) j = getReg s j := by simp [getReg, setReg, tget_tset_ne _ _ _ h]
@[simp] theorem getArr_setArr_same (s : State) (i : Nat) (a : Arr) : getArr (setArr s i a) i = a := by simp [getArr, setArr]
theorem getArr_setArr_ne (s : State) {i j : Nat} (a : Arr) (h : j ≠ i) : getArr (setArr s i a) j = getArr s j := by simp [getArr, setArr, tget_tset_ne _ _ _ h]
@[simp] theorem getStr_setStr_same (s : State) (i : Nat) (a : Str) : getStr (setStr s i a) i = a := by simp [getStr, setStr]
theorem getStr_setStr_ne (s : State) {i j : Nat} (a : Str) (h : j ≠ i) : getStr (setStr s i a) j = getStr s j := by simp [getStr, setStr, tget_tset_ne _ _ _ h]
@[simp] theorem getCore_setCore_same (s : State) (i : Nat) (a : Core) : getCore (setCore s i a) i = a := by simp [getCore, setCore]
theorem getCore_setCore_ne (s : State) {i j : Nat} (a : Core) (h : j ≠ i) : getCore (setCore s i a) j = getCore s j := by simp [getCore, setCore, tget_tset_ne _ _ _ h]
@[simp] theorem getPart_setPart_same (s : State) (i : Nat) (a : PartSt) : getPart (setPart s i a) i = a := by simp [getPart, setPart]
theorem getPart_setPart_ne (s : State) {i j : Nat} (a : PartSt) (h : j ≠ i) : getPart (setPart s i a) j = getPart s j := by simp [getPart, setPart, tget_tset_ne _ _ _ h]
@[simp] theorem getPort_setPort_same (s : State) (i : Nat) (a : Port) : getPort (setPort s i a) i = a := by simp [getPort, setPort]
theorem getPort_setPort_ne (s : State) {i j : Nat} (a : Port) (h : j ≠ i) : getPort (setPort s i a) j = getPort s j := by simp [getPort, setPort, tget_tset_ne _ _ _ h]
@[simp] theorem getGrp_setGrp_same (s : State) (i : Nat) (a : Option Grp) : getGrp (setGrp s i a) i = a := by simp [getGrp, setGrp]
theorem getGrp_setGrp_ne (s : State) {i j : Nat} (a : Option Grp) (h : j ≠ i) : getGrp (setGrp s i a) j = getGrp s j := by simp [getGrp, setGrp, tget_tset_ne _ _ _ h]
@[simp] theorem getReg_modReg_same (s : State) (i : Nat) (f : W64 → W64) : getReg (modReg s i f) i = f (getReg s i) := by simp [modReg]
theorem getReg_modReg_ne (s : State) {i j : Nat} (f : W64 → W64) (h : j ≠ i) : getReg (modReg s i f) j = getReg s j := by simp [modReg, getReg_setReg_ne s _ h]
@[simp] theorem getArr_modArr_same (s : State) (i : Nat) (f : Arr → Arr) : getArr (modArr s i f) i = f (getArr s i) := by simp [modArr]
theorem getArr_modArr_ne (s : State) {i j : Nat} (f : Arr → Arr) (h : j ≠ i) : getArr (modArr s i f) j = getArr s j := by simp [modArr, getArr_setArr_ne s _ h]
@[simp] theorem getStr_modStr_same (s : State) (i : Nat) (f : Str → Str) : getStr (modStr s i f) i = f (getStr s i) := by simp [modStr]
theorem getStr_modStr_ne (s : State) {i j : Nat} (f : Str → Str) (h : j ≠ i) : getStr (modStr s i f) j = getStr s j := by simp [modStr, getStr_setStr_ne s _ h]
@[simp] theorem getCore_modCore_same (s : State) (i : Nat) (f : Core → Core) : getCore (modCore s i f) i = f (getCore s i) := by simp [modCore]
theorem getCore_modCore_ne (s : State) {i j : Nat} (f : Core → Core) (h : j ≠ i) : getCore (modCore s i f) j = getCore s j := by simp [modCore, getCore_setCore_ne s _ h]
@[simp] theorem getPart_modPart_same (s : State) (i : Nat) (f : PartSt → PartSt) : getPart (modPart s i f) i = f (getPart s i) := by simp [modPart]
theorem getPart_modPart_ne (s : State) {i j : Nat} (f : PartSt → PartSt) (h : j ≠ i) : getPart (modPart s i f) j = getPart s j := by simp [modPart, getPart_setPart_ne s _ h]
@[simp] theorem getPort_modPort_same (s : State) (i : Nat) (f : Port → Port) : getPort (modPort s i f) i = f (getPort s i) := by simp [modPort]
theorem getPort_modPort_ne (s : State) {i j : Nat} (f : Port → Port) (h : j ≠ i) : getPort (modPort s i f) j = getPort s j := by simp [modPort, getPort_setPort_ne s _ h]
@[simp] theorem getFn_modFn_same (s : State) (i : Nat) (f : FnSt → FnSt) : getFn (modFn s i f) i = f (getFn s i) := by simp [getFn, modFn]
theorem getFn_modFn_ne (s : State) {i j : Nat} (f : FnSt → FnSt) (h : j ≠ i) : getFn (modFn s i f) j = getFn s j := by simp [getFn, modFn, tget_tmod_ne _ _ _ h]
@[simp] theorem getCol_modCol_same (s : State) (i : Nat) (f : Col → Col) : getCol (modCol s i f) i = f (getCol s i) := by simp [getCol, modCol]
theorem getCol_modCol_ne (s : State) {i j : Nat} (f : Col → Col) (h : j ≠ i) : getCol (modCol s i f) j = getCol s j := by simp [getCol, modCol, tget_tmod_ne _ _ _ h]
@[simp] theorem getRt_modRt_same (s : State) (i : Nat) (f : StrRt → StrRt) : getRt (modRt s i f) i = f (getRt s i) := by simp [getRt, modRt]
theorem getRt_modRt_ne (s : State) {i j : Nat} (f : StrRt → StrRt) (h : j ≠ i) : getRt (modRt s i f) j = getRt s j := by simp [getRt, modRt, tget_tmod_ne _ _ _ h]
@[simp] theorem getSeal_modSeal_same (s : State) (i : Nat) (f : SealSt → SealSt) : getSeal (modSeal s i f) i = f (getSeal s i) := by simp [getSeal, modSeal]
theorem getSeal_modSeal_ne (s : State) {i j : Nat} (f : SealSt → SealSt) (h : j ≠ i) : getSeal (modSeal s i f) j = getSeal s j := by simp [getSeal, modSeal, tget_tmod_ne _ _ _ h]
@[simp] theorem getZone_modZone_same (s : State) (i : Nat) (f : ZoneSt → ZoneSt) : getZone (modZone s i f) i = f (getZone s i) := by simp [getZone, modZone]
theorem getZone_modZone_ne (s : State) {i j : Nat} (f : ZoneSt → ZoneSt) (h : j ≠ i) : getZone (modZone s i f) j = getZone s j := by simp [getZone, modZone, tget_tmod_ne _ _ _ h]
@[simp] theorem getMsix_modMsix_same (s : State) (i : Nat) (f : MsixEnt → MsixEnt) : getMsix (modMsix s i f) i = f (getMsix s i) := by simp [getMsix, modMsix]
theorem getMsix_modMsix_ne (s : State) {i j : Nat} (f : MsixEnt → MsixEnt) (h : j ≠ i) : getMsix (modMsix s i f) j = getMsix s j := by simp [getMsix, modMsix, tget_tmod_ne _ _ _ h]
@[simp] theorem getGpx_modGpx_same (s : State) (i : Nat) (f : Gpx → Gpx) : getGpx (modGpx s i f) i = f (getGpx s i) := by simp [getGpx, modGpx]
theorem getGpx_modGpx_ne (s : State) {i j : Nat} (f : Gpx → Gpx) (h : j ≠ i) : getGpx (modGpx s i f) j = getGpx s j := by simp [getGpx, modGpx, tget_tmod_ne _ _ _ h]

/-! ## The register file keeps its canonical form -/

theorem setReg_wf {s : State} (k : Nat) (v : W64) (h : Tbl.wf regReset s.regs = true) : Tbl.wf regReset (setReg s k v).regs = true := wf_tset k v h

end Sys2Proof.Machine
end

