-- ==== Sys2Proof/Laws/Core.lean ====
section
/-! SUPPORT. What the shared operations of a core can do, said once: a slot's command, its retirement, frames. -/

namespace Sys2Proof.Machine

/-- A command that can be carried out is. -/
theorem onUnit_ready {s : State} {c : Nat} {u : UnitId} {op : SlotOp} (f : State → State) (h : Ready s c u op) :
    onUnit s c u op f = .next (f s) := by simp [onUnit, h.1, h.2.1, h.2.2]

/-- A core that does not run ignores its slots. -/
theorem onUnit_stopped {s : State} {c : Nat} {u : UnitId} {op : SlotOp} (f : State → State) (h : coreRuns s c = false) :
    onUnit s c u op f = .next s := by simp [onUnit, h]

/-- A unit carries out only the head of its queue (R166). -/
theorem onUnit_other {s : State} {c : Nat} {u : UnitId} {op : SlotOp} (f : State → State) (h : atHead (getCore s c) u op = false) :
    onUnit s c u op f = .next s := by simp [onUnit, h]

/-- A pending register holds the unit. -/
theorem onUnit_hazard {s : State} {c : Nat} {u : UnitId} {op : SlotOp} (f : State → State) (h : coreRuns s c = true)
    (ha : atHead (getCore s c) u op = true) (hz : regHaz (getCore s c) u op = true) : onUnit s c u op f = .next (hold s c 1) := by
  simp [onUnit, h, ha, hz]

theorem OnlyCore.refl (s : State) (c : Nat) : OnlyCore s s c := ⟨fun _ _ => rfl, rfl⟩

theorem OnlyCore.trans {s t r : State} {c : Nat} (h : OnlyCore s t c) (h' : OnlyCore t r c) : OnlyCore s r c :=
  ⟨fun i hi => (h'.1 i hi).trans (h.1 i hi), by rw [h'.2, h.2]⟩

theorem onlyCore_modCore (s : State) (c : Nat) (f : Core → Core) : OnlyCore s (modCore s c f) c :=
  ⟨fun _ hi => getCore_modCore_ne s f hi, rfl⟩

theorem onlyCore_setCore (s : State) (c : Nat) (k : Core) : OnlyCore s (setCore s c k) c :=
  ⟨fun _ hi => getCore_setCore_ne s k hi, rfl⟩

theorem onlyCore_retire (s : State) (c : Nat) (u : UnitId) : OnlyCore s (retire s c u) c := onlyCore_modCore s c _

@[simp] theorem getCore_retire (s : State) (c : Nat) (u : UnitId) : getCore (retire s c u) c = retired (getCore s c) u := by
  simp [retire]

/-- GR0 reads zero and discards writes; another register takes the value (R164). -/
theorem gr_setGr_same (k : Core) (d : Nat) (v : W64) : gr (setGr k d v) d = if d = 0 then 0 else v := by
  unfold gr setGr; split <;> simp_all

theorem gr_setGr_ne (k : Core) {d n : Nat} (v : W64) (h : n ≠ d) : gr (setGr k d v) n = gr k n := by
  unfold gr setGr; split
  · rfl
  · split
    · rfl
    · exact tget_tset_ne _ _ _ h

@[simp] theorem retired_setGr (k : Core) (u : UnitId) (d : Nat) (v : W64) :
    retired (setGr k d v) u = { retired k u with gr := (setGr k d v).gr } := by
  unfold setGr; split <;> rfl

@[simp] theorem gr_retired (k : Core) (u : UnitId) (n : Nat) : gr (retired k u) n = gr k n := rfl

/-- The C slot writes a register and retires. -/
theorem wroteGr_retire (s : State) (c d : Nat) (v : W64) : WroteGr s (retire (modCore s c (fun k => setGr k d v)) c .c) c d v := by
  refine ⟨?_, ?_, ?_, (onlyCore_modCore s c _).trans (onlyCore_retire _ c _)⟩
  · rw [getCore_retire, getCore_modCore_same, gr_retired, gr_setGr_same]
  · intro n hn; rw [getCore_retire, getCore_modCore_same, gr_retired, gr_setGr_ne _ _ hn]
  · rw [getCore_retire, getCore_modCore_same, retired_setGr]

end Sys2Proof.Machine
end

