-- ==== Sys2Proof/Laws/Dispatch.lean ====
section
/-! SUPPORT. What `exec` runs for each command, so that no proof unfolds the table of arms. -/

namespace Sys2Proof.Machine

@[simp] theorem exec_tuningLoad (fn : Fin 18) (image : List Byte) (s : State) : exec (.tuningLoad fn image) s = execTuningLoad fn image s := rfl
@[simp] theorem exec_tuningCheckOnly (fn : Fin 18) (image : List Byte) (s : State) : exec (.tuningCheckOnly fn image) s = execTuningCheckOnly fn image s := rfl
@[simp] theorem exec_tuningZeroiseDone (s : State) : exec (.tuningZeroiseDone) s = execTuningZeroiseDone s := rfl
@[simp] theorem exec_featureEnable (feature res part : Nat) (s : State) : exec (.featureEnable feature res part) s = execFeatureEnable feature res part s := rfl
@[simp] theorem exec_featureDisable (feature res : Nat) (s : State) : exec (.featureDisable feature res) s = execFeatureDisable feature res s := rfl
@[simp] theorem exec_lds (c : Fin 256) (a : Fin 2) (src : Src) (depth : Nat) (fmt : Fmt) (mask base : Opnd) (groups : Nat) (cont : Bool) (s : State) : exec (.lds c a src depth fmt mask base groups cont) s = execLds c a src depth fmt mask base groups s cont := rfl
@[simp] theorem exec_shadowLoadDone (c : Fin 256) (a : Fin 2) (s : State) : exec (.shadowLoadDone c a) s = execShadowLoadDone c a s := rfl
@[simp] theorem exec_swap (c : Fin 256) (a : Fin 2) (s : State) : exec (.swap c a) s = execSwap c a s := rfl
@[simp] theorem exec_col (c : Fin 256) (a : Fin 2) (group : Fin 8) (src : Src) (slices first : Nat) (fmt : Fmt) (opn cls : Bool) (s : State) : exec (.col c a group src slices first fmt opn cls) s = execCol c a group src slices first fmt opn cls s := rfl
@[simp] theorem exec_pre (c : Fin 256) (a : Fin 2) (group : Fin 8) (src : Src) (n : Nat) (fmt : Fmt) (s : State) : exec (.pre c a group src n fmt) s = execPre c a group src n fmt s := rfl
@[simp] theorem exec_preloadDone (c : Fin 256) (a : Fin 2) (s : State) : exec (.preloadDone c a) s = execPreloadDone c a s := rfl
@[simp] theorem exec_wb (c : Fin 256) (a : Fin 2) (group : Fin 8) (dst : WbDst) (fmt : Fmt) (st : Fin 16) (grad : Option Nat) (s : State) : exec (.wb c a group dst fmt st grad) s = execWb c a group dst fmt st grad s := rfl
@[simp] theorem exec_writebackDone (c : Fin 256) (a : Fin 2) (s : State) : exec (.writebackDone c a) s = execWritebackDone c a s := rfl
@[simp] theorem exec_spl (c : Fin 256) (a : Fin 2) (code : Nat) (s : State) : exec (.spl c a code) s = execSpl c a code s := rfl
@[simp] theorem exec_bow (c : Fin 256) (a : Fin 2) (desc : Opnd) (st : Fin 16) (s : State) : exec (.bow c a desc st) s = execBow c a desc st s := rfl
@[simp] theorem exec_nutIssue (n : Fin 128) (s : State) : exec (.nutIssue n) s = execNutIssue n s := rfl
@[simp] theorem exec_wrapBowStart (n : Fin 128) (s : State) : exec (.wrapBowStart n) s = execWrapBowStart n s := rfl
@[simp] theorem exec_groupDone (arr : Fin 512) (g : Fin 8) (s : State) : exec (.groupDone arr g) s = execGroupDone arr g s := rfl
@[simp] theorem exec_sumBowDone (n : Fin 128) (grad : Option Nat) (s : State) : exec (.sumBowDone n grad) s = execSumBowDone n grad s := rfl
@[simp] theorem exec_arrayFault (arr : Fin 512) (s : State) : exec (.arrayFault arr) s = execArrayFault arr s := rfl
@[simp] theorem exec_stringFaultClear (fn : Fin 18) (n : Fin 128) (v : W64) (ev : W64) (s : State) : exec (.stringFaultClear fn n v ev) s = execStringFaultClear fn n v s ev := rfl
@[simp] theorem exec_readClear (fn : Fin 18) (off : Nat) (width : Nat) (ev : W64) (s : State) : exec (.readClear fn off width ev) s = execReadClear fn off width ev s := rfl
@[simp] theorem exec_slotComplete (p : Fin 16) (s : State) : exec (.slotComplete p) s = execSlotComplete p s := rfl
@[simp] theorem exec_stashDeadlock (p : Fin 16) (s : State) : exec (.stashDeadlock p) s = execStashDeadlock p s := rfl
@[simp] theorem exec_stepWatchdogExpired (p : Fin 16) (s : State) : exec (.stepWatchdogExpired p) s = execStepWatchdogExpired p s := rfl
@[simp] theorem exec_readyReport (p : Fin 16) (s : State) : exec (.readyReport p) s = execReadyReport p s := rfl
@[simp] theorem exec_vadd (c : Fin 256) (fmt : VFmts) (d a b : Fin 16) (s : State) : exec (.vadd c fmt d a b) s = execVadd c fmt d a b s := rfl
@[simp] theorem exec_vmul (c : Fin 256) (fmt : VFmts) (d a b : Fin 16) (s : State) : exec (.vmul c fmt d a b) s = execVmul c fmt d a b s := rfl
@[simp] theorem exec_vfma (c : Fin 256) (fmt : VFmts) (d a b e : Fin 16) (s : State) : exec (.vfma c fmt d a b e) s = execVfma c fmt d a b e s := rfl
@[simp] theorem exec_vmin (c : Fin 256) (fmt : VFmts) (d a b : Fin 16) (s : State) : exec (.vmin c fmt d a b) s = execVmin c fmt d a b s := rfl
@[simp] theorem exec_vmax (c : Fin 256) (fmt : VFmts) (d a b : Fin 16) (s : State) : exec (.vmax c fmt d a b) s = execVmax c fmt d a b s := rfl
@[simp] theorem exec_vcmp (c : Fin 256) (fmt : VFmts) (op : CmpOp) (d a b : Fin 16) (s : State) : exec (.vcmp c fmt op d a b) s = execVcmp c fmt op d a b s := rfl
@[simp] theorem exec_vsel (c : Fin 256) (fmt : VFmts) (d a b m : Fin 16) (s : State) : exec (.vsel c fmt d a b m) s = execVsel c fmt d a b m s := rfl
@[simp] theorem exec_vsfn (c : Fin 256) (f : SFn) (d a b : Fin 16) (s : State) : exec (.vsfn c f d a b) s = execVsfn c f d a b s := rfl
@[simp] theorem exec_vred (c : Fin 256) (fmt : VFmt) (op : RedOp) (d a : Fin 16) (count : Nat) (s : State) : exec (.vred c fmt op d a count) s = execVred c fmt op d a count s := rfl
@[simp] theorem exec_vld (c : Fin 256) (d : Fin 16) (addr scaleAddr : Opnd) (mode : VldMode) (toFmt : VFmt) (s : State) : exec (.vld c d addr scaleAddr mode toFmt) s = execVld c d addr scaleAddr mode toFmt s := rfl
@[simp] theorem exec_vst (c : Fin 256) (a : Fin 16) (addr scaleAddr : Opnd) (fmt : Fmt) (srcFmt : VFmt) (mode : VstMode) (grad : Option Nat) (s : State) : exec (.vst c a addr scaleAddr fmt srcFmt mode grad) s = execVst c a addr scaleAddr fmt srcFmt mode grad s := rfl
@[simp] theorem exec_vstat (c : Fin 256) (st : Fin 16) (s : State) : exec (.vstat c st) s = execVstat c st s := rfl
@[simp] theorem exec_mv (c : Fin 256) (desc : Opnd) (st : Fin 16) (grad : Option Nat) (s : State) : exec (.mv c desc st grad) s = execMv c desc st s grad := rfl
@[simp] theorem exec_matvecDone (c : Fin 256) (s : State) : exec (.matvecDone c) s = execMatvecDone c s := rfl
@[simp] theorem exec_bundleIssue (c : Fin 256) (slots : List Slot) (s : State) : exec (.bundleIssue c slots) s = execBundleIssue c slots s := rfl
@[simp] theorem exec_slotEnd (c : Fin 256) (s : State) : exec (.slotEnd c) s = execSlotEnd c s := rfl
@[simp] theorem exec_fetch (c : Fin 256) (q : Fin 16) (src : XEnd) (len : Opnd) (s : State) : exec (.fetch c q src len) s = execFetch c q src len s := rfl
@[simp] theorem exec_fetchArrived (c : Fin 256) (q : Fin 16) (s : State) : exec (.fetchArrived c q) s = execFetchArrived c q s := rfl
@[simp] theorem exec_put (c : Fin 256) (q : Fin 16) (srcOff : Opnd) (dst : XEnd) (len : Opnd) (s : State) : exec (.put c q srcOff dst len) s = execPut c q srcOff dst len s := rfl
@[simp] theorem exec_putComplete (c : Fin 256) (q : Fin 16) (i : Nat) (hostData : List Byte) (s : State) : exec (.putComplete c q i hostData) s = execPutComplete c q i hostData s := rfl
@[simp] theorem exec_pop (c : Fin 256) (q : Fin 16) (k : Nat) (s : State) : exec (.pop c q k) s = execPop c q k s := rfl
@[simp] theorem exec_lmove (c : Fin 256) (dst src : LPlace) (len : Nat) (s : State) : exec (.lmove c dst src len) s = execLmove c dst src len s := rfl
@[simp] theorem exec_wait (c : Fin 256) (q : Fin 16) (k : Nat) (s : State) : exec (.wait c q k) s = execWait c q k s := rfl
@[simp] theorem exec_waitp (c : Fin 256) (q : Fin 16) (k : Nat) (s : State) : exec (.waitp c q k) s = execWaitp c q k s := rfl
@[simp] theorem exec_qcfg (c : Fin 256) (isPut : Bool) (q : Fin 16) (base size mode : Nat) (s : State) : exec (.qcfg c isPut q base size mode) s = execQcfg c isPut q base size mode s := rfl
@[simp] theorem exec_add (c : Fin 256) (d a : Fin 32) (b : AluSrc) (s : State) : exec (.add c d a b) s = execAdd c d a b s := rfl
@[simp] theorem exec_sub (c : Fin 256) (d a : Fin 32) (b : AluSrc) (s : State) : exec (.sub c d a b) s = execSub c d a b s := rfl
@[simp] theorem exec_and (c : Fin 256) (d a : Fin 32) (b : AluSrc) (s : State) : exec (.and c d a b) s = execAnd c d a b s := rfl
@[simp] theorem exec_or (c : Fin 256) (d a : Fin 32) (b : AluSrc) (s : State) : exec (.or c d a b) s = execOr c d a b s := rfl
@[simp] theorem exec_xor (c : Fin 256) (d a : Fin 32) (b : AluSrc) (s : State) : exec (.xor c d a b) s = execXor c d a b s := rfl
@[simp] theorem exec_shl (c : Fin 256) (d a : Fin 32) (b : AluSrc) (s : State) : exec (.shl c d a b) s = execShl c d a b s := rfl
@[simp] theorem exec_shr (c : Fin 256) (d a : Fin 32) (b : AluSrc) (s : State) : exec (.shr c d a b) s = execShr c d a b s := rfl
@[simp] theorem exec_movi (c : Fin 256) (d : Fin 32) (v : W64) (s : State) : exec (.movi c d v) s = execMovi c d v s := rfl
@[simp] theorem exec_br (c : Fin 256) (target : Nat) (s : State) : exec (.br c target) s = execBr c target s := rfl
@[simp] theorem exec_brc (c : Fin 256) (r : Fin 32) (target : Nat) (s : State) : exec (.brc c r target) s = execBrc c r target s := rfl
@[simp] theorem exec_loop (c : Fin 256) (lc : Fin 4) (init : Option Nat) (target : Nat) (s : State) : exec (.loop c lc init target) s = execLoop c lc init target s := rfl
@[simp] theorem exec_strd (c : Fin 256) (d : Fin 32) (st : Fin 16) (s : State) : exec (.strd c d st) s = execStrd c d st s := rfl
@[simp] theorem exec_timerd (c : Fin 256) (d : Fin 32) (s : State) : exec (.timerd c d) s = execTimerd c d s := rfl
@[simp] theorem exec_nop (c : Fin 256) (s : State) : exec (.nop c) s = execNop c s := rfl
@[simp] theorem exec_atom (c : Fin 256) (op : AtomOp) (ty : AtomTy) (addr srcOff : Opnd) (len : Nat) (fq : Option (Fin 16)) (s : State) : exec (.atom c op ty addr srcOff len fq) s = execAtom c op ty addr srcOff len fq s := rfl
@[simp] theorem exec_foldSwap (p : Fin 16) (unit : Nat) (s : State) : exec (.foldSwap p unit) s = execFoldSwap p unit s := rfl
@[simp] theorem exec_foldSwapDone (p : Fin 16) (unit : Nat) (s : State) : exec (.foldSwapDone p unit) s = execFoldSwapDone p unit s := rfl
@[simp] theorem exec_programLoad (fn : Fin 18) (c : Fin 256) (v : W64) (s : State) : exec (.programLoad fn c v) s = execProgramLoad fn c v s := rfl
@[simp] theorem exec_programUnload (fn : Fin 18) (c : Fin 256) (v : W64) (s : State) : exec (.programUnload fn c v) s = execProgramUnload fn c v s := rfl
@[simp] theorem exec_programUnloadApply (p : Fin 16) (k : Fin 8) (s : State) : exec (.programUnloadApply p k) s = execProgramUnloadApply p k s := rfl
@[simp] theorem exec_timeSliceSwap (p : Fin 16) (s : State) : exec (.timeSliceSwap p) s = execTimeSliceSwap p s := rfl
@[simp] theorem exec_meshRead (pk : Packet) (ecc : Ecc) (s : State) : exec (.meshRead pk ecc) s = execMeshRead pk ecc s := rfl
@[simp] theorem exec_meshWrite (pk : Packet) (ecc : Ecc) (s : State) : exec (.meshWrite pk ecc) s = execMeshWrite pk ecc s := rfl
@[simp] theorem exec_meshAtom (pk : Packet) (spec : AtomSpec) (ecc : Ecc) (s : State) : exec (.meshAtom pk spec ecc) s = execMeshAtom pk spec ecc s := rfl
@[simp] theorem exec_meshRegRead (pk : Packet) (ev : W64) (s : State) : exec (.meshRegRead pk ev) s = execMeshRegRead pk s ev := rfl
@[simp] theorem exec_meshRegWrite (pk : Packet) (ev : W64) (s : State) : exec (.meshRegWrite pk ev) s = execMeshRegWrite pk s ev := rfl
@[simp] theorem exec_meshQueueData (pk : Packet) (s : State) : exec (.meshQueueData pk) s = execMeshQueueData pk s := rfl
@[simp] theorem exec_meshInterrupt (pk : Packet) (s : State) : exec (.meshInterrupt pk) s = execMeshInterrupt pk s := rfl
@[simp] theorem exec_meshReadData (pk : Packet) (s : State) : exec (.meshReadData pk) s = execMeshReadData pk s := rfl
@[simp] theorem exec_meshWriteAck (pk : Packet) (s : State) : exec (.meshWriteAck pk) s = execMeshWriteAck pk s := rfl
@[simp] theorem exec_meshAtomData (pk : Packet) (s : State) : exec (.meshAtomData pk) s = execMeshAtomData pk s := rfl
@[simp] theorem exec_meshRegData (pk : Packet) (s : State) : exec (.meshRegData pk) s = execMeshRegData pk s := rfl
@[simp] theorem exec_meshRegAck (pk : Packet) (s : State) : exec (.meshRegAck pk) s = execMeshRegAck pk s := rfl
@[simp] theorem exec_meshBadPacket (pk : Packet) (s : State) : exec (.meshBadPacket pk) s = execMeshBadPacket pk s := rfl
@[simp] theorem exec_scFlush (fn : Fin 18) (v : W64) (s : State) : exec (.scFlush fn v) s = execScFlush fn v s := rfl
@[simp] theorem exec_scFlushDone (s : State) : exec (.scFlushDone) s = execScFlushDone s := rfl
@[simp] theorem exec_laneTraining (col : Fin 64) (s : State) : exec (.laneTraining col) s = execLaneTraining col s := rfl
@[simp] theorem exec_laneTrainingDone (col : Fin 64) (failed : List (Fin 4672)) (s : State) : exec (.laneTrainingDone col failed) s = execLaneTrainingDone col failed s := rfl
@[simp] theorem exec_columnFailed (col : Fin 64) (s : State) : exec (.columnFailed col) s = execColumnFailed col s := rfl
@[simp] theorem exec_doorbell (fn : Fin 18) (page slot : Nat) (v : W64) (width : Nat) (s : State) : exec (.doorbell fn page slot v width) s = execDoorbell fn page slot v width s := rfl
@[simp] theorem exec_create (fn : Fin 18) (idx : Nat) (image : List Byte) (s : State) : exec (.create fn idx image) s = execCreate fn idx image s := rfl
@[simp] theorem exec_destroy (fn : Fin 18) (idx : Nat) (s : State) : exec (.destroy fn idx) s = execDestroy fn idx s := rfl
@[simp] theorem exec_rearm (fn : Fin 18) (idx : Nat) (s : State) : exec (.rearm fn idx) s = execRearm fn idx s := rfl
@[simp] theorem exec_query (fn : Fin 18) (idx : Nat) (s : State) : exec (.query fn idx) s = execQuery fn idx s := rfl
@[simp] theorem exec_evict (fn : Fin 18) (idx : Nat) (s : State) : exec (.evict fn idx) s = execEvict fn idx s := rfl
@[simp] theorem exec_partTableWrite (fn : Fin 18) (off : Nat) (v : W64) (s : State) : exec (.partTableWrite fn off v) s = execPartTableWrite fn off v s := rfl
@[simp] theorem exec_descriptorPrefetch (idx : Nat) (hostData : List Byte) (s : State) : exec (.descriptorPrefetch idx hostData) s = execDescriptorPrefetch idx hostData s := rfl
@[simp] theorem exec_descriptorAccept (idx : Nat) (hostData : List Byte) (mapped : Bool) (s : State) : exec (.descriptorAccept idx hostData mapped) s = execDescriptorAccept idx hostData s mapped := rfl
@[simp] theorem exec_descriptorFinish (idx i status bytes : Nat) (hostData : List Byte) (ecc : Ecc) (s : State) : exec (.descriptorFinish idx i status bytes hostData ecc) s = execDescriptorFinish idx i status bytes hostData s ecc := rfl
@[simp] theorem exec_msixMergeExpiry (vec : Nat) (s : State) : exec (.msixMergeExpiry vec) s = execMsixMergeExpiry vec s := rfl
@[simp] theorem exec_contextLoad (idx : Nat) (hostEntry : List Byte) (s : State) : exec (.contextLoad idx hostEntry) s = execContextLoad idx hostEntry s := rfl
@[simp] theorem exec_contextWritebackDone (idx : Nat) (s : State) : exec (.contextWritebackDone idx) s = execContextWritebackDone idx s := rfl
@[simp] theorem exec_linkSignalDetect (port : Fin 12) (s : State) : exec (.linkSignalDetect port) s = execLinkSignalDetect port s := rfl
@[simp] theorem exec_ident (port : Fin 12) (m : IdentMsg) (s : State) : exec (.ident port m) s = execIdent port m s := rfl
@[simp] theorem exec_wiringNotice (port : Fin 12) (code : Nat) (s : State) : exec (.wiringNotice port code) s = execWiringNotice port code s := rfl
@[simp] theorem exec_portUp (port : Fin 12) (lanes propNs : Nat) (s : State) : exec (.portUp port lanes propNs) s = execPortUp port lanes propNs s := rfl
@[simp] theorem exec_trainingAttemptFail (port : Fin 12) (s : State) : exec (.trainingAttemptFail port) s = execTrainingAttemptFail port s := rfl
@[simp] theorem exec_partnerLost (port : Fin 12) (s : State) : exec (.partnerLost port) s = execPartnerLost port s := rfl
@[simp] theorem exec_retrain (fn : Fin 18) (port : Fin 12) (s : State) : exec (.retrain fn port) s = execRetrain fn port s := rfl
@[simp] theorem exec_portDisable (fn : Fin 18) (port : Fin 12) (v : W64) (s : State) : exec (.portDisable fn port v) s = execPortDisable fn port v s := rfl
@[simp] theorem exec_fabModAddrWrite (fn : Fin 18) (v : W64) (s : State) : exec (.fabModAddrWrite fn v) s = execFabModAddrWrite fn v s := rfl
@[simp] theorem exec_dataUnit (port : Fin 12) (w : UnitWire) (fec : Nat × Nat) (s : State) : exec (.dataUnit port w fec) s = execDataUnit port w fec s := rfl
@[simp] theorem exec_controlUnit (port : Fin 12) (w : UnitWire) (fec : Nat × Nat) (s : State) : exec (.controlUnit port w fec) s = execControlUnit port w fec s := rfl
@[simp] theorem exec_idleUnit (port : Fin 12) (fec : Nat × Nat) (s : State) : exec (.idleUnit port fec) s = execIdleUnit port fec s := rfl
@[simp] theorem exec_mcastUnit (port : Fin 12) (w : UnitWire) (fec : Nat × Nat) (s : State) : exec (.mcastUnit port w fec) s = execMcastUnit port w fec s := rfl
@[simp] theorem exec_controlUnitSend (port : Fin 12) (s : State) : exec (.controlUnitSend port) s = execControlUnitSend port s := rfl
@[simp] theorem exec_linkDown (port : Fin 12) (addr dim : Nat) (plus : Bool) (s : State) : exec (.linkDown port addr dim plus) s = execLinkDown port addr dim plus s := rfl
@[simp] theorem exec_linkUp (port : Fin 12) (addr dim : Nat) (plus : Bool) (s : State) : exec (.linkUp port addr dim plus) s = execLinkUp port addr dim plus s := rfl
@[simp] theorem exec_e2eAck (via : AckVia) (stream seq free : Nat) (s : State) : exec (.e2eAck via stream seq free) s = execE2eAck via stream seq free s := rfl
@[simp] theorem exec_e2eAckSend (stream : Nat) (s : State) : exec (.e2eAckSend stream) s = execE2eAckSend stream s := rfl
@[simp] theorem exec_fabE2eRetransmit (stream : Nat) (s : State) : exec (.fabE2eRetransmit stream) s = execFabE2eRetransmit stream s := rfl
@[simp] theorem exec_timeoutHoldEnd (kind idx : Nat) (s : State) : exec (.timeoutHoldEnd kind idx) s = execTimeoutHoldEnd kind idx s := rfl
@[simp] theorem exec_reserve (port : Option (Fin 12)) (m : AdmMsg) (s : State) : exec (.reserve port m) s = execReserve port m s := rfl
@[simp] theorem exec_grant (port : Option (Fin 12)) (m : AdmMsg) (s : State) : exec (.grant port m) s = execGrant port m s := rfl
@[simp] theorem exec_refuse (port : Option (Fin 12)) (m : AdmMsg) (s : State) : exec (.refuse port m) s = execRefuse port m s := rfl
@[simp] theorem exec_release (port : Option (Fin 12)) (m : AdmMsg) (s : State) : exec (.release port m) s = execRelease port m s := rfl
@[simp] theorem exec_admissionHoldTimeout (port : Fin 12) (s : State) : exec (.admissionHoldTimeout port) s = execAdmissionHoldTimeout port s := rfl
@[simp] theorem exec_linkRekey (port : Fin 12) (s : State) : exec (.linkRekey port) s = execLinkRekey port s := rfl
@[simp] theorem exec_timeMessage (port : Fin 12) (t1 : Nat) (t2 : Option Nat) (t3 prop : Nat) (s : State) : exec (.timeMessage port t1 t2 t3 prop) s = execTimeMessage port t1 t2 t3 prop s := rfl
@[simp] theorem exec_timeMessageSend (s : State) : exec (.timeMessageSend) s = execTimeMessageSend s := rfl
@[simp] theorem exec_feedWrite (g : Fin 16) (s : State) : exec (.feedWrite g) s = execFeedWrite g s := rfl
@[simp] theorem exec_encRecord (g : Fin 16) (s : State) : exec (.encRecord g) s = execEncRecord g s := rfl
@[simp] theorem exec_g1Unit (port : Fin 12) (w : UnitWire) (fec : Nat × Nat) (s : State) : exec (.g1Unit port w fec) s = execG1Unit port w s fec := rfl
@[simp] theorem exec_reduceScatterUnit (port : Fin 12) (w : UnitWire) (fec : Nat × Nat) (s : State) : exec (.reduceScatterUnit port w fec) s = execReduceScatterUnit port w s fec := rfl
@[simp] theorem exec_allGatherUnit (port : Fin 12) (w : UnitWire) (fec : Nat × Nat) (s : State) : exec (.allGatherUnit port w fec) s = execAllGatherUnit port w s fec := rfl
@[simp] theorem exec_fingerprintUnit (port : Fin 12) (header : BitVec 80) (data : List Byte) (crc : BitVec 32) (fec : Nat × Nat) (s : State) : exec (.fingerprintUnit port header data crc fec) s = execFingerprintUnit port header data crc fec s := rfl
@[simp] theorem exec_reductionCredit (port : Fin 12) (slot : Fin 16) (dim : Fin 4) (plus : Bool) (n : Nat) (s : State) : exec (.reductionCredit port slot dim plus n) s = execReductionCredit port slot dim plus n s := rfl
@[simp] theorem exec_grxPartBlocksWrite (fn : Fin 18) (p : Fin 16) (v : W64) (s : State) : exec (.grxPartBlocksWrite fn p v) s = execGrxPartBlocksWrite fn p v s := rfl
@[simp] theorem exec_ready (hop : SealHop) (child : Nat) (m : ReadyMsg) (s : State) : exec (.ready hop child m) s = execReady hop child m s := rfl
@[simp] theorem exec_sendReady (p : Fin 16) (s : State) : exec (.sendReady p) s = execSendReady p s := rfl
@[simp] theorem exec_sealStep (hop : SealHop) (src step : Nat) (s : State) : exec (.sealStep hop src step) s = execSealStep hop src step s := rfl
@[simp] theorem exec_sealAck (hop : SealHop) (m : StepFrom) (s : State) : exec (.sealAck hop m) s = execSealAck hop m s := rfl
@[simp] theorem exec_abort (hop : SealHop) (src : Nat) (m : AbortMsg) (s : State) : exec (.abort hop src m) s = execAbort hop src m s := rfl
@[simp] theorem exec_decisionAck (hop : SealHop) (child step : Nat) (s : State) : exec (.decisionAck hop child step) s = execDecisionAck hop child step s := rfl
@[simp] theorem exec_decisionQuery (hop : SealHop) (src : Nat) (step : Option Nat) (s : State) : exec (.decisionQuery hop src step) s = execDecisionQuery hop src step s := rfl
@[simp] theorem exec_decisionAnswer (hop : SealHop) (src step : Nat) (m : DecisionMsg) (s : State) : exec (.decisionAnswer hop src step m) s = execDecisionAnswer hop src step m s := rfl
@[simp] theorem exec_rejoinCopyDone (p : Fin 16) (data : List Byte) (s : State) : exec (.rejoinCopyDone p data) s = execRejoinCopyDone p data s := rfl
@[simp] theorem exec_stmRecover (fn : Fin 18) (v : W64) (s : State) : exec (.stmRecover fn v) s = execStmRecover fn v s := rfl
@[simp] theorem exec_recoveryScan (descs : List (Nat × Nat × List Byte)) (s : State) : exec (.recoveryScan descs) s = execRecoveryScan s descs := rfl
@[simp] theorem exec_journalWriteDone (idx : Nat) (s : State) : exec (.journalWriteDone idx) s = execJournalWriteDone idx s := rfl
@[simp] theorem exec_zoneStretch (z : Fin 16) (monitor code : Nat) (s : State) : exec (.zoneStretch z monitor code) s = execZoneStretch z monitor code s := rfl
@[simp] theorem exec_slowLoop (z : Fin 16) (s : State) : exec (.slowLoop z) s = execSlowLoop z s := rfl
@[simp] theorem exec_zoneSlewStep (z : Fin 16) (s : State) : exec (.zoneSlewStep z) s = execZoneSlewStep z s := rfl
@[simp] theorem exec_zoneLockLost (z : Fin 16) (s : State) : exec (.zoneLockLost z) s = execZoneLockLost z s := rfl
@[simp] theorem exec_relock (fn : Fin 18) (z : Fin 16) (s : State) : exec (.relock fn z) s = execRelock fn z s := rfl
@[simp] theorem exec_refLost (s : State) : exec (.refLost) s = execRefLost s := rfl
@[simp] theorem exec_epochPulse (s : State) : exec (.epochPulse) s = execEpochPulse s := rfl
@[simp] theorem exec_clkTimeSeedWrite (fn : Fin 18) (v : W64) (s : State) : exec (.clkTimeSeedWrite fn v) s = execClkTimeSeedWrite fn v s := rfl
@[simp] theorem exec_clkSyncLost (s : State) : exec (.clkSyncLost) s = execClkSyncLost s := rfl
@[simp] theorem exec_flushComplete (b : Nat) (s : State) : exec (.flushComplete b) s = execFlushComplete b s := rfl
@[simp] theorem exec_supplyHigh (mv : Nat) (s : State) : exec (.supplyHigh mv) s = execSupplyHigh mv s := rfl
@[simp] theorem exec_supplyThrottle (mv : Nat) (s : State) : exec (.supplyThrottle mv) s = execSupplyThrottle mv s := rfl
@[simp] theorem exec_supplyNormal (mv : Nat) (s : State) : exec (.supplyNormal mv) s = execSupplyNormal mv s := rfl
@[simp] theorem exec_supplyStop (mv : Nat) (s : State) : exec (.supplyStop mv) s = execSupplyStop mv s := rfl
@[simp] theorem exec_retentionEnter (s : State) : exec (.retentionEnter) s = execRetentionEnter s := rfl
@[simp] theorem exec_supplyRideThrough (mv : Nat) (s : State) : exec (.supplyRideThrough mv) s = execSupplyRideThrough mv s := rfl
@[simp] theorem exec_holdupDepleted (s : State) : exec (.holdupDepleted) s = execHoldupDepleted s := rfl
@[simp] theorem exec_holdupCharged (mv : Nat) (s : State) : exec (.holdupCharged mv) s = execHoldupCharged mv s := rfl
@[simp] theorem exec_inrushFault (s : State) : exec (.inrushFault) s = execInrushFault s := rfl
@[simp] theorem exec_inrushRetry (s : State) : exec (.inrushRetry) s = execInrushRetry s := rfl
@[simp] theorem exec_gateEval (ramp : List Nat) (progW droneMax : Nat) (s : State) : exec (.gateEval ramp progW droneMax) s = execGateEval ramp progW droneMax s := rfl
@[simp] theorem exec_capEval (s : State) : exec (.capEval) s = execCapEval s := rfl
@[simp] theorem exec_telemetrySample (mv watts board : Nat) (zones : List (Nat × Nat × Nat)) (s : State) : exec (.telemetrySample mv watts board zones) s = execTelemetrySample mv watts board zones s := rfl
@[simp] theorem exec_telemetryRecord (s : State) : exec (.telemetryRecord) s = execTelemetryRecord s := rfl
@[simp] theorem exec_poweredHour (slow : List Nat) (s : State) : exec (.poweredHour slow) s = execPoweredHour slow s := rfl
@[simp] theorem exec_replan (write : Option (Fin 18)) (s : State) : exec (.replan write) s = execReplan write s := rfl
@[simp] theorem exec_bootRom (s : State) : exec (.bootRom) s = execBootRom s := rfl
@[simp] theorem exec_getCerts (fn : Fin 18) (hostReq : List Byte) (s : State) : exec (.getCerts fn hostReq) s = execGetCerts fn hostReq s := rfl
@[simp] theorem exec_attest (fn : Fin 18) (hostReq : List Byte) (s : State) : exec (.attest fn hostReq) s = execAttest fn hostReq s := rfl
@[simp] theorem exec_logRead (fn : Fin 18) (hostReq : List Byte) (s : State) : exec (.logRead fn hostReq) s = execLogRead fn hostReq s := rfl
@[simp] theorem exec_lock (fn : Fin 18) (hostReq : List Byte) (s : State) : exec (.lock fn hostReq) s = execLock fn hostReq s := rfl
@[simp] theorem exec_unlock (fn : Fin 18) (hostReq : List Byte) (s : State) : exec (.unlock fn hostReq) s = execUnlock fn hostReq s := rfl
@[simp] theorem exec_keyAgree (fn : Fin 18) (hostReq : List Byte) (s : State) : exec (.keyAgree fn hostReq) s = execKeyAgree fn hostReq s := rfl
@[simp] theorem exec_keyImport (fn : Fin 18) (hostReq : List Byte) (s : State) : exec (.keyImport fn hostReq) s = execKeyImport fn hostReq s := rfl
@[simp] theorem exec_keyDestroy (fn : Fin 18) (hostReq : List Byte) (s : State) : exec (.keyDestroy fn hostReq) s = execKeyDestroy fn hostReq s := rfl
@[simp] theorem exec_svnCommit (fn : Fin 18) (hostReq : List Byte) (s : State) : exec (.svnCommit fn hostReq) s = execSvnCommit fn hostReq s := rfl
@[simp] theorem exec_firmwareUpdate (image : List Byte) (s : State) : exec (.firmwareUpdate image) s = execFirmwareUpdate image s := rfl
@[simp] theorem exec_ideKm (stream : Fin 17) (s : State) : exec (.ideKm stream) s = execIdeKm stream s := rfl
@[simp] theorem exec_hostIdeError (stream : Fin 17) (hit : List Nat) (s : State) : exec (.hostIdeError stream hit) s = execHostIdeError stream hit s := rfl
@[simp] theorem exec_hostLinkChange (width rate half : Nat) (s : State) : exec (.hostLinkChange width rate half) s = execHostLinkChange width rate half s := rfl
@[simp] theorem exec_hostLinkDown (s : State) : exec (.hostLinkDown) s = execHostLinkDown s := rfl
@[simp] theorem exec_vfFlr (v : Fin 16) (s : State) : exec (.vfFlr v) s = execVfFlr v s := rfl
@[simp] theorem exec_pfFlr (s : State) : exec (.pfFlr) s = execPfFlr s := rfl
@[simp] theorem exec_hotReset (s : State) : exec (.hotReset) s = execHotReset s := rfl
@[simp] theorem exec_perst (s : State) : exec (.perst) s = execPerst s := rfl
@[simp] theorem exec_bar2Read (fn : Fin 18) (off len : Nat) (ecc : Ecc) (s : State) : exec (.bar2Read fn off len ecc) s = execBar2Read fn off len ecc s := rfl
@[simp] theorem exec_bar2Write (fn : Fin 18) (off : Nat) (data : List Byte) (ecc : Ecc) (s : State) : exec (.bar2Write fn off data ecc) s = execBar2Write fn off data s ecc := rfl
@[simp] theorem exec_modIntCauseClear (fn : Fin 18) (v : W64) (ev : W64) (s : State) : exec (.modIntCauseClear fn v ev) s = execModIntCauseClear fn v s ev := rfl
@[simp] theorem exec_modIntMaskWrite (fn : Fin 18) (v : W64) (s : State) : exec (.modIntMaskWrite fn v) s = execModIntMaskWrite fn v s := rfl
@[simp] theorem exec_msixUnmask (vec : Nat) (s : State) : exec (.msixUnmask vec) s = execMsixUnmask vec s := rfl
@[simp] theorem exec_faultMergeEnd (i : Nat) (s : State) : exec (.faultMergeEnd i) s = execFaultMergeEnd i s := rfl
@[simp] theorem exec_faultRingDrain (fn : Fin 18) (v : W64) (s : State) : exec (.faultRingDrain fn v) s = execFaultRingDrain fn v s := rfl
@[simp] theorem exec_coreHwFault (c : Fin 256) (array : Option (Fin 2)) (s : State) : exec (.coreHwFault c array) s = execCoreHwFault c array s := rfl
@[simp] theorem exec_quarantineAdd (fn : Fin 18) (v : W64) (s : State) : exec (.quarantineAdd fn v) s = execQuarantineAdd fn v s := rfl
@[simp] theorem exec_quarantineRemove (fn : Fin 18) (v : W64) (s : State) : exec (.quarantineRemove fn v) s = execQuarantineRemove fn v s := rfl
@[simp] theorem exec_recEn (fn : Fin 18) (s : State) : exec (.recEn fn) s = execRecEn fn s := rfl
@[simp] theorem exec_recArm (fn : Fin 18) (s : State) : exec (.recArm fn) s = execRecArm fn s := rfl
@[simp] theorem exec_gpx0Edge (s : State) : exec (.gpx0Edge) s = execGpx0Edge s := rfl
@[simp] theorem exec_recStop (fn : Fin 18) (s : State) : exec (.recStop fn) s = execRecStop fn s := rfl
@[simp] theorem exec_replayEn (fn : Fin 18) (s : State) : exec (.replayEn fn) s = execReplayEn fn s := rfl
@[simp] theorem exec_replayEntry (entry bulk : List Byte) (s : State) : exec (.replayEntry entry bulk) s = execReplayEntry entry bulk s := rfl
@[simp] theorem exec_replayDiverged (s : State) : exec (.replayDiverged) s = execReplayDiverged s := rfl
@[simp] theorem exec_traceEn (fn : Fin 18) (v : W64) (s : State) : exec (.traceEn fn v) s = execTraceEn fn v s := rfl
@[simp] theorem exec_dump (fn : Fin 18) (s : State) : exec (.dump fn) s = execDump fn s := rfl
@[simp] theorem exec_powerOn (mv : Nat) (s : State) : exec (.powerOn mv) s = execPowerOn mv s := rfl
@[simp] theorem exec_warmReset (fn : Fin 18) (v : W64) (s : State) : exec (.warmReset fn v) s = execWarmReset fn v s := rfl
@[simp] theorem exec_warmResetRestart (s : State) : exec (.warmResetRestart) s = execWarmResetRestart s := rfl
@[simp] theorem exec_coldReset (fn : Fin 18) (v : W64) (s : State) : exec (.coldReset fn v) s = execColdReset fn v s := rfl
@[simp] theorem exec_coreReset (fn : Fin 18) (v : W64) (s : State) : exec (.coreReset fn v) s = execCoreReset fn v s := rfl
@[simp] theorem exec_portReset (fn : Fin 18) (v : W64) (s : State) : exec (.portReset fn v) s = execPortReset fn v s := rfl
@[simp] theorem exec_shutdown (fn : Fin 18) (v : W64) (s : State) : exec (.shutdown fn v) s = execShutdown fn v s := rfl
@[simp] theorem exec_sealPulseEnd (s : State) : exec (.sealPulseEnd) s = execSealPulseEnd s := rfl
@[simp] theorem exec_regRead (off : Nat) (ev : W64) (s : State) : exec (.regRead off ev) s = execRegRead off s ev := rfl
@[simp] theorem exec_regWrite (off : Nat) (v : W64) (ev : W64) (s : State) : exec (.regWrite off v ev) s = execRegWrite off v s ev := rfl
@[simp] theorem exec_bufWrite (buf off : Nat) (data : List Byte) (s : State) : exec (.bufWrite buf off data) s = execBufWrite buf off data s := rfl
@[simp] theorem exec_tunLoad (checkOnly : Bool) (len : Nat) (s : State) : exec (.tunLoad checkOnly len) s = execTunLoad checkOnly len s := rfl
@[simp] theorem exec_tunReport (i : Nat) (s : State) : exec (.tunReport i) s = execTunReport i s := rfl
@[simp] theorem exec_secGo (len : Nat) (s : State) : exec (.secGo len) s = execSecGo len s := rfl
@[simp] theorem exec_bufRead (off len : Nat) (s : State) : exec (.bufRead off len) s = execBufRead off len s := rfl
@[simp] theorem exec_pldmDiscovery (cmd : Nat) (s : State) : exec (.pldmDiscovery cmd) s = execPldmDiscovery cmd s := rfl
@[simp] theorem exec_pldmMonitor (sensor : Nat) (s : State) : exec (.pldmMonitor sensor) s = execPldmMonitor sensor s := rfl
@[simp] theorem exec_pldmFru (s : State) : exec (.pldmFru) s = execPldmFru s := rfl
@[simp] theorem exec_extest (s : State) : exec (.extest) s = execExtest s := rfl
@[simp] theorem exec_registerWrite (fn : Fin 18) (off width : Nat) (v : W64) (ev : W64) (s : State) : exec (.registerWrite fn off width v ev) s = execRegisterWrite fn off width v s ev := rfl
@[simp] theorem exec_columnPortSlot (row col : Fin 8) (write : Bool) (s : State) : exec (.columnPortSlot row col write) s = execColumnPortSlot row col write s := rfl
@[simp] theorem exec_refPresent (s : State) : exec (.refPresent) s = execRefPresent s := rfl
@[simp] theorem exec_bootRefTimeout (s : State) : exec (.bootRefTimeout) s = execBootRefTimeout s := rfl
@[simp] theorem exec_syncOutPulse (s : State) : exec (.syncOutPulse) s = execSyncOutPulse s := rfl
@[simp] theorem exec_syncInMissed (s : State) : exec (.syncInMissed) s = execSyncInMissed s := rfl
@[simp] theorem exec_mailboxDone (fn : Fin 18) (s : State) : exec (.mailboxDone fn) s = execMailboxDone fn s := rfl
@[simp] theorem exec_programLoadDone (p : Fin 16) (s : State) : exec (.programLoadDone p) s = execProgramLoadDone p s := rfl
@[simp] theorem exec_timeSliceSwapDone (p : Fin 16) (s : State) : exec (.timeSliceSwapDone p) s = execTimeSliceSwapDone p s := rfl
@[simp] theorem exec_functionPowerState (fn : Fin 18) (d3 : Bool) (s : State) : exec (.functionPowerState fn d3) s = execFunctionPowerState fn d3 s := rfl
@[simp] theorem exec_busMasterEnable (v : Fin 16) (s : State) : exec (.busMasterEnable v) s = execBusMasterEnable v s := rfl

end Sys2Proof.Machine
end

