-- ==== Sys2Proof/Laws/KeptOps.lean ====
section
/-! SUPPORT. What no shared operation changes: the part as manufactured, and the queue of commands (R2). One lemma per function. -/

namespace Sys2Proof.Machine

set_option linter.unusedSimpArgs false

theorem foldl_part {α : Type} (g : State → α → State) (l : List α) (s : State) (h : ∀ s a, (g s a).part = s.part) : (l.foldl g s).part = s.part := by
  induction l generalizing s with
  | nil => rfl
  | cons a l ih => simp [ih, h]
theorem foldl_pending {α : Type} (g : State → α → State) (l : List α) (s : State) (h : ∀ s a, (g s a).pending = s.pending) :
    (l.foldl g s).pending = s.pending := by
  induction l generalizing s with
  | nil => rfl
  | cons a l ih => simp [ih, h]
theorem foldl2_part {α γ : Type} (g : State × γ → α → State × γ) (l : List α) (s : State × γ) (h : ∀ s a, (g s a).1.part = s.1.part) :
    (l.foldl g s).1.part = s.1.part := by
  induction l generalizing s with
  | nil => rfl
  | cons a l ih => simp [ih, h]
theorem foldl2_pending {α γ : Type} (g : State × γ → α → State × γ) (l : List α) (s : State × γ) (h : ∀ s a, (g s a).1.pending = s.1.pending) :
    (l.foldl g s).1.pending = s.1.pending := by
  induction l generalizing s with
  | nil => rfl
  | cons a l ih => simp [ih, h]
theorem foldl3_part {α γ : Type} (g : γ × State → α → γ × State) (l : List α) (s : γ × State) (h : ∀ s a, (g s a).2.part = s.2.part) :
    (l.foldl g s).2.part = s.2.part := by
  induction l generalizing s with
  | nil => rfl
  | cons a l ih => simp [ih, h]
theorem foldl3_pending {α γ : Type} (g : γ × State → α → γ × State) (l : List α) (s : γ × State) (h : ∀ s a, (g s a).2.pending = s.2.pending) :
    (l.foldl g s).2.pending = s.2.pending := by
  induction l generalizing s with
  | nil => rfl
  | cons a l ih => simp [ih, h]
theorem of_ite {α : Type} {c : Prop} [Decidable c] {a b t : α} (h : (if c then a else b) = t) : a = t ∨ b = t := by
  split at h
  · exact .inl h
  · exact .inr h

/-! ## Ops -/

theorem kept_setReg (s : State) (k : Nat) (v : W64) : (setReg s k v).part = s.part ∧ (setReg s k v).pending = s.pending := by
  unfold setReg; constructor <;> simp only []

theorem kept_modReg (s : State) (k : Nat) (f : W64 → W64) : (modReg s k f).part = s.part ∧ (modReg s k f).pending = s.pending := by
  unfold modReg; constructor <;> simp only [kept_setReg]

theorem kept_setRegFld (s : State) (k hi lo v : Nat) : (setRegFld s k hi lo v).part = s.part ∧ (setRegFld s k hi lo v).pending = s.pending := by
  unfold setRegFld; constructor <;> simp only [kept_modReg]

theorem kept_modFn (s : State) (i : Nat) (f : FnSt → FnSt) : (modFn s i f).part = s.part ∧ (modFn s i f).pending = s.pending := by
  unfold modFn; constructor <;> simp only []

theorem kept_setArr (s : State) (i : Nat) (a : Arr) : (setArr s i a).part = s.part ∧ (setArr s i a).pending = s.pending := by
  unfold setArr; constructor <;> simp only []

theorem kept_modArr (s : State) (i : Nat) (f : Arr → Arr) : (modArr s i f).part = s.part ∧ (modArr s i f).pending = s.pending := by
  unfold modArr; constructor <;> simp only [kept_setArr]

theorem kept_setStr (s : State) (i : Nat) (a : Str) : (setStr s i a).part = s.part ∧ (setStr s i a).pending = s.pending := by
  unfold setStr; constructor <;> simp only []

theorem kept_modStr (s : State) (i : Nat) (f : Str → Str) : (modStr s i f).part = s.part ∧ (modStr s i f).pending = s.pending := by
  unfold modStr; constructor <;> simp only [kept_setStr]

theorem kept_setCore (s : State) (i : Nat) (c : Core) : (setCore s i c).part = s.part ∧ (setCore s i c).pending = s.pending := by
  unfold setCore; constructor <;> simp only []

theorem kept_modCore (s : State) (i : Nat) (f : Core → Core) : (modCore s i f).part = s.part ∧ (modCore s i f).pending = s.pending := by
  unfold modCore; constructor <;> simp only [kept_setCore]

theorem kept_setPart (s : State) (i : Nat) (p : PartSt) : (setPart s i p).part = s.part ∧ (setPart s i p).pending = s.pending := by
  unfold setPart; constructor <;> simp only []

theorem kept_modPart (s : State) (i : Nat) (f : PartSt → PartSt) : (modPart s i f).part = s.part ∧ (modPart s i f).pending = s.pending := by
  unfold modPart; constructor <;> simp only [kept_setPart]

theorem kept_modStep (s : State) (i : Nat) (f : Step → Step) : (modStep s i f).part = s.part ∧ (modStep s i f).pending = s.pending := by
  unfold modStep; constructor <;> simp only [kept_modPart]

theorem kept_modCol (s : State) (i : Nat) (f : Col → Col) : (modCol s i f).part = s.part ∧ (modCol s i f).pending = s.pending := by
  unfold modCol; constructor <;> simp only []

theorem kept_modRt (s : State) (i : Nat) (f : StrRt → StrRt) : (modRt s i f).part = s.part ∧ (modRt s i f).pending = s.pending := by
  unfold modRt; constructor <;> simp only []

theorem kept_setPort (s : State) (i : Nat) (p : Port) : (setPort s i p).part = s.part ∧ (setPort s i p).pending = s.pending := by
  unfold setPort; constructor <;> simp only []

theorem kept_modPort (s : State) (i : Nat) (f : Port → Port) : (modPort s i f).part = s.part ∧ (modPort s i f).pending = s.pending := by
  unfold modPort; constructor <;> simp only [kept_setPort]

theorem kept_modSeal (s : State) (i : Nat) (f : SealSt → SealSt) : (modSeal s i f).part = s.part ∧ (modSeal s i f).pending = s.pending := by
  unfold modSeal; constructor <;> simp only []

theorem kept_setGrp (s : State) (g : Nat) (v : Option Grp) : (setGrp s g v).part = s.part ∧ (setGrp s g v).pending = s.pending := by
  unfold setGrp; constructor <;> simp only []

theorem kept_modZone (s : State) (z : Nat) (f : ZoneSt → ZoneSt) : (modZone s z f).part = s.part ∧ (modZone s z f).pending = s.pending := by
  unfold modZone; constructor <;> simp only []

theorem kept_modCurProg (s : State) (p : Nat) (f : Prog → Prog) : (modCurProg s p f).part = s.part ∧ (modCurProg s p f).pending = s.pending := by
  unfold modCurProg; constructor <;> (repeat' (first | with_reducible rfl | (simp only [kept_modPart]; done) | split))

theorem kept_emit (s : State) (o : Out) : (emit s o).part = s.part ∧ (emit s o).pending = s.pending := by
  unfold emit; constructor <;> simp only []

theorem kept_hostEmit (s : State) (fn : Nat) (o : Out) : (hostEmit s fn o).part = s.part ∧ (hostEmit s fn o).pending = s.pending := by
  unfold hostEmit; constructor <;> (repeat' (first | with_reducible rfl | (simp only [kept_emit]; done) | split))

theorem kept_hostWrite (s : State) (fn addr : Nat) (bs : List Byte) : (hostWrite s fn addr bs).part = s.part ∧ (hostWrite s fn addr bs).pending = s.pending := by
  unfold hostWrite; constructor <;> simp only [kept_hostEmit]

theorem kept_hostRelease (s : State) : (hostRelease s).part = s.part ∧ (hostRelease s).pending = s.pending := by
  unfold hostRelease; constructor <;> simp only []

theorem kept_modMsix (s : State) (v : Nat) (f : MsixEnt → MsixEnt) : (modMsix s v f).part = s.part ∧ (modMsix s v f).pending = s.pending := by
  unfold modMsix; constructor <;> simp only []

theorem kept_raiseVec (s : State) (v : Nat) : (raiseVec s v).part = s.part ∧ (raiseVec s v).pending = s.pending := by
  unfold raiseVec; constructor <;> (repeat' (first | with_reducible assumption | (simp only [kept_hostEmit, kept_modMsix]; done) | (simp only [kept_hostEmit, kept_modMsix, *]; done) | split | simp only [kept_hostEmit, kept_modMsix] | simp only [kept_hostEmit, kept_modMsix, *] | dsimp only))

theorem kept_raiseCause (s : State) (fn b : Nat) : (raiseCause s fn b).part = s.part ∧ (raiseCause s fn b).pending = s.pending := by
  unfold raiseCause; constructor <;> (repeat' (first | with_reducible assumption | (simp only [kept_setReg, kept_raiseVec]; done) | (simp only [kept_setReg, kept_raiseVec, *]; done) | split | simp only [kept_setReg, kept_raiseVec] | simp only [kept_setReg, kept_raiseVec, *] | dsimp only))

theorem kept_raiseBoth (s : State) (p b : Nat) : (raiseBoth s p b).part = s.part ∧ (raiseBoth s p b).pending = s.pending := by
  unfold raiseBoth; constructor <;> simp only [kept_raiseCause]

theorem kept_firstFault (s : State) (k code payload : Nat) : (firstFault s k code payload).part = s.part ∧ (firstFault s k code payload).pending = s.pending := by
  unfold firstFault; constructor <;> (repeat' (first | with_reducible rfl | (simp only [kept_setReg]; done) | split))

theorem kept_drainRing (a0 : Nat) (a1 : State) : (drainRing a0 a1).part = a1.part ∧ (drainRing a0 a1).pending = a1.pending := by
  induction a0 generalizing a1
  all_goals (unfold drainRing; constructor <;> (repeat' (first | with_reducible assumption | (simp only [kept_setReg, kept_hostWrite]; done) | (simp only [kept_setReg, kept_hostWrite, *]; done) | split | simp only [kept_setReg, kept_hostWrite] | simp only [kept_setReg, kept_hostWrite, *] | dsimp only)))

theorem kept_storeRec (s : State) (r0 : FaultRec) (toFlash : Bool) : (storeRec s r0 toFlash).part = s.part ∧ (storeRec s r0 toFlash).pending = s.pending := by
  unfold storeRec; constructor <;> (repeat' (first | with_reducible assumption | (simp only [kept_modReg, kept_raiseCause, kept_drainRing]; done) | (simp only [kept_modReg, kept_raiseCause, kept_drainRing, *]; done) | split | simp only [kept_modReg, kept_raiseCause, kept_drainRing] | simp only [kept_modReg, kept_raiseCause, kept_drainRing, *] | dsimp only))

theorem kept_log (s : State) (e : Ev) : (log s e).part = s.part ∧ (log s e).pending = s.pending := by
  unfold log; constructor <;> (repeat' (first | with_reducible rfl | (simp only [kept_setRegFld, kept_firstFault, kept_storeRec]; done) | split))

theorem kept_closeOpens (s : State) (p : OpenRec → Bool) : (closeOpens s p).part = s.part ∧ (closeOpens s p).pending = s.pending := by
  unfold closeOpens; constructor <;> (repeat' (first | with_reducible rfl | (simp only [kept_storeRec]; done) | split | (with_reducible refine foldl_part _ _ _ ?_; intros) | (with_reducible refine (foldl_part _ _ _ ?_).trans ?_; intros) | (with_reducible refine foldl_pending _ _ _ ?_; intros) | (with_reducible refine (foldl_pending _ _ _ ?_).trans ?_; intros)))

theorem kept_logMerged (s : State) (e : Ev) (interval : Nat) : (logMerged s e interval).part = s.part ∧ (logMerged s e interval).pending = s.pending := by
  unfold logMerged; constructor <;> (repeat' (first | with_reducible assumption | (simp only [kept_firstFault, kept_closeOpens]; done) | (simp only [kept_firstFault, kept_closeOpens, *]; done) | split | simp only [kept_firstFault, kept_closeOpens] | simp only [kept_firstFault, kept_closeOpens, *] | dsimp only))

theorem kept_measure (s : State) (typ src flags outcome part : Nat) (digA digB : List Byte) : (measure s typ src flags outcome part digA digB).part = s.part ∧ (measure s typ src flags outcome part digA digB).pending = s.pending := by
  unfold measure; constructor <;> simp only [kept_log]

theorem kept_freshWord (s : State) : (freshWord s).2.part = s.part ∧ (freshWord s).2.pending = s.pending := by
  unfold freshWord; constructor <;> simp only []

theorem kept_pushJob (s : State) (j : Job) : (pushJob s j).part = s.part ∧ (pushJob s j).pending = s.pending := by
  unfold pushJob; constructor <;> simp only []

theorem kept_modGpx (s : State) (i : Nat) (f : Gpx → Gpx) : (modGpx s i f).part = s.part ∧ (modGpx s i f).pending = s.pending := by
  unfold modGpx; constructor <;> simp only []

theorem kept_throttlePin (s : State) (on : Bool) : (throttlePin s on).part = s.part ∧ (throttlePin s on).pending = s.pending := by
  unfold throttlePin; constructor <;> (repeat' (first | with_reducible rfl | (simp only [kept_emit, kept_modGpx]; done) | split))

theorem kept_takeRes (s : State) (r value : Nat) : (takeRes s r value).part = s.part ∧ (takeRes s r value).pending = s.pending := by
  unfold takeRes; constructor <;> (repeat' (first | with_reducible rfl | (simp only [kept_modGpx, kept_throttlePin]; done) | split))

theorem kept_dropRes (s : State) (r : Nat) : (dropRes s r).part = s.part ∧ (dropRes s r).pending = s.pending := by
  unfold dropRes; constructor <;> (repeat' (first | with_reducible assumption | (simp only [kept_emit, kept_modGpx]; done) | (simp only [kept_emit, kept_modGpx, *]; done) | split | simp only [kept_emit, kept_modGpx] | simp only [kept_emit, kept_modGpx, *] | dsimp only))

theorem kept_resetOver (s : State) (scope target : Nat) : (resetOver s scope target).part = s.part ∧ (resetOver s scope target).pending = s.pending := by
  unfold resetOver; constructor <;> (repeat' (first | with_reducible rfl | (simp only [kept_setRegFld]; done) | split))

theorem kept_portRestart (s : State) (n : Nat) : (portRestart s n).part = s.part ∧ (portRestart s n).pending = s.pending := by
  unfold portRestart; constructor <;> simp only [kept_modPort]

theorem kept_eachPort (s : State) (f : State → Nat → State) (hf : ∀ y0 y1, (f y0 y1).part = y0.part ∧ (f y0 y1).pending = y0.pending) : (eachPort s f).part = s.part ∧ (eachPort s f).pending = s.pending := by
  unfold eachPort; constructor <;> (repeat' (first | with_reducible rfl | (simp only [hf]; done) | split | (with_reducible refine foldl_part _ _ _ ?_; intros) | (with_reducible refine (foldl_part _ _ _ ?_).trans ?_; intros) | (with_reducible refine foldl_pending _ _ _ ?_; intros) | (with_reducible refine (foldl_pending _ _ _ ?_).trans ?_; intros)))

/-! ## Record -/

theorem kept_recPut (s : State) (bs : List Byte) : (recPut s bs).part = s.part ∧ (recPut s bs).pending = s.pending := by
  unfold recPut; constructor <;> (repeat' (first | with_reducible assumption | (simp only [kept_setReg, kept_hostWrite]; done) | (simp only [kept_setReg, kept_hostWrite, *]; done) | split | simp only [kept_setReg, kept_hostWrite] | simp only [kept_setReg, kept_hostWrite, *] | dsimp only))

theorem kept_recStop (s : State) (code : Nat) : (recStop s code).part = s.part ∧ (recStop s code).pending = s.pending := by
  unfold recStop; constructor <;> (repeat' (first | with_reducible assumption | (simp only [kept_setRegFld, kept_log, kept_recPut]; done) | (simp only [kept_setRegFld, kept_log, kept_recPut, *]; done) | split | simp only [kept_setRegFld, kept_log, kept_recPut] | simp only [kept_setRegFld, kept_log, kept_recPut, *] | dsimp only))

theorem kept_recInput (s : State) (typ p src key : Nat) (pl : List Byte) : (recInput s typ p src key pl).part = s.part ∧ (recInput s typ p src key pl).pending = s.pending := by
  unfold recInput; constructor <;> (repeat' (first | with_reducible assumption | (simp only [kept_recPut, kept_recStop]; done) | (simp only [kept_recPut, kept_recStop, *]; done) | split | simp only [kept_recPut, kept_recStop] | simp only [kept_recPut, kept_recStop, *] | dsimp only))

theorem kept_traceEv (s : State) (c ev : Nat) (detail : Nat) : (traceEv s c ev detail).part = s.part ∧ (traceEv s c ev detail).pending = s.pending := by
  unfold traceEv; constructor <;> (repeat' (first | with_reducible rfl | (simp only []; done) | split))

/-! ## Stack -/

theorem kept_setPoison (s : State) (sector : Nat) (b : Bool) : (setPoison s sector b).part = s.part ∧ (setPoison s sector b).pending = s.pending := by
  unfold setPoison; constructor <;> simp only []

theorem kept_writePoison (s : State) (sa len : Nat) : (writePoison s sa len).part = s.part ∧ (writePoison s sa len).pending = s.pending := by
  unfold writePoison; constructor <;> (repeat' (first | with_reducible rfl | (simp only [kept_setPoison]; done) | split | (with_reducible refine foldl_part _ _ _ ?_; intros) | (with_reducible refine (foldl_part _ _ _ ?_).trans ?_; intros) | (with_reducible refine foldl_pending _ _ _ ?_; intros) | (with_reducible refine (foldl_pending _ _ _ ?_).trans ?_; intros)))

theorem kept_oweSlots (s : State) (col : Nat) (write : Bool) (p n : Nat) : (oweSlots s col write p n).part = s.part ∧ (oweSlots s col write p n).pending = s.pending := by
  unfold oweSlots; constructor <;> (repeat' (first | with_reducible rfl | (simp only []; done) | split))

theorem kept_chargeDir (s : State) (write : Bool) (p sa n : Nat) : (chargeDir s write p sa n).part = s.part ∧ (chargeDir s write p sa n).pending = s.pending := by
  unfold chargeDir; constructor <;> (repeat' (first | with_reducible rfl | (simp only [kept_oweSlots]; done) | split | (with_reducible refine foldl_part _ _ _ ?_; intros) | (with_reducible refine (foldl_part _ _ _ ?_).trans ?_; intros) | (with_reducible refine foldl_pending _ _ _ ?_; intros) | (with_reducible refine (foldl_pending _ _ _ ?_).trans ?_; intros)))

theorem kept_chargeRead (s : State) (p sa n : Nat) : (chargeRead s p sa n).part = s.part ∧ (chargeRead s p sa n).pending = s.pending := by
  unfold chargeRead; constructor <;> simp only [kept_chargeDir]

theorem kept_chargeWrite (s : State) (p sa n : Nat) : (chargeWrite s p sa n).part = s.part ∧ (chargeWrite s p sa n).pending = s.pending := by
  unfold chargeWrite; constructor <;> (repeat' (first | with_reducible rfl | (simp only [kept_oweSlots, kept_chargeDir]; done) | split | (with_reducible refine foldl_part _ _ _ ?_; intros) | (with_reducible refine (foldl_part _ _ _ ?_).trans ?_; intros) | (with_reducible refine foldl_pending _ _ _ ?_; intros) | (with_reducible refine (foldl_pending _ _ _ ?_).trans ?_; intros)))

theorem kept_logPartition (s : State) (w : Asker) (p sa : Nat) : (logPartition s w p sa).part = s.part ∧ (logPartition s w p sa).pending = s.pending := by
  unfold logPartition; constructor <;> simp only [kept_log]

theorem kept_eccEvent (s : State) (w : Asker) (p : Nat) (e : Ecc) : (eccEvent s w p e).part = s.part ∧ (eccEvent s w p e).pending = s.pending := by
  unfold eccEvent; constructor <;> (repeat' (first | with_reducible rfl | (simp only [kept_modReg, kept_modCol, kept_log, kept_logMerged, kept_setPoison]; done) | split))

theorem kept_latent (s : State) (e : Ecc) : (latent s e).part = s.part ∧ (latent s e).pending = s.pending := by
  unfold latent; constructor <;> (repeat' (first | with_reducible rfl | (simp only []; done) | split))

theorem kept_meetErrs (s : State) (w : Asker) (p : Nat) (ks : List Nat) : (meetErrs s w p ks).part = s.part ∧ (meetErrs s w p ks).pending = s.pending := by
  unfold meetErrs; constructor <;> (repeat' (first | with_reducible assumption | (simp only [kept_eccEvent]; done) | (simp only [kept_eccEvent, *]; done) | split | simp only [kept_eccEvent] | simp only [kept_eccEvent, *] | (with_reducible refine foldl_part _ _ _ ?_; intros) | (with_reducible refine (foldl_part _ _ _ ?_).trans ?_; intros) | (with_reducible refine foldl_pending _ _ _ ?_; intros) | (with_reducible refine (foldl_pending _ _ _ ?_).trans ?_; intros) | (with_reducible refine foldl2_part _ _ _ ?_; intros) | (with_reducible refine (foldl2_part _ _ _ ?_).trans ?_; intros) | (with_reducible refine foldl2_pending _ _ _ ?_; intros) | (with_reducible refine (foldl2_pending _ _ _ ?_).trans ?_; intros) | (with_reducible refine foldl3_part _ _ _ ?_; intros) | (with_reducible refine (foldl3_part _ _ _ ?_).trans ?_; intros) | (with_reducible refine foldl3_pending _ _ _ ?_; intros) | (with_reducible refine (foldl3_pending _ _ _ ?_).trans ?_; intros) | dsimp only))

theorem kept_dropErrs (s : State) (sa len : Nat) : (dropErrs s sa len).part = s.part ∧ (dropErrs s sa len).pending = s.pending := by
  unfold dropErrs; constructor <;> simp only []

theorem kept_setLine (s : State) (g : Nat) (l : Option Line) : (setLine s g l).part = s.part ∧ (setLine s g l).pending = s.pending := by
  unfold setLine; constructor <;> simp only []

theorem kept_rawWrite (s : State) (sa : Nat) (bs : List Byte) : (rawWrite s sa bs).part = s.part ∧ (rawWrite s sa bs).pending = s.pending := by
  unfold rawWrite; constructor <;> simp only []

theorem kept_lineBack (s : State) (g : Nat) : (lineBack s g).part = s.part ∧ (lineBack s g).pending = s.pending := by
  unfold lineBack; constructor <;> (repeat' (first | with_reducible rfl | (simp only [kept_chargeWrite, kept_setLine, kept_rawWrite]; done) | split))

theorem kept_lineIn (s : State) (p g : Nat) : (lineIn s p g).part = s.part ∧ (lineIn s p g).pending = s.pending := by
  unfold lineIn; constructor <;> (repeat' (first | with_reducible assumption | (simp only [kept_modReg, kept_chargeRead, kept_meetErrs, kept_setLine, kept_lineBack]; done) | (simp only [kept_modReg, kept_chargeRead, kept_meetErrs, kept_setLine, kept_lineBack, *]; done) | split | simp only [kept_modReg, kept_chargeRead, kept_meetErrs, kept_setLine, kept_lineBack] | simp only [kept_modReg, kept_chargeRead, kept_meetErrs, kept_setLine, kept_lineBack, *] | dsimp only))

theorem kept_cacheWrite (s : State) (sa : Nat) (bs : List Byte) : (cacheWrite s sa bs).part = s.part ∧ (cacheWrite s sa bs).pending = s.pending := by
  unfold cacheWrite; constructor <;> (repeat' (first | with_reducible assumption | (simp only [kept_setLine]; done) | (simp only [kept_setLine, *]; done) | split | simp only [kept_setLine] | simp only [kept_setLine, *] | (with_reducible refine foldl_part _ _ _ ?_; intros) | (with_reducible refine (foldl_part _ _ _ ?_).trans ?_; intros) | (with_reducible refine foldl_pending _ _ _ ?_; intros) | (with_reducible refine (foldl_pending _ _ _ ?_).trans ?_; intros) | (with_reducible refine foldl2_part _ _ _ ?_; intros) | (with_reducible refine (foldl2_part _ _ _ ?_).trans ?_; intros) | (with_reducible refine foldl2_pending _ _ _ ?_; intros) | (with_reducible refine (foldl2_pending _ _ _ ?_).trans ?_; intros) | (with_reducible refine foldl3_part _ _ _ ?_; intros) | (with_reducible refine (foldl3_part _ _ _ ?_).trans ?_; intros) | (with_reducible refine foldl3_pending _ _ _ ?_; intros) | (with_reducible refine (foldl3_pending _ _ _ ?_).trans ?_; intros) | dsimp only))

theorem kept_saRead (s : State) (w : Asker) (p sa n : Nat) : (saRead s w p sa n).2.2.part = s.part ∧ (saRead s w p sa n).2.2.pending = s.pending := by
  unfold saRead; constructor <;> (repeat' (first | with_reducible rfl | (simp only [kept_chargeRead, kept_meetErrs, kept_lineIn]; done) | split | (with_reducible refine foldl_part _ _ _ ?_; intros) | (with_reducible refine (foldl_part _ _ _ ?_).trans ?_; intros) | (with_reducible refine foldl_pending _ _ _ ?_; intros) | (with_reducible refine (foldl_pending _ _ _ ?_).trans ?_; intros)))

theorem kept_saWrite (s : State) (w : Asker) (p sa : Nat) (bs : List Byte) : (saWrite s w p sa bs).part = s.part ∧ (saWrite s w p sa bs).pending = s.pending := by
  unfold saWrite; constructor <;> (repeat' (first | with_reducible assumption | (simp only [kept_writePoison, kept_chargeWrite, kept_meetErrs, kept_dropErrs, kept_rawWrite, kept_lineIn, kept_cacheWrite]; done) | (simp only [kept_writePoison, kept_chargeWrite, kept_meetErrs, kept_dropErrs, kept_rawWrite, kept_lineIn, kept_cacheWrite, *]; done) | split | simp only [kept_writePoison, kept_chargeWrite, kept_meetErrs, kept_dropErrs, kept_rawWrite, kept_lineIn, kept_cacheWrite] | simp only [kept_writePoison, kept_chargeWrite, kept_meetErrs, kept_dropErrs, kept_rawWrite, kept_lineIn, kept_cacheWrite, *] | (with_reducible refine foldl_part _ _ _ ?_; intros) | (with_reducible refine (foldl_part _ _ _ ?_).trans ?_; intros) | (with_reducible refine foldl_pending _ _ _ ?_; intros) | (with_reducible refine (foldl_pending _ _ _ ?_).trans ?_; intros) | (with_reducible refine foldl2_part _ _ _ ?_; intros) | (with_reducible refine (foldl2_part _ _ _ ?_).trans ?_; intros) | (with_reducible refine foldl2_pending _ _ _ ?_; intros) | (with_reducible refine (foldl2_pending _ _ _ ?_).trans ?_; intros) | (with_reducible refine foldl3_part _ _ _ ?_; intros) | (with_reducible refine (foldl3_part _ _ _ ?_).trans ?_; intros) | (with_reducible refine foldl3_pending _ _ _ ?_; intros) | (with_reducible refine (foldl3_pending _ _ _ ?_).trans ?_; intros) | dsimp only))

theorem kept_relReadBy (w : Asker) (s : State) (p off n : Nat) : (relReadBy w s p off n).2.2.part = s.part ∧ (relReadBy w s p off n).2.2.pending = s.pending := by
  unfold relReadBy; constructor <;> (repeat' (first | with_reducible rfl | (simp only [kept_logPartition, kept_saRead]; done) | split))

theorem kept_relWriteBy (w : Asker) (s : State) (p off : Nat) (bs : List Byte) : (relWriteBy w s p off bs).part = s.part ∧ (relWriteBy w s p off bs).pending = s.pending := by
  unfold relWriteBy; constructor <;> (repeat' (first | with_reducible rfl | (simp only [kept_logPartition, kept_saWrite]; done) | split))

theorem kept_relRead (s : State) (p off n : Nat) : (relRead s p off n).2.2.part = s.part ∧ (relRead s p off n).2.2.pending = s.pending := by
  unfold relRead; constructor <;> (repeat' (first | with_reducible rfl | (simp only [kept_relReadBy]; done) | split))

theorem kept_relWrite (s : State) (p off : Nat) (bs : List Byte) : (relWrite s p off bs).part = s.part ∧ (relWrite s p off bs).pending = s.pending := by
  unfold relWrite; constructor <;> (repeat' (first | with_reducible rfl | (simp only [kept_relWriteBy]; done) | split))

theorem kept_relTouch (s : State) (p off n : Nat) : (relTouch s p off n).part = s.part ∧ (relTouch s p off n).pending = s.pending := by
  unfold relTouch; constructor <;> simp only [kept_relRead]

theorem kept_zeroAreas (s : State) (p : Nat) (as : List (Nat × Nat)) : (zeroAreas s p as).part = s.part ∧ (zeroAreas s p as).pending = s.pending := by
  unfold zeroAreas; constructor <;> (repeat' (first | with_reducible assumption | (simp only [kept_log, kept_chargeDir]; done) | (simp only [kept_log, kept_chargeDir, *]; done) | split | simp only [kept_log, kept_chargeDir] | simp only [kept_log, kept_chargeDir, *] | (with_reducible refine foldl_part _ _ _ ?_; intros) | (with_reducible refine (foldl_part _ _ _ ?_).trans ?_; intros) | (with_reducible refine foldl_pending _ _ _ ?_; intros) | (with_reducible refine (foldl_pending _ _ _ ?_).trans ?_; intros) | (with_reducible refine foldl2_part _ _ _ ?_; intros) | (with_reducible refine (foldl2_part _ _ _ ?_).trans ?_; intros) | (with_reducible refine foldl2_pending _ _ _ ?_; intros) | (with_reducible refine (foldl2_pending _ _ _ ?_).trans ?_; intros) | (with_reducible refine foldl3_part _ _ _ ?_; intros) | (with_reducible refine (foldl3_part _ _ _ ?_).trans ?_; intros) | (with_reducible refine foldl3_pending _ _ _ ?_; intros) | (with_reducible refine (foldl3_pending _ _ _ ?_).trans ?_; intros) | dsimp only))

/-! ## FabOps -/

theorem kept_modVc (s : State) (n v : Nat) (f : Vc → Vc) : (modVc s n v f).part = s.part ∧ (modVc s n v f).pending = s.pending := by
  unfold modVc; constructor <;> simp only [kept_modPort]

theorem kept_took (s : State) (n v : Nat) : (took s n v).part = s.part ∧ (took s n v).pending = s.pending := by
  unfold took; constructor <;> simp only [kept_modPort]

theorem kept_sendWire (s : State) (n : Nat) (header : Nat → BitVec 80) (data : List Byte) : (sendWire s n header data).part = s.part ∧ (sendWire s n header data).pending = s.pending := by
  unfold sendWire; constructor <;> simp only [kept_modPort, kept_emit]

theorem kept_countUnit (s : State) (n : Nat) (fec : Nat × Nat) : (countUnit s n fec).part = s.part ∧ (countUnit s n fec).pending = s.pending := by
  unfold countUnit; constructor <;> simp only [kept_modReg, kept_modPort]

theorem kept_wireOnce (s : State) (n : Nat) (m : Msg) : (wireOnce s n m).part = s.part ∧ (wireOnce s n m).pending = s.pending := by
  unfold wireOnce; constructor <;> (repeat' (first | with_reducible rfl | (simp only [kept_modPort, kept_emit, kept_sendWire]; done) | split))

theorem kept_wirePut (s : State) (n v : Nat) (m : Msg) : (wirePut s n v m).part = s.part ∧ (wirePut s n v m).pending = s.pending := by
  unfold wirePut; constructor <;> (repeat' (first | with_reducible rfl | (simp only [kept_wireOnce]; done) | split))

theorem kept_vcPump (a0 : Nat) (a1 : State) (a2 : Nat) (a3 : Nat) : (vcPump a0 a1 a2 a3).part = a1.part ∧ (vcPump a0 a1 a2 a3).pending = a1.pending := by
  induction a0 generalizing a1 a2 a3
  all_goals (unfold vcPump; constructor <;> (repeat' (first | with_reducible assumption | (simp only [kept_modVc, kept_wirePut]; done) | (simp only [kept_modVc, kept_wirePut, *]; done) | split | simp only [kept_modVc, kept_wirePut] | simp only [kept_modVc, kept_wirePut, *] | dsimp only)))

theorem kept_portPump (s : State) (n : Nat) : (portPump s n).part = s.part ∧ (portPump s n).pending = s.pending := by
  unfold portPump; constructor <;> (repeat' (first | with_reducible rfl | (simp only [kept_vcPump]; done) | split | (with_reducible refine foldl_part _ _ _ ?_; intros) | (with_reducible refine (foldl_part _ _ _ ?_).trans ?_; intros) | (with_reducible refine foldl_pending _ _ _ ?_; intros) | (with_reducible refine (foldl_pending _ _ _ ?_).trans ?_; intros)))

theorem kept_portTx (s : State) (n v : Nat) (m : Msg) : (portTx s n v m).part = s.part ∧ (portTx s n v m).pending = s.pending := by
  unfold portTx; constructor <;> (repeat' (first | with_reducible rfl | (simp only [kept_modVc, kept_vcPump]; done) | split))

theorem kept_fabPass (s : State) (v : Nat) (lastDim : Option Nat) (m : Msg) : (fabPass s v lastDim m).part = s.part ∧ (fabPass s v lastDim m).pending = s.pending := by
  unfold fabPass; constructor <;> (repeat' (first | with_reducible rfl | (simp only [kept_portTx]; done) | split))

theorem kept_fabSend (s : State) (m : Msg) : (fabSend s m).part = s.part ∧ (fabSend s m).pending = s.pending := by
  unfold fabSend; constructor <;> (repeat' (first | with_reducible rfl | (simp only [kept_fabPass]; done) | split))

theorem kept_hopIn (s : State) (n v dst : Nat) (m : Msg) : (hopIn s n v dst m).1.part = s.part ∧ (hopIn s n v dst m).1.pending = s.pending := by
  unfold hopIn; constructor <;> (repeat' (first | with_reducible rfl | (simp only [kept_took, kept_fabPass]; done) | split))

theorem kept_hopBack (s : State) (n : Nat) (m : Msg) : (hopBack s n m).part = s.part ∧ (hopBack s n m).pending = s.pending := by
  unfold hopBack; constructor <;> (repeat' (first | with_reducible assumption | (simp only [kept_portTx]; done) | (simp only [kept_portTx, *]; done) | split | simp only [kept_portTx] | simp only [kept_portTx, *] | dsimp only))

theorem kept_fabFlood (s : State) (except : Option Nat) (m : Msg) : (fabFlood s except m).part = s.part ∧ (fabFlood s except m).pending = s.pending := by
  unfold fabFlood; constructor <;> (repeat' (first | with_reducible rfl | (simp only [kept_portTx]; done) | (with_reducible refine (kept_eachPort _ _ ?_).1.trans ?_ <;> intros) | (with_reducible refine (kept_eachPort _ _ ?_).2.trans ?_ <;> intros) | (with_reducible refine (kept_eachPort _ _ ?_).1 <;> intros) | (with_reducible refine (kept_eachPort _ _ ?_).2 <;> intros) | (refine ⟨?_, ?_⟩) | split | (with_reducible refine foldl_part _ _ _ ?_; intros) | (with_reducible refine (foldl_part _ _ _ ?_).trans ?_; intros) | (with_reducible refine foldl_pending _ _ _ ?_; intros) | (with_reducible refine (foldl_pending _ _ _ ?_).trans ?_; intros)))

theorem kept_ctrlSend (s : State) (n : Nat) (nak : Option (Nat × Nat)) : (ctrlSend s n nak).part = s.part ∧ (ctrlSend s n nak).pending = s.pending := by
  unfold ctrlSend; constructor <;> (repeat' (first | with_reducible assumption | (simp only [kept_modPort, kept_modVc, kept_sendWire]; done) | (simp only [kept_modPort, kept_modVc, kept_sendWire, *]; done) | split | simp only [kept_modPort, kept_modVc, kept_sendWire] | simp only [kept_modPort, kept_modVc, kept_sendWire, *] | (with_reducible refine foldl_part _ _ _ ?_; intros) | (with_reducible refine (foldl_part _ _ _ ?_).trans ?_; intros) | (with_reducible refine foldl_pending _ _ _ ?_; intros) | (with_reducible refine (foldl_pending _ _ _ ?_).trans ?_; intros) | (with_reducible refine foldl2_part _ _ _ ?_; intros) | (with_reducible refine (foldl2_part _ _ _ ?_).trans ?_; intros) | (with_reducible refine foldl2_pending _ _ _ ?_; intros) | (with_reducible refine (foldl2_pending _ _ _ ?_).trans ?_; intros) | (with_reducible refine foldl3_part _ _ _ ?_; intros) | (with_reducible refine (foldl3_part _ _ _ ?_).trans ?_; intros) | (with_reducible refine foldl3_pending _ _ _ ?_; intros) | (with_reducible refine (foldl3_pending _ _ _ ?_).trans ?_; intros) | dsimp only))

theorem kept_fabLog (s : State) (code port : Nat) : (fabLog s code port).part = s.part ∧ (fabLog s code port).pending = s.pending := by
  unfold fabLog; constructor <;> simp only [kept_log]

theorem kept_holdSlots (s : State) (n k : Nat) (m : AdmMsg) (fromPort : Option Nat) : (holdSlots s n k m fromPort).part = s.part ∧ (holdSlots s n k m fromPort).pending = s.pending := by
  unfold holdSlots; constructor <;> simp only [kept_modPort]

theorem kept_dropHold (s : State) (h : Nat × Hold) : (dropHold s h).part = s.part ∧ (dropHold s h).pending = s.pending := by
  unfold dropHold; constructor <;> simp only [kept_modPort]

theorem kept_admitStatus (s : State) (code hop reason : Nat) : (admitStatus s code hop reason).part = s.part ∧ (admitStatus s code hop reason).pending = s.pending := by
  unfold admitStatus; constructor <;> simp only [kept_setReg]

/-! ## StmOps -/

theorem kept_tableSet (s : State) (idx : Nat) (e : StrEnt) : (tableSet s idx e).part = s.part ∧ (tableSet s idx e).pending = s.pending := by
  unfold tableSet; constructor <;> (repeat' (first | with_reducible rfl | (simp only [kept_hostWrite, kept_relWrite]; done) | split))

theorem kept_setCtx (s : State) (idx : Nat) (c : Option Ctx) : (setCtx s idx c).part = s.part ∧ (setCtx s idx c).pending = s.pending := by
  unfold setCtx; constructor <;> simp only []

theorem kept_modEntry (s : State) (idx : Nat) (f : StrEnt → StrEnt) : (modEntry s idx f).part = s.part ∧ (modEntry s idx f).pending = s.pending := by
  unfold modEntry; constructor <;> (repeat' (first | with_reducible rfl | (simp only [kept_tableSet, kept_setCtx]; done) | split))

theorem kept_setPending (s : State) (idx : Nat) (b : Bool) : (setPending s idx b).part = s.part ∧ (setPending s idx b).pending = s.pending := by
  unfold setPending; constructor <;> simp only []

theorem kept_tableTouch (s : State) (idx : Nat) : (tableTouch s idx).part = s.part ∧ (tableTouch s idx).pending = s.pending := by
  unfold tableTouch; constructor <;> (repeat' (first | with_reducible rfl | (simp only [kept_relTouch]; done) | split))

theorem kept_ctxPut (s : State) (idx : Nat) (e : StrEnt) : (ctxPut s idx e).part = s.part ∧ (ctxPut s idx e).pending = s.pending := by
  unfold ctxPut; constructor <;> simp only [kept_setCtx, kept_setPending, kept_tableTouch]

theorem kept_ctxDrop (s : State) (idx : Nat) : (ctxDrop s idx).part = s.part ∧ (ctxDrop s idx).pending = s.pending := by
  unfold ctxDrop; constructor <;> (repeat' (first | with_reducible assumption | (simp only [kept_setCtx, kept_ctxPut]; done) | (simp only [kept_setCtx, kept_ctxPut, *]; done) | split | simp only [kept_setCtx, kept_ctxPut] | simp only [kept_setCtx, kept_ctxPut, *] | dsimp only))

theorem kept_ctxEvict (s : State) (idx : Nat) : (ctxEvict s idx).part = s.part ∧ (ctxEvict s idx).pending = s.pending := by
  unfold ctxEvict; constructor <;> (repeat' (first | with_reducible rfl | (simp only [kept_tableSet, kept_setCtx, kept_ctxDrop]; done) | split))

theorem kept_ctxRoom (a0 : Nat) (a1 : State) : ∀ t, ctxRoom a0 a1 = some t → t.part = a1.part ∧ t.pending = a1.pending := by
  induction a0 generalizing a1 with
  | zero => intro t h; cases h
  | succ n ih =>
    intro t h; unfold ctxRoom at h
    repeat' split at h
    all_goals first
      | (cases h; done)
      | (cases h; exact ⟨rfl, rfl⟩)
      | (have hk := ih _ _ h; simp only [hk, kept_ctxDrop, and_self])

theorem kept_ctxUse (s : State) (idx : Nat) : ∀ t, ctxUse s idx = some t → t.part = s.part ∧ t.pending = s.pending := by
  intro t h; unfold ctxUse at h
  split at h
  · rw [← Option.some.inj h]; simp only [kept_setCtx, and_self]
  · obtain ⟨s1, h1, h2⟩ := Option.map_eq_some_iff.mp h
    have hk := kept_ctxRoom _ _ _ h1
    rw [← h2]; split <;> simp only [kept_ctxPut, hk, and_self]

theorem kept_ctxWant (s : State) : (ctxWant s).part = s.part ∧ (ctxWant s).pending = s.pending := by
  unfold ctxWant; constructor <;> (repeat' (first | with_reducible rfl | (simp only [kept_ctxEvict]; done) | split))

theorem kept_ctxNow (s : State) (idx : Nat) : (ctxNow s idx).part = s.part ∧ (ctxNow s idx).pending = s.pending := by
  unfold ctxNow; constructor <;> (repeat' (first | with_reducible rfl | (simp only [kept_ctxDrop, kept_ctxEvict]; done) | (have hk := kept_ctxUse _ _ _ (by assumption); simp only [hk, kept_ctxDrop, kept_ctxEvict]; done) | split))

theorem kept_stmLog (s : State) (code src idx : Nat) : (stmLog s code src idx).part = s.part ∧ (stmLog s code src idx).pending = s.pending := by
  unfold stmLog; constructor <;> simp only [kept_log]

theorem kept_fabStream (s : State) (code : Nat) (port : Option Nat) (idx : Nat) : (fabStream s code port idx).part = s.part ∧ (fabStream s code port idx).pending = s.pending := by
  unfold fabStream; constructor <;> simp only [kept_log]

theorem kept_raiseBehind (s : State) (fn v : Nat) : (raiseBehind s fn v).part = s.part ∧ (raiseBehind s fn v).pending = s.pending := by
  unfold raiseBehind; constructor <;> (repeat' (first | with_reducible assumption | (simp only [kept_raiseVec]; done) | (simp only [kept_raiseVec, *]; done) | split | simp only [kept_raiseVec] | simp only [kept_raiseVec, *] | dsimp only))

theorem kept_raiseStream (s : State) (fn vec : Nat) : (raiseStream s fn vec).part = s.part ∧ (raiseStream s fn vec).pending = s.pending := by
  unfold raiseStream; constructor <;> (repeat' (first | with_reducible rfl | (simp only [kept_modMsix, kept_raiseBehind]; done) | split))

theorem kept_complPut (s : State) (idx i status bytes tag time : Nat) (int : Bool) : (complPut s idx i status bytes tag time int).part = s.part ∧ (complPut s idx i status bytes tag time int).pending = s.pending := by
  unfold complPut; constructor <;> (repeat' (first | with_reducible assumption | (simp only [kept_hostWrite, kept_relWrite, kept_raiseStream]; done) | (simp only [kept_hostWrite, kept_relWrite, kept_raiseStream, *]; done) | split | simp only [kept_hostWrite, kept_relWrite, kept_raiseStream] | simp only [kept_hostWrite, kept_relWrite, kept_raiseStream, *] | dsimp only))

theorem kept_genSwitch (s : State) (idx : Nat) : (genSwitch s idx).part = s.part ∧ (genSwitch s idx).pending = s.pending := by
  unfold genSwitch; constructor <;> (repeat' (first | with_reducible assumption | (simp only [kept_modRt, kept_modEntry, kept_stmLog, kept_raiseStream, kept_complPut]; done) | (simp only [kept_modRt, kept_modEntry, kept_stmLog, kept_raiseStream, kept_complPut, *]; done) | split | simp only [kept_modRt, kept_modEntry, kept_stmLog, kept_raiseStream, kept_complPut] | simp only [kept_modRt, kept_modEntry, kept_stmLog, kept_raiseStream, kept_complPut, *] | dsimp only))

theorem kept_complLog (s : State) (idx : Nat) (f : Flight) : (complLog s idx f).part = s.part ∧ (complLog s idx f).pending = s.pending := by
  unfold complLog; constructor <;> (repeat' (first | with_reducible rfl | (simp only [kept_log]; done) | split))

theorem kept_complOne (s : State) (idx : Nat) (f : Flight) : (complOne s idx f).part = s.part ∧ (complOne s idx f).pending = s.pending := by
  unfold complOne; constructor <;> simp only [kept_modRt, kept_modEntry, kept_complPut, kept_genSwitch, kept_complLog]

theorem kept_complMerge (s : State) (idx : Nat) (fs : List Flight) : (complMerge s idx fs).part = s.part ∧ (complMerge s idx fs).pending = s.pending := by
  unfold complMerge; constructor <;> (repeat' (first | with_reducible assumption | (simp only [kept_modReg]; done) | (simp only [kept_modReg, *]; done) | split | simp only [kept_modReg] | simp only [kept_modReg, *] | dsimp only))

theorem kept_complAll (a0 : Nat) (a1 : State) (a2 : Nat) : (complAll a0 a1 a2).part = a1.part ∧ (complAll a0 a1 a2).pending = a1.pending := by
  induction a0 generalizing a1 a2
  all_goals (unfold complAll; constructor <;> (repeat' (first | with_reducible assumption | (simp only [kept_complOne, kept_complMerge]; done) | (simp only [kept_complOne, kept_complMerge, *]; done) | split | simp only [kept_complOne, kept_complMerge] | simp only [kept_complOne, kept_complMerge, *] | dsimp only)))

theorem kept_jrnWrite (s : State) (idx : Nat) : (jrnWrite s idx).part = s.part ∧ (jrnWrite s idx).pending = s.pending := by
  unfold jrnWrite; constructor <;> (repeat' (first | with_reducible assumption | (simp only [kept_modRt, kept_relWrite]; done) | (simp only [kept_modRt, kept_relWrite, *]; done) | split | simp only [kept_modRt, kept_relWrite] | simp only [kept_modRt, kept_relWrite, *] | dsimp only))

theorem kept_finished (s : State) (idx : Nat) : (finished s idx).part = s.part ∧ (finished s idx).pending = s.pending := by
  unfold finished; constructor <;> (repeat' (first | with_reducible rfl | (simp only [kept_complAll, kept_jrnWrite]; done) | split))

theorem kept_modFlight (s : State) (idx i : Nat) (f : Flight → Flight) : (modFlight s idx i f).part = s.part ∧ (modFlight s idx i f).pending = s.pending := by
  unfold modFlight; constructor <;> simp only [kept_modRt]

theorem kept_flightEnd (s : State) (idx i status bytes : Nat) : (flightEnd s idx i status bytes).part = s.part ∧ (flightEnd s idx i status bytes).pending = s.pending := by
  unfold flightEnd; constructor <;> simp only [kept_finished, kept_modFlight]

theorem kept_acceptDesc (s : State) (idx : Nat) (f : Flight) : (acceptDesc s idx f).part = s.part ∧ (acceptDesc s idx f).pending = s.pending := by
  unfold acceptDesc; constructor <;> (repeat' (first | with_reducible rfl | (simp only [kept_modRt, kept_modEntry, kept_jrnWrite]; done) | split))

theorem kept_bufRead (s : State) (p a n : Nat) : (bufRead s p a n).2.2.part = s.part ∧ (bufRead s p a n).2.2.pending = s.pending := by
  unfold bufRead; constructor <;> (repeat' (first | with_reducible assumption | (simp only [kept_relRead]; done) | (simp only [kept_relRead, *]; done) | split | simp only [kept_relRead] | simp only [kept_relRead, *] | dsimp only))

/-! ## Stash -/

theorem kept_stashProduce (s : State) (p i : Nat) (g : Prog) (blocks : List Nat) : (stashProduce s p i g blocks).part = s.part ∧ (stashProduce s p i g blocks).pending = s.pending := by
  unfold stashProduce; constructor <;> (repeat' (first | with_reducible assumption | (simp only [kept_hostWrite, kept_relWrite, kept_modEntry, kept_ctxNow, kept_flightEnd, kept_acceptDesc]; done) | (simp only [kept_hostWrite, kept_relWrite, kept_modEntry, kept_ctxNow, kept_flightEnd, kept_acceptDesc, *]; done) | split | simp only [kept_hostWrite, kept_relWrite, kept_modEntry, kept_ctxNow, kept_flightEnd, kept_acceptDesc] | simp only [kept_hostWrite, kept_relWrite, kept_modEntry, kept_ctxNow, kept_flightEnd, kept_acceptDesc, *] | dsimp only))

theorem kept_stashFinish (s : State) (p i : Nat) : (stashFinish s p i).part = s.part ∧ (stashFinish s p i).pending = s.pending := by
  unfold stashFinish; constructor <;> (repeat' (first | with_reducible rfl | (simp only [kept_flightEnd]; done) | split))

theorem kept_stashReserve (s : State) (p i n : Nat) (g : Prog) : ∀ t, stashReserve s p i n g = some t → t.part = s.part ∧ t.pending = s.pending := by
  intro t h; unfold stashReserve at h; dsimp only at h; repeat' (split at h)
  all_goals first | (cases h; done) | (rw [← Option.some.inj h]; try (constructor <;> simp only [kept_modStep, kept_stashProduce]))

theorem kept_stashRelease (s : State) (p i : Nat) : (stashRelease s p i).part = s.part ∧ (stashRelease s p i).pending = s.pending := by
  unfold stashRelease; constructor <;> (repeat' (first | with_reducible rfl | (simp only [kept_modStep, kept_stashFinish]; done) | split))

theorem kept_stashClear (s : State) (p : Nat) : (stashClear s p).part = s.part ∧ (stashClear s p).pending = s.pending := by
  unfold stashClear; constructor <;> (repeat' (first | with_reducible rfl | (simp only [kept_stashRelease]; done) | split | (with_reducible refine foldl_part _ _ _ ?_; intros) | (with_reducible refine (foldl_part _ _ _ ?_).trans ?_; intros) | (with_reducible refine foldl_pending _ _ _ ?_; intros) | (with_reducible refine (foldl_pending _ _ _ ?_).trans ?_; intros)))

/-! ## CoreOps -/

theorem kept_retire (s : State) (c : Nat) (u : UnitId) : (retire s c u).part = s.part ∧ (retire s c u).pending = s.pending := by
  unfold retire; constructor <;> simp only [kept_modCore]

theorem kept_hold (s : State) (c cause : Nat) : (hold s c cause).part = s.part ∧ (hold s c cause).pending = s.pending := by
  unfold hold; constructor <;> simp only [kept_modReg, kept_modCore, kept_traceEv]

theorem kept_writeStatus (s : State) (p outcome : Nat) : (writeStatus s p outcome).part = s.part ∧ (writeStatus s p outcome).pending = s.pending := by
  unfold writeStatus; constructor <;> (repeat' (first | with_reducible rfl | (simp only [kept_relWrite]; done) | split))

theorem kept_betweenNow (s : State) (p : Nat) : (betweenNow s p).part = s.part ∧ (betweenNow s p).pending = s.pending := by
  unfold betweenNow; constructor <;> simp only [kept_modPart]

theorem kept_abortStep (s : State) (p code slot : Nat) : (abortStep s p code slot).part = s.part ∧ (abortStep s p code slot).pending = s.pending := by
  unfold abortStep; constructor <;> (repeat' (first | with_reducible assumption | (simp only [kept_modStep, kept_stashClear, kept_writeStatus, kept_betweenNow]; done) | (simp only [kept_modStep, kept_stashClear, kept_writeStatus, kept_betweenNow, *]; done) | split | simp only [kept_modStep, kept_stashClear, kept_writeStatus, kept_betweenNow] | simp only [kept_modStep, kept_stashClear, kept_writeStatus, kept_betweenNow, *] | dsimp only))

theorem kept_touchColumn (s : State) (p sa len : Nat) : (touchColumn s p sa len).part = s.part ∧ (touchColumn s p sa len).pending = s.pending := by
  unfold touchColumn; constructor <;> (repeat' (first | with_reducible rfl | (simp only [kept_abortStep]; done) | split))

theorem kept_touchRel (s : State) (p off len : Nat) : (touchRel s p off len).part = s.part ∧ (touchRel s p off len).pending = s.pending := by
  unfold touchRel; constructor <;> (repeat' (first | with_reducible rfl | (simp only [kept_touchColumn]; done) | split))

theorem kept_coreFaultB (s : State) (c : Nat) (u : UnitId) (bundle code : Nat) (at' : Option FaultAt) : (coreFaultB s c u bundle code at').part = s.part ∧ (coreFaultB s c u bundle code at').pending = s.pending := by
  unfold coreFaultB; constructor <;> (repeat' (first | with_reducible assumption | (simp only [kept_modCore, kept_firstFault, kept_log, kept_traceEv, kept_abortStep]; done) | (simp only [kept_modCore, kept_firstFault, kept_log, kept_traceEv, kept_abortStep, *]; done) | split | simp only [kept_modCore, kept_firstFault, kept_log, kept_traceEv, kept_abortStep] | simp only [kept_modCore, kept_firstFault, kept_log, kept_traceEv, kept_abortStep, *] | dsimp only))

theorem kept_coreFaultAt (s : State) (c : Nat) (u : UnitId) (code : Nat) (at' : Option FaultAt) : (coreFaultAt s c u code at').part = s.part ∧ (coreFaultAt s c u code at').pending = s.pending := by
  unfold coreFaultAt; constructor <;> simp only [kept_coreFaultB]

theorem kept_coreFault (s : State) (c : Nat) (u : UnitId) (code : Nat) : (coreFault s c u code).part = s.part ∧ (coreFault s c u code).pending = s.pending := by
  unfold coreFault; constructor <;> simp only [kept_coreFaultAt]

theorem kept_trapIf (s : State) (c : Nat) (u : UnitId) (b : Nat) (flags : List Bool) : (trapIf s c u b flags).part = s.part ∧ (trapIf s c u b flags).pending = s.pending := by
  unfold trapIf; constructor <;> (repeat' (first | with_reducible rfl | (simp only [kept_coreFaultB]; done) | split))

theorem kept_gradStats (s : State) (p : Nat) (layer : Option Nat) (rows : List (List Num)) : (gradStats s p layer rows).part = s.part ∧ (gradStats s p layer rows).pending = s.pending := by
  unfold gradStats; constructor <;> (repeat' (first | with_reducible rfl | (simp only [kept_modStep, kept_relWrite, kept_relTouch]; done) | split | (with_reducible refine foldl_part _ _ _ ?_; intros) | (with_reducible refine (foldl_part _ _ _ ?_).trans ?_; intros) | (with_reducible refine foldl_pending _ _ _ ?_; intros) | (with_reducible refine (foldl_pending _ _ _ ?_).trans ?_; intros)))

theorem kept_meshGo (s : State) (c : Nat) (pk : Packet) (m : MeshReq) : ∀ t, meshGo s c pk m = some t → t.part = s.part ∧ t.pending = s.pending := by
  intro t h; unfold meshGo at h
  split at h
  · obtain ⟨_, _, rfl⟩ := Option.map_eq_some_iff.mp h
    exact ⟨rfl, rfl⟩
  · cases h

theorem kept_meshSend (s : State) (c : Nat) (pk : Packet) (m : MeshReq) : (meshSend s c pk m).part = s.part ∧ (meshSend s c pk m).pending = s.pending := by
  unfold meshSend
  split
  · rename_i h
    split at h
    · cases h
    · exact kept_meshGo _ _ _ _ _ h
  · simp only [kept_modCore, and_self]

theorem kept_meshPump (a0 : Nat) (a1 : State) (a2 : Nat) : (meshPump a0 a1 a2).part = a1.part ∧ (meshPump a0 a1 a2).pending = a1.pending := by
  induction a0 generalizing a1 a2
  all_goals (unfold meshPump; constructor <;> (repeat' (first | with_reducible assumption | (simp only [kept_modCore]; done) | (simp only [kept_modCore, *]; done) | (have hk := kept_meshGo _ _ _ _ _ (by assumption); simp only [hk, kept_modCore]; done) | split | simp only [kept_modCore] | simp only [kept_modCore, *] | dsimp only)))

theorem kept_meshFree (s : State) (c tag : Nat) : (meshFree s c tag).part = s.part ∧ (meshFree s c tag).pending = s.pending := by
  unfold meshFree; constructor <;> (repeat' (first | with_reducible assumption | (simp only [kept_meshPump]; done) | (simp only [kept_meshPump, *]; done) | split | simp only [kept_meshPump] | simp only [kept_meshPump, *] | dsimp only))

theorem kept_meshTaken (s : State) (pk : Packet) : (meshTaken s pk).part = s.part ∧ (meshTaken s pk).pending = s.pending := by
  unfold meshTaken; constructor <;> (repeat' (first | with_reducible rfl | (simp only [kept_meshPump]; done) | split))

theorem kept_sendReads (s : State) (c q id : Nat) (a0 : List (Nat × Nat)) (a1 : Nat) : (sendReads s c q id a0 a1).part = s.part ∧ (sendReads s c q id a0 a1).pending = s.pending := by
  induction a0 generalizing s c q id a1
  all_goals (unfold sendReads; constructor <;> (repeat' (first | with_reducible assumption | (simp only [kept_meshSend]; done) | (simp only [kept_meshSend, *]; done) | split | simp only [kept_meshSend] | simp only [kept_meshSend, *] | dsimp only)))

theorem kept_sendWrites (s : State) (c q id : Nat) (a0 : List (Nat × Nat)) (a1 : List Byte) : (sendWrites s c q id a0 a1).part = s.part ∧ (sendWrites s c q id a0 a1).pending = s.pending := by
  induction a0 generalizing s c q id a1
  all_goals (unfold sendWrites; constructor <;> (repeat' (first | with_reducible assumption | (simp only [kept_meshSend]; done) | (simp only [kept_meshSend, *]; done) | split | simp only [kept_meshSend] | simp only [kept_meshSend, *] | dsimp only)))

theorem kept_sendQueue (s : State) (c q id dst rq : Nat) (a0 : List (Nat × Nat)) (a1 : List Byte) : (sendQueue s c q id dst rq a0 a1).part = s.part ∧ (sendQueue s c q id dst rq a0 a1).pending = s.pending := by
  induction a0 generalizing s c q id dst rq a1
  all_goals (unfold sendQueue; constructor <;> (repeat' (first | with_reducible assumption | (simp only [kept_meshSend]; done) | (simp only [kept_meshSend, *]; done) | split | simp only [kept_meshSend] | simp only [kept_meshSend, *] | dsimp only)))

theorem kept_remoteGo (s : State) (c q : Nat) (r : PReq) (dst rq : Nat) : (remoteGo s c q r dst rq).part = s.part ∧ (remoteGo s c q r dst rq).pending = s.pending := by
  unfold remoteGo; constructor <;> simp only [kept_modCore, kept_sendQueue]

theorem kept_wakeRemote (a0 : Nat) (a1 : State) (a2 : Nat) (a3 : Nat) : (wakeRemote a0 a1 a2 a3).part = a1.part ∧ (wakeRemote a0 a1 a2 a3).pending = a1.pending := by
  induction a0 generalizing a1 a2 a3
  all_goals (unfold wakeRemote; constructor <;> (repeat' (first | with_reducible assumption | (simp only [kept_remoteGo]; done) | (simp only [kept_remoteGo, *]; done) | split | simp only [kept_remoteGo] | simp only [kept_remoteGo, *] | dsimp only)))

theorem kept_fqTake (s : State) (c q n : Nat) : (fqTake s c q n).2.part = s.part ∧ (fqTake s c q n).2.pending = s.pending := by
  unfold fqTake; constructor <;> simp only [kept_modCore, kept_wakeRemote]

theorem kept_pushUnnamed (s : State) (c q : Nat) (bs : List Byte) : (pushUnnamed s c q bs).part = s.part ∧ (pushUnnamed s c q bs).pending = s.pending := by
  unfold pushUnnamed; constructor <;> simp only [kept_modCore]

/-! ## SlotOps -/

theorem kept_checked (s : State) (c : Nat) (u : UnitId) (l : List Acc) (go : State) (h : go.part = s.part ∧ go.pending = s.pending) :
    (checked s c u l go).part = s.part ∧ (checked s c u l go).pending = s.pending := by
  unfold checked
  split
  · exact h
  · simp only [kept_hold, and_self]
  · simp only [kept_coreFault, and_self]

theorem kept_onUnit (s : State) (c : Nat) (u : UnitId) (op : SlotOp) (f : State → State) (hf : ∀ y0, (f y0).part = y0.part ∧ (f y0).pending = y0.pending) : ∀ t, onUnit s c u op f = .next t → t.part = s.part ∧ t.pending = s.pending := by
  intro t h; unfold onUnit at h; repeat' (first | split at h | dsimp only at h)
  all_goals (rw [← Host.Outcome.next.inj h]; constructor <;> (repeat' (first | with_reducible rfl | (simp only [kept_hold, hf]; done) | split)))

theorem kept_fed (s : State) (c : Nat) (u : UnitId) (q n : Nat) (go : List Byte → State → State)
    (h : ∀ b t, (go b t).part = t.part ∧ (go b t).pending = t.pending) :
    (fed s c u q n go).part = s.part ∧ (fed s c u q n go).pending = s.pending := by
  unfold fed; dsimp only
  split
  · simp only [kept_hold, kept_modCore, kept_fqTake, and_self]
  · simp only [h, kept_fqTake, and_self]

/-! ## StrOps -/

theorem kept_flagString (s : State) (n code fret : Nat) : (flagString s n code fret).part = s.part ∧ (flagString s n code fret).pending = s.pending := by
  unfold flagString; constructor <;> simp only [kept_modReg]

theorem kept_strStop (s : State) (n code fret : Nat) : (strStop s n code fret).part = s.part ∧ (strStop s n code fret).pending = s.pending := by
  unfold strStop; constructor <;> (repeat' (first | with_reducible assumption | (simp only [kept_modArr, kept_modStr, kept_modCore, kept_flagString]; done) | (simp only [kept_modArr, kept_modStr, kept_modCore, kept_flagString, *]; done) | split | simp only [kept_modArr, kept_modStr, kept_modCore, kept_flagString] | simp only [kept_modArr, kept_modStr, kept_modCore, kept_flagString, *] | (with_reducible refine foldl_part _ _ _ ?_; intros) | (with_reducible refine (foldl_part _ _ _ ?_).trans ?_; intros) | (with_reducible refine foldl_pending _ _ _ ?_; intros) | (with_reducible refine (foldl_pending _ _ _ ?_).trans ?_; intros) | (with_reducible refine foldl2_part _ _ _ ?_; intros) | (with_reducible refine (foldl2_part _ _ _ ?_).trans ?_; intros) | (with_reducible refine foldl2_pending _ _ _ ?_; intros) | (with_reducible refine (foldl2_pending _ _ _ ?_).trans ?_; intros) | (with_reducible refine foldl3_part _ _ _ ?_; intros) | (with_reducible refine (foldl3_part _ _ _ ?_).trans ?_; intros) | (with_reducible refine foldl3_pending _ _ _ ?_; intros) | (with_reducible refine (foldl3_pending _ _ _ ?_).trans ?_; intros) | dsimp only))

theorem kept_strFault (s : State) (n code fret : Nat) : (strFault s n code fret).part = s.part ∧ (strFault s n code fret).pending = s.pending := by
  unfold strFault; constructor <;> (repeat' (first | with_reducible assumption | (simp only [kept_log, kept_abortStep, kept_strStop]; done) | (simp only [kept_log, kept_abortStep, kept_strStop, *]; done) | split | simp only [kept_log, kept_abortStep, kept_strStop] | simp only [kept_log, kept_abortStep, kept_strStop, *] | dsimp only))

theorem kept_arrFault (s : State) (c : Nat) (u : UnitId) (arr code : Nat) : (arrFault s c u arr code).part = s.part ∧ (arrFault s c u arr code).pending = s.pending := by
  unfold arrFault; constructor <;> (repeat' (first | with_reducible rfl | (simp only [kept_coreFaultAt, kept_strStop]; done) | split))

theorem kept_strSettle (s : State) (n : Nat) : (strSettle s n).part = s.part ∧ (strSettle s n).pending = s.pending := by
  unfold strSettle; constructor <;> (repeat' (first | with_reducible rfl | (simp only [kept_modStr]; done) | split))

/-! ## Arrays -/

theorem kept_putShadow (s : State) (arr : Nat) (t : Tile) (next : Option Nat) : (putShadow s arr t next).part = s.part ∧ (putShadow s arr t next).pending = s.pending := by
  unfold putShadow; constructor <;> simp only [kept_modArr]

theorem kept_execLds (c : Fin 256) (a : Fin 2) (src : Src) (depth : Nat) (fmt : Fmt) (mask base : Opnd) (groups : Nat) (cont : Bool) (s : State) : ∀ t, execLds c a src depth fmt mask base groups s cont = .next t → t.part = s.part ∧ t.pending = s.pending := by
  exact kept_onUnit _ _ _ _ _ (fun s => by (try dsimp only); constructor <;> (repeat' (first | with_reducible rfl | (simp only [kept_retire, kept_hold, kept_coreFault, kept_putShadow]; done) | (with_reducible refine (kept_fed _ _ _ _ _ _ (fun b t => ⟨?_, ?_⟩)).1.trans ?_) | (with_reducible refine (kept_fed _ _ _ _ _ _ (fun b t => ⟨?_, ?_⟩)).2.trans ?_) | (with_reducible refine (kept_checked _ _ _ _ _ ⟨?_, ?_⟩).1.trans ?_) | (with_reducible refine (kept_checked _ _ _ _ _ ⟨?_, ?_⟩).2.trans ?_) | split)))

theorem kept_execShadowLoadDone (c : Fin 256) (a : Fin 2) (s : State) : ∀ t, execShadowLoadDone c a s = .next t → t.part = s.part ∧ t.pending = s.pending := by
  intro t h; unfold execShadowLoadDone at h; repeat' (first | split at h | dsimp only at h)
  all_goals (rw [← Host.Outcome.next.inj h]; constructor <;> (repeat' (first | with_reducible rfl | (simp only [kept_modArr]; done) | split)))

theorem kept_execSwap (c : Fin 256) (a : Fin 2) (s : State) : ∀ t, execSwap c a s = .next t → t.part = s.part ∧ t.pending = s.pending := by
  exact kept_onUnit _ _ _ _ _ (fun s => by (try dsimp only); constructor <;> (repeat' (first | with_reducible rfl | (simp only [kept_modArr, kept_retire, kept_hold, kept_coreFault, kept_arrFault]; done) | split)))

theorem kept_execCol (c : Fin 256) (a : Fin 2) (group : Fin 8) (src : Src) (slices first : Nat) (fmt : Fmt) (opn cls : Bool) (s : State) : ∀ t, execCol c a group src slices first fmt opn cls s = .next t → t.part = s.part ∧ t.pending = s.pending := by
  exact kept_onUnit _ _ _ _ _ (fun s => by (try dsimp only); constructor <;> (repeat' (first | with_reducible rfl | (simp only [kept_setArr, kept_retire, kept_coreFault, kept_arrFault]; done) | (with_reducible refine (kept_fed _ _ _ _ _ _ (fun b t => ⟨?_, ?_⟩)).1.trans ?_) | (with_reducible refine (kept_fed _ _ _ _ _ _ (fun b t => ⟨?_, ?_⟩)).2.trans ?_) | (with_reducible refine (kept_checked _ _ _ _ _ ⟨?_, ?_⟩).1.trans ?_) | (with_reducible refine (kept_checked _ _ _ _ _ ⟨?_, ?_⟩).2.trans ?_) | split)))

theorem kept_execPre (c : Fin 256) (a : Fin 2) (group : Fin 8) (src : Src) (n : Nat) (fmt : Fmt) (s : State) : ∀ t, execPre c a group src n fmt s = .next t → t.part = s.part ∧ t.pending = s.pending := by
  exact kept_onUnit _ _ _ _ _ (fun s => by (try dsimp only); constructor <;> (repeat' (first | with_reducible rfl | (simp only [kept_modArr, kept_modCore, kept_retire, kept_hold, kept_coreFault, kept_arrFault]; done) | (with_reducible refine (kept_fed _ _ _ _ _ _ (fun b t => ⟨?_, ?_⟩)).1.trans ?_) | (with_reducible refine (kept_fed _ _ _ _ _ _ (fun b t => ⟨?_, ?_⟩)).2.trans ?_) | (with_reducible refine (kept_checked _ _ _ _ _ ⟨?_, ?_⟩).1.trans ?_) | (with_reducible refine (kept_checked _ _ _ _ _ ⟨?_, ?_⟩).2.trans ?_) | split)))

theorem kept_execPreloadDone (c : Fin 256) (a : Fin 2) (s : State) : ∀ t, execPreloadDone c a s = .next t → t.part = s.part ∧ t.pending = s.pending := by
  intro t h; unfold execPreloadDone at h; dsimp only at h; repeat' (split at h)
  all_goals (rw [← Host.Outcome.next.inj h]; try (constructor <;> simp only [kept_modArr, kept_modCore]))

theorem kept_execWb (c : Fin 256) (a : Fin 2) (group : Fin 8) (dst : WbDst) (fmt : Fmt) (st : Fin 16) (grad : Option Nat) (s : State) : ∀ t, execWb c a group dst fmt st grad s = .next t → t.part = s.part ∧ t.pending = s.pending := by
  exact kept_onUnit _ _ _ _ _ (fun s => by (try dsimp only); constructor <;> (repeat' (first | with_reducible rfl | (simp only [kept_setArr, kept_modCore, kept_retire, kept_hold, kept_arrFault]; done) | (with_reducible refine (kept_checked _ _ _ _ _ ⟨?_, ?_⟩).1.trans ?_) | (with_reducible refine (kept_checked _ _ _ _ _ ⟨?_, ?_⟩).2.trans ?_) | split)))

theorem kept_execWritebackDone (c : Fin 256) (a : Fin 2) (s : State) : ∀ t, execWritebackDone c a s = .next t → t.part = s.part ∧ t.pending = s.pending := by
  intro t h; unfold execWritebackDone at h; dsimp only at h; repeat' (split at h)
  all_goals (rw [← Host.Outcome.next.inj h]; try (constructor <;> simp only [kept_setArr, kept_modCore, kept_traceEv, kept_trapIf, kept_gradStats, kept_pushUnnamed]))

theorem kept_execSpl (c : Fin 256) (a : Fin 2) (code : Nat) (s : State) : ∀ t, execSpl c a code s = .next t → t.part = s.part ∧ t.pending = s.pending := by
  exact kept_onUnit _ _ _ _ _ (fun s => by (try dsimp only); constructor <;> (repeat' (first | with_reducible rfl | (simp only [kept_modArr, kept_retire, kept_coreFault, kept_arrFault]; done) | split)))

/-! ## SecOps -/

theorem kept_signId (s : State) (digest : List Byte) : (signId s digest).2.part = s.part ∧ (signId s digest).2.pending = s.pending := by
  unfold signId; constructor <;> simp only []

theorem kept_setSlot (s : State) (n : Nat) (k : KeySlot) : (setSlot s n k).part = s.part ∧ (setSlot s n k).pending = s.pending := by
  unfold setSlot; constructor <;> simp only []

theorem kept_vaultSave (s : State) (n : Nat) : (vaultSave s n).part = s.part ∧ (vaultSave s n).pending = s.pending := by
  unfold vaultSave; constructor <;> (repeat' (first | with_reducible rfl | (simp only [kept_relWrite]; done) | split))

theorem kept_secLog (s : State) (code p slot stream : Nat) : (secLog s code p slot stream).part = s.part ∧ (secLog s code p slot stream).pending = s.pending := by
  unfold secLog; constructor <;> simp only [kept_log]

theorem kept_dropKeys (s : State) (p : Nat) : (dropKeys s p).part = s.part ∧ (dropKeys s p).pending = s.pending := by
  unfold dropKeys; constructor <;> simp only []

theorem kept_endLock (s : State) (p : Nat) (src : Nat) : (endLock s p src).part = s.part ∧ (endLock s p src).pending = s.pending := by
  unfold endLock; constructor <;> (repeat' (first | with_reducible rfl | (simp only [kept_measure]; done) | split))

/-! ## Flows -/

theorem kept_landed (s : State) (idx i status bytes : Nat) : (landed s idx i status bytes).part = s.part ∧ (landed s idx i status bytes).pending = s.pending := by
  unfold landed; constructor <;> (repeat' (first | with_reducible rfl | (simp only [kept_modFlight, kept_flightEnd]; done) | split))

theorem kept_moveIn (s0 : State) (idx : Nat) (f : Flight) (hostData : List Byte) : (moveIn s0 idx f hostData).part = s0.part ∧ (moveIn s0 idx f hostData).pending = s0.pending := by
  unfold moveIn; constructor <;> (repeat' (first | with_reducible assumption | (simp only [kept_relWrite, kept_touchRel, kept_secLog, kept_landed]; done) | (simp only [kept_relWrite, kept_touchRel, kept_secLog, kept_landed, *]; done) | split | simp only [kept_relWrite, kept_touchRel, kept_secLog, kept_landed] | simp only [kept_relWrite, kept_touchRel, kept_secLog, kept_landed, *] | dsimp only))

theorem kept_moveOut (s0 : State) (idx : Nat) (f : Flight) : (moveOut s0 idx f).part = s0.part ∧ (moveOut s0 idx f).pending = s0.pending := by
  unfold moveOut; constructor <;> (repeat' (first | with_reducible assumption | (simp only [kept_hostWrite, kept_flightEnd, kept_bufRead, kept_touchRel]; done) | (simp only [kept_hostWrite, kept_flightEnd, kept_bufRead, kept_touchRel, *]; done) | split | simp only [kept_hostWrite, kept_flightEnd, kept_bufRead, kept_touchRel] | simp only [kept_hostWrite, kept_flightEnd, kept_bufRead, kept_touchRel, *] | dsimp only))

theorem kept_ackSend (s : State) (idx : Nat) : (ackSend s idx).part = s.part ∧ (ackSend s idx).pending = s.pending := by
  unfold ackSend; constructor <;> simp only [kept_modRt, kept_fabSend]

theorem kept_fillDesc (s0 : State) (idx : Nat) (d : Desc) (msg : List Byte) (seq0 : Nat) : (fillDesc s0 idx d msg seq0).2.part = s0.part ∧ (fillDesc s0 idx d msg seq0).2.pending = s0.pending := by
  unfold fillDesc; constructor <;> (repeat' (first | with_reducible assumption | (simp only [kept_relWrite, kept_touchRel, kept_secLog]; done) | (simp only [kept_relWrite, kept_touchRel, kept_secLog, *]; done) | split | simp only [kept_relWrite, kept_touchRel, kept_secLog] | simp only [kept_relWrite, kept_touchRel, kept_secLog, *] | dsimp only))

theorem kept_recvMsg (s : State) (idx : Nat) (d : Desc) (msg : List Byte) (seq0 : Nat) : (recvMsg s idx d msg seq0).part = s.part ∧ (recvMsg s idx d msg seq0).pending = s.pending := by
  unfold recvMsg; constructor <;> simp only [kept_modRt, kept_finished, kept_acceptDesc, kept_landed, kept_fillDesc]

theorem kept_deliverUnit (s : State) (port idx : Nat) (u : LinkUnit) : (deliverUnit s port idx u).part = s.part ∧ (deliverUnit s port idx u).pending = s.pending := by
  unfold deliverUnit; constructor <;> (repeat' (first | with_reducible assumption | (simp only [kept_modRt, kept_recInput, kept_modEntry, kept_ackSend, kept_recvMsg]; done) | (simp only [kept_modRt, kept_recInput, kept_modEntry, kept_ackSend, kept_recvMsg, *]; done) | split | simp only [kept_modRt, kept_recInput, kept_modEntry, kept_ackSend, kept_recvMsg] | simp only [kept_modRt, kept_recInput, kept_modEntry, kept_ackSend, kept_recvMsg, *] | dsimp only))

theorem kept_branchPut (s : State) (lastDim : Option Nat) (u : LinkUnit) : (branchPut s lastDim u).part = s.part ∧ (branchPut s lastDim u).pending = s.pending := by
  unfold branchPut; constructor <;> (repeat' (first | with_reducible rfl | (simp only [kept_portTx]; done) | (with_reducible refine (kept_eachPort _ _ ?_).1.trans ?_ <;> intros) | (with_reducible refine (kept_eachPort _ _ ?_).2.trans ?_ <;> intros) | (with_reducible refine (kept_eachPort _ _ ?_).1 <;> intros) | (with_reducible refine (kept_eachPort _ _ ?_).2 <;> intros) | (refine ⟨?_, ?_⟩) | split | (with_reducible refine foldl_part _ _ _ ?_; intros) | (with_reducible refine (foldl_part _ _ _ ?_).trans ?_; intros) | (with_reducible refine foldl_pending _ _ _ ?_; intros) | (with_reducible refine (foldl_pending _ _ _ ?_).trans ?_; intros)))

theorem kept_mcastTry (s : State) (lastDim : Option Nat) (port : Nat) (u : LinkUnit) : ∀ t, mcastTry s lastDim port u = some t → t.part = s.part ∧ t.pending = s.pending := by
  intro t h; unfold mcastTry at h; repeat' (first | split at h | dsimp only at h)
  all_goals first | (cases h; done) | (rw [← Option.some.inj h]; constructor <;> (repeat' (first | with_reducible rfl | (simp only [kept_deliverUnit, kept_branchPut]; done) | (have hk := kept_ctxUse _ _ _ (by assumption); simp only [hk, kept_deliverUnit, kept_branchPut]; done) | split)))

theorem kept_mcastPump (a0 : Nat) (a1 : State) (a2 : Nat) : (mcastPump a0 a1 a2).part = a1.part ∧ (mcastPump a0 a1 a2).pending = a1.pending := by
  induction a0 generalizing a1 a2
  all_goals (unfold mcastPump; constructor <;> (repeat' (first | with_reducible assumption | (simp only []; done) | (simp only [*]; done) | (have hk := kept_mcastTry _ _ _ _ _ (by assumption); simp only [hk]; done) | split | simp only [] | simp only [*] | dsimp only)))

theorem kept_mcastOut (s : State) (u : LinkUnit) : (mcastOut s u).part = s.part ∧ (mcastOut s u).pending = s.pending := by
  unfold mcastOut; constructor <;> simp only [kept_mcastPump]

theorem kept_unitsOut (s : State) (us : List LinkUnit) : (unitsOut s us).part = s.part ∧ (unitsOut s us).pending = s.pending := by
  unfold unitsOut; constructor <;> (repeat' (first | with_reducible rfl | (simp only [kept_portTx, kept_mcastOut]; done) | split | (with_reducible refine foldl_part _ _ _ ?_; intros) | (with_reducible refine (foldl_part _ _ _ ?_).trans ?_; intros) | (with_reducible refine foldl_pending _ _ _ ?_; intros) | (with_reducible refine (foldl_pending _ _ _ ?_).trans ?_; intros)))

theorem kept_sendOne (s : State) (idx : Nat) (f : Flight) : (sendOne s idx f).part = s.part ∧ (sendOne s idx f).pending = s.pending := by
  unfold sendOne; constructor <;> simp only [kept_modRt, kept_modEntry, kept_modFlight, kept_landed, kept_unitsOut]

theorem kept_cutFlight (s : State) (idx i n : Nat) : (cutFlight s idx i n).part = s.part ∧ (cutFlight s idx i n).pending = s.pending := by
  unfold cutFlight; constructor <;> simp only [kept_modFlight]

theorem kept_peerLost (s : State) (idx : Nat) : (peerLost s idx).part = s.part ∧ (peerLost s idx).pending = s.pending := by
  unfold peerLost; constructor <;> (repeat' (first | with_reducible rfl | (simp only [kept_modRt, kept_fabStream]; done) | split))

theorem kept_sendPump (a0 : Nat) (a1 : State) (a2 : Nat) : (sendPump a0 a1 a2).part = a1.part ∧ (sendPump a0 a1 a2).pending = a1.pending := by
  induction a0 generalizing a1 a2
  all_goals (unfold sendPump; constructor <;> (repeat' (first | with_reducible assumption | (simp only [kept_flightEnd, kept_bufRead, kept_touchRel, kept_sendOne, kept_cutFlight, kept_peerLost]; done) | (simp only [kept_flightEnd, kept_bufRead, kept_touchRel, kept_sendOne, kept_cutFlight, kept_peerLost, *]; done) | split | simp only [kept_flightEnd, kept_bufRead, kept_touchRel, kept_sendOne, kept_cutFlight, kept_peerLost] | simp only [kept_flightEnd, kept_bufRead, kept_touchRel, kept_sendOne, kept_cutFlight, kept_peerLost, *] | dsimp only)))

theorem kept_sendAll (s : State) (idx : Nat) : (sendAll s idx).part = s.part ∧ (sendAll s idx).pending = s.pending := by
  unfold sendAll; constructor <;> simp only [kept_sendPump]

theorem kept_ackTake (s : State) (idx seq free : Nat) : (ackTake s idx seq free).part = s.part ∧ (ackTake s idx seq free).pending = s.pending := by
  unfold ackTake; constructor <;> (repeat' (first | with_reducible assumption | (simp only [kept_modRt, kept_flightEnd, kept_sendAll]; done) | (simp only [kept_modRt, kept_flightEnd, kept_sendAll, *]; done) | split | simp only [kept_modRt, kept_flightEnd, kept_sendAll] | simp only [kept_modRt, kept_flightEnd, kept_sendAll, *] | (with_reducible refine foldl_part _ _ _ ?_; intros) | (with_reducible refine (foldl_part _ _ _ ?_).trans ?_; intros) | (with_reducible refine foldl_pending _ _ _ ?_; intros) | (with_reducible refine (foldl_pending _ _ _ ?_).trans ?_; intros) | (with_reducible refine foldl2_part _ _ _ ?_; intros) | (with_reducible refine (foldl2_part _ _ _ ?_).trans ?_; intros) | (with_reducible refine foldl2_pending _ _ _ ?_; intros) | (with_reducible refine (foldl2_pending _ _ _ ?_).trans ?_; intros) | (with_reducible refine foldl3_part _ _ _ ?_; intros) | (with_reducible refine (foldl3_part _ _ _ ?_).trans ?_; intros) | (with_reducible refine foldl3_pending _ _ _ ?_; intros) | (with_reducible refine (foldl3_pending _ _ _ ?_).trans ?_; intros) | dsimp only))

theorem kept_readPieces (s : State) (p : Nat) (a0 : List (Nat × Nat)) : (readPieces s p a0).2.2.part = s.part ∧ (readPieces s p a0).2.2.pending = s.pending := by
  induction a0 generalizing s p
  all_goals (unfold readPieces; constructor <;> (repeat' (first | with_reducible assumption | (simp only [kept_relRead, kept_touchRel]; done) | (simp only [kept_relRead, kept_touchRel, *]; done) | split | simp only [kept_relRead, kept_touchRel] | simp only [kept_relRead, kept_touchRel, *] | dsimp only)))

theorem kept_streamTake (s : State) (idx n : Nat) : (streamTake s idx n).2.2.part = s.part ∧ (streamTake s idx n).2.2.pending = s.pending := by
  unfold streamTake; constructor <;> simp only [kept_modRt, kept_modEntry, kept_readPieces]

/-! ## Control -/

theorem kept_execBundleIssue (c : Fin 256) (slots : List Slot) (s : State) : ∀ t, execBundleIssue c slots s = .next t → t.part = s.part ∧ t.pending = s.pending := by
  intro t h; unfold execBundleIssue at h; dsimp only at h; repeat' (split at h)
  all_goals (rw [← Host.Outcome.next.inj h]; try (constructor <;> simp only [kept_modCore, kept_hold, kept_coreFaultB]))

theorem kept_execWait (c : Fin 256) (q : Fin 16) (k : Nat) (s : State) : ∀ t, execWait c q k s = .next t → t.part = s.part ∧ t.pending = s.pending := by
  exact kept_onUnit _ _ _ _ _ (fun s => by (try dsimp only); constructor <;> (repeat' (first | with_reducible rfl | (simp only [kept_retire, kept_hold, kept_coreFault]; done) | split)))

theorem kept_execWaitp (c : Fin 256) (q : Fin 16) (k : Nat) (s : State) : ∀ t, execWaitp c q k s = .next t → t.part = s.part ∧ t.pending = s.pending := by
  exact kept_onUnit _ _ _ _ _ (fun s => by (try dsimp only); constructor <;> (repeat' (first | with_reducible rfl | (simp only [kept_retire, kept_hold]; done) | split)))

theorem kept_execQcfg (c : Fin 256) (isPut : Bool) (q : Fin 16) (base size mode : Nat) (s : State) : ∀ t, execQcfg c isPut q base size mode s = .next t → t.part = s.part ∧ t.pending = s.pending := by
  exact kept_onUnit _ _ _ _ _ (fun s => by (try dsimp only); constructor <;> (repeat' (first | with_reducible rfl | (simp only [kept_modCore, kept_retire, kept_coreFault]; done) | split)))

theorem kept_aluOp (s : State) (c : Nat) (op : SlotOp) (d a : Nat) (b : AluSrc) (f : W64 → W64 → W64) : ∀ t, aluOp s c op d a b f = .next t → t.part = s.part ∧ t.pending = s.pending := by
  exact kept_onUnit _ _ _ _ _ (fun s => by (try dsimp only); constructor <;> (repeat' (first | with_reducible rfl | (simp only [kept_modCore, kept_retire]; done) | split)))

theorem kept_execAdd (c : Fin 256) (d a : Fin 32) (b : AluSrc) (s : State) : ∀ t, execAdd c d a b s = .next t → t.part = s.part ∧ t.pending = s.pending := by
  intro t h; exact kept_aluOp _ _ _ _ _ _ _ t h

theorem kept_execSub (c : Fin 256) (d a : Fin 32) (b : AluSrc) (s : State) : ∀ t, execSub c d a b s = .next t → t.part = s.part ∧ t.pending = s.pending := by
  intro t h; exact kept_aluOp _ _ _ _ _ _ _ t h

theorem kept_execAnd (c : Fin 256) (d a : Fin 32) (b : AluSrc) (s : State) : ∀ t, execAnd c d a b s = .next t → t.part = s.part ∧ t.pending = s.pending := by
  intro t h; exact kept_aluOp _ _ _ _ _ _ _ t h

theorem kept_execOr (c : Fin 256) (d a : Fin 32) (b : AluSrc) (s : State) : ∀ t, execOr c d a b s = .next t → t.part = s.part ∧ t.pending = s.pending := by
  intro t h; exact kept_aluOp _ _ _ _ _ _ _ t h

theorem kept_execXor (c : Fin 256) (d a : Fin 32) (b : AluSrc) (s : State) : ∀ t, execXor c d a b s = .next t → t.part = s.part ∧ t.pending = s.pending := by
  intro t h; exact kept_aluOp _ _ _ _ _ _ _ t h

theorem kept_execShl (c : Fin 256) (d a : Fin 32) (b : AluSrc) (s : State) : ∀ t, execShl c d a b s = .next t → t.part = s.part ∧ t.pending = s.pending := by
  intro t h; exact kept_aluOp _ _ _ _ _ _ _ t h

theorem kept_execShr (c : Fin 256) (d a : Fin 32) (b : AluSrc) (s : State) : ∀ t, execShr c d a b s = .next t → t.part = s.part ∧ t.pending = s.pending := by
  intro t h; exact kept_aluOp _ _ _ _ _ _ _ t h

theorem kept_execMovi (c : Fin 256) (d : Fin 32) (v : W64) (s : State) : ∀ t, execMovi c d v s = .next t → t.part = s.part ∧ t.pending = s.pending := by
  exact kept_onUnit _ _ _ _ _ (fun s => by (try dsimp only); constructor <;> (repeat' (first | with_reducible rfl | (simp only [kept_modCore, kept_retire]; done) | split)))

theorem kept_branchTo (s : State) (c : Nat) (target : Option Nat) : (branchTo s c target).part = s.part ∧ (branchTo s c target).pending = s.pending := by
  unfold branchTo; constructor <;> simp only [kept_modCore, kept_retire]

theorem kept_execBr (c : Fin 256) (target : Nat) (s : State) : ∀ t, execBr c target s = .next t → t.part = s.part ∧ t.pending = s.pending := by
  exact kept_onUnit _ _ _ _ _ (fun s => by (try dsimp only); constructor <;> (repeat' (first | with_reducible rfl | (simp only [kept_branchTo]; done) | split)))

theorem kept_execBrc (c : Fin 256) (r : Fin 32) (target : Nat) (s : State) : ∀ t, execBrc c r target s = .next t → t.part = s.part ∧ t.pending = s.pending := by
  exact kept_onUnit _ _ _ _ _ (fun s => by (try dsimp only); constructor <;> (repeat' (first | with_reducible rfl | (simp only [kept_branchTo]; done) | split)))

theorem kept_execLoop (c : Fin 256) (lc : Fin 4) (init : Option Nat) (target : Nat) (s : State) : ∀ t, execLoop c lc init target s = .next t → t.part = s.part ∧ t.pending = s.pending := by
  exact kept_onUnit _ _ _ _ _ (fun s => by (try dsimp only); constructor <;> (repeat' (first | with_reducible rfl | (simp only [kept_modCore, kept_branchTo]; done) | split)))

theorem kept_execStrd (c : Fin 256) (d : Fin 32) (st : Fin 16) (s : State) : ∀ t, execStrd c d st s = .next t → t.part = s.part ∧ t.pending = s.pending := by
  exact kept_onUnit _ _ _ _ _ (fun s => by (try dsimp only); constructor <;> (repeat' (first | with_reducible rfl | (simp only [kept_modCore, kept_retire]; done) | split)))

theorem kept_timerdRec (s : State) (c : Nat) : (timerdRec s c).part = s.part ∧ (timerdRec s c).pending = s.pending := by
  unfold timerdRec; constructor <;> simp only [kept_recInput]

theorem kept_execTimerd (c : Fin 256) (d : Fin 32) (s : State) : ∀ t, execTimerd c d s = .next t → t.part = s.part ∧ t.pending = s.pending := by
  exact kept_onUnit _ _ _ _ _ (fun s => by (try dsimp only); constructor <;> (repeat' (first | with_reducible rfl | (simp only [kept_modCore, kept_retire, kept_hold, kept_timerdRec]; done) | split)))

theorem kept_execNop (c : Fin 256) (s : State) : ∀ t, execNop c s = .next t → t.part = s.part ∧ t.pending = s.pending := by
  exact kept_onUnit _ _ _ _ _ (fun s => by (try dsimp only); constructor <;> (repeat' (first | with_reducible rfl | (simp only [kept_retire]; done) | split)))

/-! ## GrxOps -/

theorem kept_modGrp (s : State) (slot : Nat) (f : Grp → Grp) : (modGrp s slot f).part = s.part ∧ (modGrp s slot f).pending = s.pending := by
  unfold modGrp; constructor <;> (repeat' (first | with_reducible rfl | (simp only [kept_setGrp]; done) | split))

theorem kept_grxLog (s : State) (code slot p block origin : Nat) : (grxLog s code slot p block origin).part = s.part ∧ (grxLog s code slot p block origin).pending = s.pending := by
  unfold grxLog; constructor <;> simp only [kept_log]

theorem kept_grxBroken (s : State) (slot : Nat) : (grxBroken s slot).part = s.part ∧ (grxBroken s slot).pending = s.pending := by
  unfold grxBroken; constructor <;> (repeat' (first | with_reducible rfl | (simp only [kept_abortStep, kept_modGrp, kept_grxLog]; done) | split))

theorem kept_scaleFetch (s : State) (bank j : Nat) : (scaleFetch s bank j).2.part = s.part ∧ (scaleFetch s bank j).2.pending = s.pending := by
  unfold scaleFetch; constructor <;> (repeat' (first | with_reducible rfl | (simp only [kept_saRead]; done) | split))

theorem kept_scaleFlush (s : State) : (scaleFlush s).part = s.part ∧ (scaleFlush s).pending = s.pending := by
  unfold scaleFlush; constructor <;> (repeat' (first | with_reducible rfl | (simp only [kept_saWrite]; done) | split | (with_reducible refine foldl_part _ _ _ ?_; intros) | (with_reducible refine (foldl_part _ _ _ ?_).trans ?_; intros) | (with_reducible refine foldl_pending _ _ _ ?_; intros) | (with_reducible refine (foldl_pending _ _ _ ?_).trans ?_; intros)))

theorem kept_scalePut (s : State) (bank j v : Nat) : (scalePut s bank j v).part = s.part ∧ (scalePut s bank j v).pending = s.pending := by
  unfold scalePut; constructor <;> (repeat' (first | with_reducible rfl | (simp only [kept_scaleFlush]; done) | split))

theorem kept_modRec (s : State) (key : Nat) (f : SealSt → SealSt) : (modRec s key f).part = s.part ∧ (modRec s key f).pending = s.pending := by
  unfold modRec; constructor <;> simp only [kept_modSeal, kept_saWrite]

theorem kept_recordRead (s : State) (key : Nat) : (recordRead s key).part = s.part ∧ (recordRead s key).pending = s.pending := by
  unfold recordRead; constructor <;> (repeat' (first | with_reducible assumption | (simp only [kept_modSeal, kept_saRead]; done) | (simp only [kept_modSeal, kept_saRead, *]; done) | split | simp only [kept_modSeal, kept_saRead] | simp only [kept_modSeal, kept_saRead, *] | dsimp only))

theorem kept_residueBlock (s : State) (j : Nat) : (residueBlock s j).2.2.part = s.part ∧ (residueBlock s j).2.2.pending = s.pending := by
  unfold residueBlock; constructor <;> simp only [kept_saRead]

theorem kept_residueWrite (s : State) (j bank : Nat) (new : List Byte) : (residueWrite s j bank new).part = s.part ∧ (residueWrite s j bank new).pending = s.pending := by
  unfold residueWrite; constructor <;> (repeat' (first | with_reducible rfl | (simp only [kept_setPoison, kept_saWrite, kept_residueBlock]; done) | split | (with_reducible refine foldl_part _ _ _ ?_; intros) | (with_reducible refine (foldl_part _ _ _ ?_).trans ?_; intros) | (with_reducible refine foldl_pending _ _ _ ?_; intros) | (with_reducible refine (foldl_pending _ _ _ ?_).trans ?_; intros)))

theorem kept_relBlock (s : State) (slot flow k : Nat) : (relBlock s slot flow k).part = s.part ∧ (relBlock s slot flow k).pending = s.pending := by
  unfold relBlock; constructor <;> (repeat' (first | with_reducible assumption | (simp only [kept_hopBack, kept_modGrp]; done) | (simp only [kept_hopBack, kept_modGrp, *]; done) | split | simp only [kept_hopBack, kept_modGrp] | simp only [kept_hopBack, kept_modGrp, *] | dsimp only))

theorem kept_sendUnit (s : State) (slot kind l : Nat) (plus : Bool) (k n : Nat) : (sendUnit s slot kind l plus k n).part = s.part ∧ (sendUnit s slot kind l plus k n).pending = s.pending := by
  unfold sendUnit; constructor <;> (repeat' (first | with_reducible rfl | (simp only [kept_portTx, kept_modGrp, kept_grxBroken, kept_relBlock]; done) | split | (with_reducible refine foldl_part _ _ _ ?_; intros) | (with_reducible refine (foldl_part _ _ _ ?_).trans ?_; intros) | (with_reducible refine foldl_pending _ _ _ ?_; intros) | (with_reducible refine (foldl_pending _ _ _ ?_).trans ?_; intros)))

theorem kept_grxPump (a0 : Nat) (a1 : State) (a2 : Nat) : (grxPump a0 a1 a2).part = a1.part ∧ (grxPump a0 a1 a2).pending = a1.pending := by
  induction a0 generalizing a1 a2
  all_goals (unfold grxPump; constructor <;> (repeat' (first | with_reducible assumption | (simp only [kept_sendUnit]; done) | (simp only [kept_sendUnit, *]; done) | split | simp only [kept_sendUnit] | simp only [kept_sendUnit, *] | dsimp only)))

theorem kept_pumpAll (s : State) (slot : Nat) : (pumpAll s slot).part = s.part ∧ (pumpAll s slot).pending = s.pending := by
  unfold pumpAll; constructor <;> (repeat' (first | with_reducible rfl | (simp only [kept_grxPump]; done) | split))

theorem kept_engineProduce (s : State) (p idx : Nat) (bs : List Byte) : (engineProduce s p idx bs).part = s.part ∧ (engineProduce s p idx bs).pending = s.pending := by
  unfold engineProduce; constructor <;> (repeat' (first | with_reducible assumption | (simp only [kept_relWrite, kept_modEntry, kept_flightEnd, kept_acceptDesc, kept_landed]; done) | (simp only [kept_relWrite, kept_modEntry, kept_flightEnd, kept_acceptDesc, kept_landed, *]; done) | split | simp only [kept_relWrite, kept_modEntry, kept_flightEnd, kept_acceptDesc, kept_landed] | simp only [kept_relWrite, kept_modEntry, kept_flightEnd, kept_acceptDesc, kept_landed, *] | dsimp only))

theorem kept_grpEnd (s : State) (slot : Nat) (g : Grp) : (grpEnd s slot g).part = s.part ∧ (grpEnd s slot g).pending = s.pending := by
  unfold grpEnd; constructor <;> (repeat' (first | with_reducible assumption | (simp only [kept_portTx, kept_modGrp, kept_grxLog, kept_grxBroken]; done) | (simp only [kept_portTx, kept_modGrp, kept_grxLog, kept_grxBroken, *]; done) | split | simp only [kept_portTx, kept_modGrp, kept_grxLog, kept_grxBroken] | simp only [kept_portTx, kept_modGrp, kept_grxLog, kept_grxBroken, *] | (with_reducible refine foldl_part _ _ _ ?_; intros) | (with_reducible refine (foldl_part _ _ _ ?_).trans ?_; intros) | (with_reducible refine foldl_pending _ _ _ ?_; intros) | (with_reducible refine (foldl_pending _ _ _ ?_).trans ?_; intros) | (with_reducible refine foldl2_part _ _ _ ?_; intros) | (with_reducible refine (foldl2_part _ _ _ ?_).trans ?_; intros) | (with_reducible refine foldl2_pending _ _ _ ?_; intros) | (with_reducible refine (foldl2_pending _ _ _ ?_).trans ?_; intros) | (with_reducible refine foldl3_part _ _ _ ?_; intros) | (with_reducible refine (foldl3_part _ _ _ ?_).trans ?_; intros) | (with_reducible refine foldl3_pending _ _ _ ?_; intros) | (with_reducible refine (foldl3_pending _ _ _ ?_).trans ?_; intros) | dsimp only))

theorem kept_resultPump (a0 : Nat) (a1 : State) (a2 : Nat) : (resultPump a0 a1 a2).part = a1.part ∧ (resultPump a0 a1 a2).pending = a1.pending := by
  induction a0 generalizing a1 a2
  all_goals (unfold resultPump; constructor <;> (repeat' (first | with_reducible assumption | (simp only [kept_recInput, kept_modGrp, kept_engineProduce, kept_grpEnd]; done) | (simp only [kept_recInput, kept_modGrp, kept_engineProduce, kept_grpEnd, *]; done) | split | simp only [kept_recInput, kept_modGrp, kept_engineProduce, kept_grpEnd] | simp only [kept_recInput, kept_modGrp, kept_engineProduce, kept_grpEnd, *] | dsimp only)))

theorem kept_resultAll (s : State) (slot : Nat) : (resultAll s slot).part = s.part ∧ (resultAll s slot).pending = s.pending := by
  unfold resultAll; constructor <;> (repeat' (first | with_reducible rfl | (simp only [kept_resultPump]; done) | split))

theorem kept_resultRetry (s : State) (idx : Nat) : (resultRetry s idx).part = s.part ∧ (resultRetry s idx).pending = s.pending := by
  unfold resultRetry; constructor <;> (repeat' (first | with_reducible rfl | (simp only [kept_resultAll]; done) | split | (with_reducible refine foldl_part _ _ _ ?_; intros) | (with_reducible refine (foldl_part _ _ _ ?_).trans ?_; intros) | (with_reducible refine foldl_pending _ _ _ ?_; intros) | (with_reducible refine (foldl_pending _ _ _ ?_).trans ?_; intros)))

theorem kept_finalBlock (s : State) (slot k : Nat) (r : GRec) : (finalBlock s slot k r).part = s.part ∧ (finalBlock s slot k r).pending = s.pending := by
  unfold finalBlock; constructor <;> (repeat' (first | with_reducible assumption | (simp only [kept_modReg, kept_modGrp, kept_scalePut, kept_residueWrite]; done) | (simp only [kept_modReg, kept_modGrp, kept_scalePut, kept_residueWrite, *]; done) | split | simp only [kept_modReg, kept_modGrp, kept_scalePut, kept_residueWrite] | simp only [kept_modReg, kept_modGrp, kept_scalePut, kept_residueWrite, *] | dsimp only))

theorem kept_grxBegin (s : State) (p k step : Nat) : (grxBegin s p k step).part = s.part ∧ (grxBegin s p k step).pending = s.pending := by
  unfold grxBegin; constructor <;> (repeat' (first | with_reducible assumption | (simp only [kept_abortStep, kept_modGrp, kept_grxLog]; done) | (simp only [kept_abortStep, kept_modGrp, kept_grxLog, *]; done) | split | simp only [kept_abortStep, kept_modGrp, kept_grxLog] | simp only [kept_abortStep, kept_modGrp, kept_grxLog, *] | (with_reducible refine foldl_part _ _ _ ?_; intros) | (with_reducible refine (foldl_part _ _ _ ?_).trans ?_; intros) | (with_reducible refine foldl_pending _ _ _ ?_; intros) | (with_reducible refine (foldl_pending _ _ _ ?_).trans ?_; intros) | (with_reducible refine foldl2_part _ _ _ ?_; intros) | (with_reducible refine (foldl2_part _ _ _ ?_).trans ?_; intros) | (with_reducible refine foldl2_pending _ _ _ ?_; intros) | (with_reducible refine (foldl2_pending _ _ _ ?_).trans ?_; intros) | (with_reducible refine foldl3_part _ _ _ ?_; intros) | (with_reducible refine (foldl3_part _ _ _ ?_).trans ?_; intros) | (with_reducible refine foldl3_pending _ _ _ ?_; intros) | (with_reducible refine (foldl3_pending _ _ _ ?_).trans ?_; intros) | dsimp only))

end Sys2Proof.Machine
end

