-- ==== Sys2Proof/Laws/KeptSteps.lean ====
section
/-! SUPPORT. The same of steps, streams, the exchange and seals. -/

namespace Sys2Proof.Machine

set_option linter.unusedSimpArgs false

/-! ## Swap -/

theorem kept_areaWrite (s : State) (p : Nat) (a : SwArea) (f : Nat → Bool) (m : Mem) : (areaWrite s p a f m).part = s.part ∧ (areaWrite s p a f m).pending = s.pending := by
  unfold areaWrite; constructor <;> (repeat' (first | with_reducible rfl | (simp only []; done) | split | (with_reducible refine foldl_part _ _ _ ?_; intros) | (with_reducible refine (foldl_part _ _ _ ?_).trans ?_; intros) | (with_reducible refine foldl_pending _ _ _ ?_; intros) | (with_reducible refine (foldl_pending _ _ _ ?_).trans ?_; intros)))

theorem kept_saveInto (s : State) (p id : Nat) (x : SwapItem) : (saveInto s p id x).part = s.part ∧ (saveInto s p id x).pending = s.pending := by
  unfold saveInto; constructor <;> (repeat' (first | with_reducible assumption | (simp only [kept_modPart, kept_areaWrite]; done) | (simp only [kept_modPart, kept_areaWrite, *]; done) | split | simp only [kept_modPart, kept_areaWrite] | simp only [kept_modPart, kept_areaWrite, *] | (with_reducible refine foldl_part _ _ _ ?_; intros) | (with_reducible refine (foldl_part _ _ _ ?_).trans ?_; intros) | (with_reducible refine foldl_pending _ _ _ ?_; intros) | (with_reducible refine (foldl_pending _ _ _ ?_).trans ?_; intros) | (with_reducible refine foldl2_part _ _ _ ?_; intros) | (with_reducible refine (foldl2_part _ _ _ ?_).trans ?_; intros) | (with_reducible refine foldl2_pending _ _ _ ?_; intros) | (with_reducible refine (foldl2_pending _ _ _ ?_).trans ?_; intros) | (with_reducible refine foldl3_part _ _ _ ?_; intros) | (with_reducible refine (foldl3_part _ _ _ ?_).trans ?_; intros) | (with_reducible refine foldl3_pending _ _ _ ?_; intros) | (with_reducible refine (foldl3_pending _ _ _ ?_).trans ?_; intros) | dsimp only))

theorem kept_restoreItem (s : State) (x : SwapItem) (w : SavedCtx × Mem) (groups : Bool) : (restoreItem s x w groups).part = s.part ∧ (restoreItem s x w groups).pending = s.pending := by
  unfold restoreItem; constructor <;> (repeat' (first | with_reducible rfl | (simp only [kept_modArr, kept_modCore]; done) | split))

theorem kept_areaFault (s : State) (p : Nat) (w : SavedCtx) : (areaFault s p w).part = s.part ∧ (areaFault s p w).pending = s.pending := by
  unfold areaFault; constructor <;> (repeat' (first | with_reducible rfl | (simp only [kept_log, kept_abortStep]; done) | split))

theorem kept_exchange (s : State) (p c : Nat) (outs ins : List SwapItem) : (exchange s p c outs ins).part = s.part ∧ (exchange s p c outs ins).pending = s.pending := by
  unfold exchange; constructor <;> (repeat' (first | with_reducible assumption | (simp only [kept_modPart, kept_saveInto, kept_restoreItem, kept_areaFault]; done) | (simp only [kept_modPart, kept_saveInto, kept_restoreItem, kept_areaFault, *]; done) | split | simp only [kept_modPart, kept_saveInto, kept_restoreItem, kept_areaFault] | simp only [kept_modPart, kept_saveInto, kept_restoreItem, kept_areaFault, *] | (with_reducible refine foldl_part _ _ _ ?_; intros) | (with_reducible refine (foldl_part _ _ _ ?_).trans ?_; intros) | (with_reducible refine foldl_pending _ _ _ ?_; intros) | (with_reducible refine (foldl_pending _ _ _ ?_).trans ?_; intros) | (with_reducible refine foldl2_part _ _ _ ?_; intros) | (with_reducible refine (foldl2_part _ _ _ ?_).trans ?_; intros) | (with_reducible refine foldl2_pending _ _ _ ?_; intros) | (with_reducible refine (foldl2_pending _ _ _ ?_).trans ?_; intros) | (with_reducible refine foldl3_part _ _ _ ?_; intros) | (with_reducible refine (foldl3_part _ _ _ ?_).trans ?_; intros) | (with_reducible refine foldl3_pending _ _ _ ?_; intros) | (with_reducible refine (foldl3_pending _ _ _ ?_).trans ?_; intros) | dsimp only))

theorem kept_pruneAreas (s : State) (p : Nat) : (pruneAreas s p).part = s.part ∧ (pruneAreas s p).pending = s.pending := by
  unfold pruneAreas; constructor <;> simp only [kept_modPart]

/-! ## Steps -/

theorem kept_startCore (s : State) (p : Nat) (g : Prog) (entry : Nat) (v : VCore × Nat) : (startCore s p g entry v).part = s.part ∧ (startCore s p g entry v).pending = s.pending := by
  unfold startCore; constructor <;> simp only [kept_modArr, kept_modCore, kept_relTouch]

theorem kept_setUnit (s : State) (p u : Nat) (x : UnitRun) : (setUnit s p u x).part = s.part ∧ (setUnit s p u x).pending = s.pending := by
  unfold setUnit; constructor <;> simp only [kept_modPart]

theorem kept_runRound (a0 : Nat) (a1 : State) (a2 : Nat) (a3 : Prog) (a4 : Nat) (a5 : Nat) (a6 : Nat) : (runRound a0 a1 a2 a3 a4 a5 a6).part = a1.part ∧ (runRound a0 a1 a2 a3 a4 a5 a6).pending = a1.pending := by
  induction a0 generalizing a1 a2 a3 a4 a5 a6
  all_goals (unfold runRound; constructor <;> (repeat' (first | with_reducible assumption | (simp only [kept_modCore, kept_finished, kept_startCore, kept_setUnit]; done) | (simp only [kept_modCore, kept_finished, kept_startCore, kept_setUnit, *]; done) | split | simp only [kept_modCore, kept_finished, kept_startCore, kept_setUnit] | simp only [kept_modCore, kept_finished, kept_startCore, kept_setUnit, *] | (with_reducible refine foldl_part _ _ _ ?_; intros) | (with_reducible refine (foldl_part _ _ _ ?_).trans ?_; intros) | (with_reducible refine foldl_pending _ _ _ ?_; intros) | (with_reducible refine (foldl_pending _ _ _ ?_).trans ?_; intros) | (with_reducible refine foldl2_part _ _ _ ?_; intros) | (with_reducible refine (foldl2_part _ _ _ ?_).trans ?_; intros) | (with_reducible refine foldl2_pending _ _ _ ?_; intros) | (with_reducible refine (foldl2_pending _ _ _ ?_).trans ?_; intros) | (with_reducible refine foldl3_part _ _ _ ?_; intros) | (with_reducible refine (foldl3_part _ _ _ ?_).trans ?_; intros) | (with_reducible refine foldl3_pending _ _ _ ?_; intros) | (with_reducible refine (foldl3_pending _ _ _ ?_).trans ?_; intros) | dsimp only)))

theorem kept_roundOver (s : State) (p u : Nat) : (roundOver s p u).part = s.part ∧ (roundOver s p u).pending = s.pending := by
  unfold roundOver; constructor <;> (repeat' (first | with_reducible assumption | (simp only [kept_runRound]; done) | (simp only [kept_runRound, *]; done) | split | simp only [kept_runRound] | simp only [kept_runRound, *] | dsimp only))

theorem kept_stepLog (s : State) (code p slot tag : Nat) : (stepLog s code p slot tag).part = s.part ∧ (stepLog s code p slot tag).pending = s.pending := by
  unfold stepLog; constructor <;> simp only [kept_log]

theorem kept_startSlot (s : State) (p : Nat) (g : Prog) (i f : Nat) (e : SlotEnt) : (startSlot s p g i f e).part = s.part ∧ (startSlot s p g i f e).pending = s.pending := by
  unfold startSlot; constructor <;> (repeat' (first | with_reducible rfl | (simp only [kept_modPart, kept_runRound]; done) | split | (with_reducible refine foldl_part _ _ _ ?_; intros) | (with_reducible refine (foldl_part _ _ _ ?_).trans ?_; intros) | (with_reducible refine foldl_pending _ _ _ ?_; intros) | (with_reducible refine (foldl_pending _ _ _ ?_).trans ?_; intros)))

theorem kept_fallBack (s : State) (p i : Nat) (e : SlotEnt) : (fallBack s p i e).part = s.part ∧ (fallBack s p i e).pending = s.pending := by
  unfold fallBack; constructor <;> simp only [kept_modStep, kept_stepLog]

theorem kept_slotWaits (s : State) (p i : Nat) (e : SlotEnt) : (slotWaits s p i e).part = s.part ∧ (slotWaits s p i e).pending = s.pending := by
  unfold slotWaits; constructor <;> (repeat' (first | with_reducible assumption | (simp only [kept_modStep, kept_stepLog]; done) | (simp only [kept_modStep, kept_stepLog, *]; done) | split | simp only [kept_modStep, kept_stepLog] | simp only [kept_modStep, kept_stepLog, *] | dsimp only))

/-- The state that a try leaves. -/
def tryState : Try → State
  | .start s => s
  | .waits s => s
  | .pass s => s

theorem kept_tryFwd (s : State) (p : Nat) (g : Prog) (i f : Nat) (e : SlotEnt) :
    (tryState (tryFwd s p g i f e)).part = s.part ∧ (tryState (tryFwd s p g i f e)).pending = s.pending := by
  unfold tryFwd; dsimp only
  split
  · rename_i h; have hk := kept_stashReserve _ _ _ _ _ _ h
    simp only [tryState, kept_startSlot, hk, and_self]
  · split
    · simp only [tryState, kept_slotWaits, and_self]
    · split
      · simp only [tryState, kept_fallBack, and_self]
      · split
        · rename_i h; have hk := kept_stashReserve _ _ _ _ _ _ h
          simp only [tryState, kept_startSlot, kept_fallBack, hk, and_self]
        · simp only [tryState, kept_slotWaits, kept_fallBack, and_self]

theorem kept_trySlot1 (s : State) (p : Nat) (g : Prog) (i : Nat) (b : Bool) :
    (tryState (trySlot1 s p g i b)).part = s.part ∧ (tryState (trySlot1 s p g i b)).pending = s.pending := by
  unfold trySlot1; dsimp only
  repeat' split
  all_goals first
    | exact kept_tryFwd _ _ _ _ _ _
    | exact ⟨rfl, rfl⟩
    | (rename_i h; have hk := kept_stashReserve _ _ _ _ _ _ h; simp only [tryState, kept_startSlot, hk, and_self]; done)
    | simp only [tryState, kept_startSlot, and_self]

theorem kept_scanSlots (p : Nat) (g : Prog) (l : List Nat) (s : State) (b : Bool) :
    (scanSlots p g l s b).part = s.part ∧ (scanSlots p g l s b).pending = s.pending := by
  induction l generalizing s b with
  | nil => exact ⟨rfl, rfl⟩
  | cons i is ih =>
    unfold scanSlots
    have k := kept_trySlot1 s p g i b
    split <;> rename_i h <;> rw [h] at k <;> simp only [tryState] at k <;> simp only [ih, k, and_self]

theorem kept_deadArm (s : State) (p : Nat) (g : Prog) : (deadArm s p g).part = s.part ∧ (deadArm s p g).pending = s.pending := by
  unfold deadArm; constructor <;> (repeat' (first | with_reducible assumption | (simp only [kept_modStep]; done) | (simp only [kept_modStep, *]; done) | split | simp only [kept_modStep] | simp only [kept_modStep, *] | dsimp only))

theorem kept_trySlot (s : State) (p : Nat) : (trySlot s p).part = s.part ∧ (trySlot s p).pending = s.pending := by
  unfold trySlot; constructor <;> (repeat' (first | with_reducible assumption | (simp only [kept_scanSlots, kept_deadArm]; done) | (simp only [kept_scanSlots, kept_deadArm, *]; done) | split | simp only [kept_scanSlots, kept_deadArm] | simp only [kept_scanSlots, kept_deadArm, *] | dsimp only))

theorem kept_beginStep (s : State) (p : Nat) : (beginStep s p).part = s.part ∧ (beginStep s p).pending = s.pending := by
  unfold beginStep; constructor <;> (repeat' (first | with_reducible rfl | (simp only [kept_setReg, kept_modPart, kept_modCurProg, kept_modRec, kept_grxBegin, kept_trySlot]; done) | split))

theorem kept_execSlotComplete (p : Fin 16) (s : State) : ∀ t, execSlotComplete p s = .next t → t.part = s.part ∧ t.pending = s.pending := by
  intro t h; unfold execSlotComplete at h; dsimp only at h; repeat' (split at h)
  all_goals (rw [← Host.Outcome.next.inj h]; try (constructor <;> simp only [kept_modStep, kept_stashRelease, kept_trySlot]))

theorem kept_deadFire (s : State) (p : Nat) : (deadFire s p).part = s.part ∧ (deadFire s p).pending = s.pending := by
  unfold deadFire; constructor <;> simp only [kept_abortStep, kept_stepLog]

theorem kept_execStashDeadlock (p : Fin 16) (s : State) : ∀ t, execStashDeadlock p s = .next t → t.part = s.part ∧ t.pending = s.pending := by
  intro t h; unfold execStashDeadlock at h; dsimp only at h; repeat' (split at h)
  all_goals (rw [← Host.Outcome.next.inj h]; try (constructor <;> simp only [kept_modStep, kept_deadFire]))

theorem kept_watchFire (s : State) (p : Nat) : (watchFire s p).part = s.part ∧ (watchFire s p).pending = s.pending := by
  unfold watchFire; constructor <;> simp only [kept_abortStep, kept_stepLog]

theorem kept_execStepWatchdogExpired (p : Fin 16) (s : State) : ∀ t, execStepWatchdogExpired p s = .next t → t.part = s.part ∧ t.pending = s.pending := by
  intro t h; unfold execStepWatchdogExpired at h; repeat' (first | split at h | dsimp only at h)
  all_goals (rw [← Host.Outcome.next.inj h]; constructor <;> (repeat' (first | with_reducible rfl | (simp only [kept_modStep, kept_watchFire]; done) | split)))

theorem kept_execReadyReport (p : Fin 16) (s : State) : ∀ t, execReadyReport p s = .next t → t.part = s.part ∧ t.pending = s.pending := by
  intro t h; unfold execReadyReport at h; dsimp only at h; repeat' (split at h)
  all_goals (rw [← Host.Outcome.next.inj h]; try (constructor <;> simp only [kept_modPart, kept_stashClear, kept_writeStatus, kept_betweenNow, kept_stepLog]))

theorem kept_execSlotEnd (c : Fin 256) (s : State) : ∀ t, execSlotEnd c s = .next t → t.part = s.part ∧ t.pending = s.pending := by
  intro t h; unfold execSlotEnd at h; dsimp only at h; repeat' (split at h)
  all_goals (rw [← Host.Outcome.next.inj h]; try (constructor <;> simp only [kept_modCore, kept_traceEv, kept_hold, kept_coreFaultB, kept_roundOver]))

theorem kept_execFoldSwap (p : Fin 16) (unit : Nat) (s : State) : ∀ t, execFoldSwap p unit s = .next t → t.part = s.part ∧ t.pending = s.pending := by
  intro t h; unfold execFoldSwap at h; repeat' (first | split at h | dsimp only at h)
  all_goals (rw [← Host.Outcome.next.inj h]; constructor <;> (repeat' (first | with_reducible rfl | (simp only [kept_modCore, kept_traceEv, kept_setUnit]; done) | split | (with_reducible refine foldl_part _ _ _ ?_; intros) | (with_reducible refine (foldl_part _ _ _ ?_).trans ?_; intros) | (with_reducible refine foldl_pending _ _ _ ?_; intros) | (with_reducible refine (foldl_pending _ _ _ ?_).trans ?_; intros))))

theorem kept_loadCode (s : State) (p : Nat) (g : Prog) (v : VCore) (at_ : Nat) : (loadCode s p g v at_).part = s.part ∧ (loadCode s p g v at_).pending = s.pending := by
  unfold loadCode; constructor <;> simp only [kept_modCore, kept_relTouch]

theorem kept_foldCore (s : State) (p k : Nat) (g : Prog) (c r : Nat) : (foldCore s p k g c r).part = s.part ∧ (foldCore s p k g c r).pending = s.pending := by
  unfold foldCore; constructor <;> (repeat' (first | with_reducible rfl | (simp only [kept_modCore, kept_exchange, kept_loadCode]; done) | split))

theorem kept_execFoldSwapDone (p : Fin 16) (unit : Nat) (s : State) : ∀ t, execFoldSwapDone p unit s = .next t → t.part = s.part ∧ t.pending = s.pending := by
  intro t h; unfold execFoldSwapDone at h; repeat' (first | with_reducible (split at h) | dsimp only at h | split at h)
  all_goals (rw [← Host.Outcome.next.inj h]; constructor <;> (repeat' (first | with_reducible assumption | (simp only [kept_runRound, kept_foldCore]; done) | (simp only [kept_runRound, kept_foldCore, *]; done) | split | simp only [kept_runRound, kept_foldCore] | simp only [kept_runRound, kept_foldCore, *] | (with_reducible refine foldl_part _ _ _ ?_; intros) | (with_reducible refine (foldl_part _ _ _ ?_).trans ?_; intros) | (with_reducible refine foldl_pending _ _ _ ?_; intros) | (with_reducible refine (foldl_pending _ _ _ ?_).trans ?_; intros) | (with_reducible refine foldl2_part _ _ _ ?_; intros) | (with_reducible refine (foldl2_part _ _ _ ?_).trans ?_; intros) | (with_reducible refine foldl2_pending _ _ _ ?_; intros) | (with_reducible refine (foldl2_pending _ _ _ ?_).trans ?_; intros) | (with_reducible refine foldl3_part _ _ _ ?_; intros) | (with_reducible refine (foldl3_part _ _ _ ?_).trans ?_; intros) | (with_reducible refine foldl3_pending _ _ _ ?_; intros) | (with_reducible refine (foldl3_pending _ _ _ ?_).trans ?_; intros) | dsimp only)))

theorem kept_execTimeSliceSwap (p : Fin 16) (s : State) : ∀ t, execTimeSliceSwap p s = .next t → t.part = s.part ∧ t.pending = s.pending := by
  intro t h; unfold execTimeSliceSwap at h; repeat' (first | split at h | dsimp only at h)
  all_goals (rw [← Host.Outcome.next.inj h]; constructor <;> (repeat' (first | with_reducible rfl | (simp only [kept_modCore, kept_modPart]; done) | split | (with_reducible refine foldl_part _ _ _ ?_; intros) | (with_reducible refine (foldl_part _ _ _ ?_).trans ?_; intros) | (with_reducible refine foldl_pending _ _ _ ?_; intros) | (with_reducible refine (foldl_pending _ _ _ ?_).trans ?_; intros))))

theorem kept_sliceCore (s : State) (p j : Nat) (h : Prog) (c : Nat) : (sliceCore s p j h c).part = s.part ∧ (sliceCore s p j h c).pending = s.pending := by
  unfold sliceCore; constructor <;> (repeat' (first | with_reducible rfl | (simp only [kept_modPart, kept_exchange]; done) | split))

theorem kept_showTenants (s : State) (g : Prog) : (showTenants s g).part = s.part ∧ (showTenants s g).pending = s.pending := by
  unfold showTenants; constructor <;> (repeat' (first | with_reducible rfl | (simp only [kept_modCore]; done) | split | (with_reducible refine foldl_part _ _ _ ?_; intros) | (with_reducible refine (foldl_part _ _ _ ?_).trans ?_; intros) | (with_reducible refine foldl_pending _ _ _ ?_; intros) | (with_reducible refine (foldl_pending _ _ _ ?_).trans ?_; intros)))

theorem kept_loadCodes (s : State) (p : Nat) (g : Prog) : (loadCodes s p g).part = s.part ∧ (loadCodes s p g).pending = s.pending := by
  unfold loadCodes; constructor <;> (repeat' (first | with_reducible rfl | (simp only [kept_loadCode]; done) | split | (with_reducible refine foldl_part _ _ _ ?_; intros) | (with_reducible refine (foldl_part _ _ _ ?_).trans ?_; intros) | (with_reducible refine foldl_pending _ _ _ ?_; intros) | (with_reducible refine (foldl_pending _ _ _ ?_).trans ?_; intros)))

theorem kept_swapIn (s : State) (p k : Nat) (g : Prog) : (swapIn s p k g).part = s.part ∧ (swapIn s p k g).pending = s.pending := by
  unfold swapIn; constructor <;> (repeat' (first | with_reducible assumption | (simp only [kept_modPart, kept_sliceCore, kept_showTenants, kept_loadCodes]; done) | (simp only [kept_modPart, kept_sliceCore, kept_showTenants, kept_loadCodes, *]; done) | split | simp only [kept_modPart, kept_sliceCore, kept_showTenants, kept_loadCodes] | simp only [kept_modPart, kept_sliceCore, kept_showTenants, kept_loadCodes, *] | (with_reducible refine foldl_part _ _ _ ?_; intros) | (with_reducible refine (foldl_part _ _ _ ?_).trans ?_; intros) | (with_reducible refine foldl_pending _ _ _ ?_; intros) | (with_reducible refine (foldl_pending _ _ _ ?_).trans ?_; intros) | (with_reducible refine foldl2_part _ _ _ ?_; intros) | (with_reducible refine (foldl2_part _ _ _ ?_).trans ?_; intros) | (with_reducible refine foldl2_pending _ _ _ ?_; intros) | (with_reducible refine (foldl2_pending _ _ _ ?_).trans ?_; intros) | (with_reducible refine foldl3_part _ _ _ ?_; intros) | (with_reducible refine (foldl3_part _ _ _ ?_).trans ?_; intros) | (with_reducible refine foldl3_pending _ _ _ ?_; intros) | (with_reducible refine (foldl3_pending _ _ _ ?_).trans ?_; intros) | dsimp only))

theorem kept_swapBegin (s : State) (p k : Nat) (g : Prog) : (swapBegin s p k g).part = s.part ∧ (swapBegin s p k g).pending = s.pending := by
  unfold swapBegin; constructor <;> (repeat' (first | with_reducible rfl | (simp only [kept_abortStep, kept_pruneAreas, kept_beginStep, kept_swapIn]; done) | split))

theorem kept_execTimeSliceSwapDone (p : Fin 16) (s : State) : ∀ t, execTimeSliceSwapDone p s = .next t → t.part = s.part ∧ t.pending = s.pending := by
  intro t h; unfold execTimeSliceSwapDone at h; repeat' (first | split at h | dsimp only at h)
  all_goals (rw [← Host.Outcome.next.inj h]; constructor <;> (repeat' (first | with_reducible rfl | (simp only [kept_modPart, kept_swapBegin]; done) | split)))

theorem kept_wakeStep (s : State) (idx : Nat) : (wakeStep s idx).part = s.part ∧ (wakeStep s idx).pending = s.pending := by
  unfold wakeStep; constructor <;> simp only [kept_trySlot]

theorem kept_stepBoundary (s : State) (p : Nat) : (stepBoundary s p).part = s.part ∧ (stepBoundary s p).pending = s.pending := by
  unfold stepBoundary; constructor <;> (repeat' (first | with_reducible assumption | (simp only [kept_modStep, kept_beginStep]; done) | (simp only [kept_modStep, kept_beginStep, *]; done) | split | simp only [kept_modStep, kept_beginStep] | simp only [kept_modStep, kept_beginStep, *] | dsimp only))

/-! ## Streams -/

theorem kept_ringBell (s : State) (idx v : Nat) : (ringBell s idx v).part = s.part ∧ (ringBell s idx v).pending = s.pending := by
  unfold ringBell; constructor <;> (repeat' (first | with_reducible assumption | (simp only [kept_tableSet, kept_modEntry, kept_setPending, kept_ctxPut, kept_ctxEvict]; done) | (simp only [kept_tableSet, kept_modEntry, kept_setPending, kept_ctxPut, kept_ctxEvict, *]; done) | split | simp only [kept_tableSet, kept_modEntry, kept_setPending, kept_ctxPut, kept_ctxEvict] | simp only [kept_tableSet, kept_modEntry, kept_setPending, kept_ctxPut, kept_ctxEvict, *] | dsimp only))

theorem kept_bell (s : State) (p idx : Nat) (v : W64) : (bell s p idx v).part = s.part ∧ (bell s p idx v).pending = s.pending := by
  unfold bell; constructor <;> (repeat' (first | with_reducible assumption | (simp only [kept_modReg, kept_stmLog, kept_ringBell]; done) | (simp only [kept_modReg, kept_stmLog, kept_ringBell, *]; done) | split | simp only [kept_modReg, kept_stmLog, kept_ringBell] | simp only [kept_modReg, kept_stmLog, kept_ringBell, *] | dsimp only))

theorem kept_execDoorbell (fn : Fin 18) (page slot : Nat) (v : W64) (width : Nat) (s : State) : ∀ t, execDoorbell fn page slot v width s = .next t → t.part = s.part ∧ t.pending = s.pending := by
  intro t h; unfold execDoorbell at h; dsimp only at h; repeat' (split at h)
  all_goals (rw [← Host.Outcome.next.inj h]; try (constructor <;> simp only [kept_emit, kept_recInput, kept_stmLog, kept_bell]))

theorem kept_installEntry (s : State) (idx : Nat) (e : StrEnt) : (installEntry s idx e).1.part = s.part ∧ (installEntry s idx e).1.pending = s.pending := by
  unfold installEntry; constructor <;> (repeat' (first | with_reducible rfl | (simp only [kept_modRt, kept_tableSet, kept_modEntry, kept_jrnWrite]; done) | split))

theorem kept_admitStart (s : State) (idx : Nat) (e : StrEnt) : (admitStart s idx e).1.part = s.part ∧ (admitStart s idx e).1.pending = s.pending := by
  unfold admitStart; constructor <;> (repeat' (first | with_reducible assumption | (simp only [kept_portTx, kept_holdSlots, kept_admitStatus]; done) | (simp only [kept_portTx, kept_holdSlots, kept_admitStatus, *]; done) | split | simp only [kept_portTx, kept_holdSlots, kept_admitStatus] | simp only [kept_portTx, kept_holdSlots, kept_admitStatus, *] | dsimp only))

theorem kept_doCreate (s : State) (fn p idx : Nat) (image : List Byte) : (doCreate s fn p idx image).1.part = s.part ∧ (doCreate s fn p idx image).1.pending = s.pending := by
  unfold doCreate; constructor <;> (repeat' (first | with_reducible assumption | (simp only [kept_admitStatus, kept_installEntry, kept_admitStart]; done) | (simp only [kept_admitStatus, kept_installEntry, kept_admitStart, *]; done) | split | simp only [kept_admitStatus, kept_installEntry, kept_admitStart] | simp only [kept_admitStatus, kept_installEntry, kept_admitStart, *] | dsimp only))

theorem kept_doDestroy (s : State) (idx : Nat) : (doDestroy s idx).1.part = s.part ∧ (doDestroy s idx).1.pending = s.pending := by
  unfold doDestroy; constructor <;> (repeat' (first | with_reducible assumption | (simp only [kept_modRt, kept_portTx, kept_dropHold, kept_modEntry, kept_setSlot, kept_vaultSave]; done) | (simp only [kept_modRt, kept_portTx, kept_dropHold, kept_modEntry, kept_setSlot, kept_vaultSave, *]; done) | split | simp only [kept_modRt, kept_portTx, kept_dropHold, kept_modEntry, kept_setSlot, kept_vaultSave] | simp only [kept_modRt, kept_portTx, kept_dropHold, kept_modEntry, kept_setSlot, kept_vaultSave, *] | dsimp only))

theorem kept_doRearm (s : State) (fn idx : Nat) : (doRearm s fn idx).1.part = s.part ∧ (doRearm s fn idx).1.pending = s.pending := by
  unfold doRearm; constructor <;> (repeat' (first | with_reducible assumption | (simp only [kept_modRt, kept_modEntry, kept_jrnWrite]; done) | (simp only [kept_modRt, kept_modEntry, kept_jrnWrite, *]; done) | split | simp only [kept_modRt, kept_modEntry, kept_jrnWrite] | simp only [kept_modRt, kept_modEntry, kept_jrnWrite, *] | dsimp only))

theorem kept_doQuery (s : State) (fn p idx : Nat) : (doQuery s fn p idx).1.part = s.part ∧ (doQuery s fn p idx).1.pending = s.pending := by
  unfold doQuery; constructor <;> (repeat' (first | with_reducible rfl | (simp only [kept_hostWrite, kept_relWrite]; done) | split))

theorem kept_doEvict (s : State) (idx : Nat) : (doEvict s idx).1.part = s.part ∧ (doEvict s idx).1.pending = s.pending := by
  unfold doEvict; constructor <;> (repeat' (first | with_reducible rfl | (simp only [kept_ctxEvict]; done) | split))

theorem kept_doCmd (s : State) (k : StmCmd) : (doCmd s k).1.part = s.part ∧ (doCmd s k).1.pending = s.pending := by
  unfold doCmd; split
  · simp only [kept_ctxWant, kept_doCreate, kept_doDestroy, kept_doRearm, kept_doQuery, kept_doEvict, and_self]
  · split
    · simp only [kept_ctxWant, kept_doCreate, kept_doDestroy, kept_doRearm, kept_doQuery, kept_doEvict, and_self]
    · rename_i s1 h
      have hk : s1.part = s.part ∧ s1.pending = s.pending := by
        split at h
        · exact kept_ctxUse _ _ _ h
        · cases h; exact ⟨rfl, rfl⟩
      repeat' split
      all_goals simp only [kept_ctxWant, kept_doCreate, kept_doDestroy, kept_doRearm, kept_doQuery, kept_doEvict, hk, and_self]

theorem kept_cmdEnd (s : State) (k : StmCmd) (code gen : Nat) : (cmdEnd s k code gen).part = s.part ∧ (cmdEnd s k code gen).pending = s.pending := by
  unfold cmdEnd; constructor <;> (repeat' (first | with_reducible rfl | (simp only [kept_setReg, kept_raiseCause, kept_stmLog, kept_fabStream, kept_secLog]; done) | split))

theorem kept_cmdPump (a0 : Nat) (a1 : State) : (cmdPump a0 a1).part = a1.part ∧ (cmdPump a0 a1).pending = a1.pending := by
  induction a0 generalizing a1
  all_goals (unfold cmdPump; constructor <;> (repeat' (first | with_reducible assumption | (simp only [kept_doCmd, kept_cmdEnd]; done) | (simp only [kept_doCmd, kept_cmdEnd, *]; done) | split | simp only [kept_doCmd, kept_cmdEnd] | simp only [kept_doCmd, kept_cmdEnd, *] | dsimp only)))

theorem kept_cmdRetry (s : State) : (cmdRetry s).part = s.part ∧ (cmdRetry s).pending = s.pending := by
  unfold cmdRetry; constructor <;> (repeat' (first | with_reducible assumption | (simp only [kept_doCmd, kept_cmdEnd, kept_cmdPump]; done) | (simp only [kept_doCmd, kept_cmdEnd, kept_cmdPump, *]; done) | split | simp only [kept_doCmd, kept_cmdEnd, kept_cmdPump] | simp only [kept_doCmd, kept_cmdEnd, kept_cmdPump, *] | dsimp only))

theorem kept_stmCmdGo (s : State) (fn op idx : Nat) (image : List Byte) : (stmCmdGo s fn op idx image).part = s.part ∧ (stmCmdGo s fn op idx image).pending = s.pending := by
  unfold stmCmdGo; constructor <;> (repeat' (first | with_reducible rfl | (simp only [kept_setReg, kept_recInput, kept_stmLog, kept_cmdPump]; done) | split))

theorem kept_stmCmd (s : State) (fn op idx : Nat) (image : List Byte) : (stmCmd s fn op idx image).part = s.part ∧ (stmCmd s fn op idx image).pending = s.pending := by
  unfold stmCmd; constructor <;> (repeat' (first | with_reducible rfl | (simp only [kept_stmCmdGo]; done) | split))

theorem kept_cmdFinish (s : State) (code gen : Nat) : (cmdFinish s code gen).part = s.part ∧ (cmdFinish s code gen).pending = s.pending := by
  unfold cmdFinish; constructor <;> (repeat' (first | with_reducible rfl | (simp only [kept_cmdEnd, kept_cmdPump]; done) | split))

theorem kept_execCreate (fn : Fin 18) (idx : Nat) (image : List Byte) (s : State) : ∀ t, execCreate fn idx image s = .next t → t.part = s.part ∧ t.pending = s.pending := by
  intro t h; unfold execCreate at h; repeat' (first | split at h | dsimp only at h)
  all_goals (rw [← Host.Outcome.next.inj h]; constructor <;> (repeat' (first | with_reducible rfl | (simp only [kept_stmCmd]; done) | split)))

theorem kept_execDestroy (fn : Fin 18) (idx : Nat) (s : State) : ∀ t, execDestroy fn idx s = .next t → t.part = s.part ∧ t.pending = s.pending := by
  intro t h; unfold execDestroy at h; repeat' (first | split at h | dsimp only at h)
  all_goals (rw [← Host.Outcome.next.inj h]; constructor <;> (repeat' (first | with_reducible rfl | (simp only [kept_stmCmd]; done) | split)))

theorem kept_execRearm (fn : Fin 18) (idx : Nat) (s : State) : ∀ t, execRearm fn idx s = .next t → t.part = s.part ∧ t.pending = s.pending := by
  intro t h; unfold execRearm at h; repeat' (first | split at h | dsimp only at h)
  all_goals (rw [← Host.Outcome.next.inj h]; constructor <;> (repeat' (first | with_reducible rfl | (simp only [kept_stmCmd]; done) | split)))

theorem kept_execQuery (fn : Fin 18) (idx : Nat) (s : State) : ∀ t, execQuery fn idx s = .next t → t.part = s.part ∧ t.pending = s.pending := by
  intro t h; unfold execQuery at h; repeat' (first | split at h | dsimp only at h)
  all_goals (rw [← Host.Outcome.next.inj h]; constructor <;> (repeat' (first | with_reducible rfl | (simp only [kept_stmCmd]; done) | split)))

theorem kept_execEvict (fn : Fin 18) (idx : Nat) (s : State) : ∀ t, execEvict fn idx s = .next t → t.part = s.part ∧ t.pending = s.pending := by
  intro t h; unfold execEvict at h; repeat' (first | split at h | dsimp only at h)
  all_goals (rw [← Host.Outcome.next.inj h]; constructor <;> (repeat' (first | with_reducible rfl | (simp only [kept_stmCmd]; done) | split)))

theorem kept_execPartTableWrite (fn : Fin 18) (off : Nat) (v : W64) (s : State) : ∀ t, execPartTableWrite fn off v s = .next t → t.part = s.part ∧ t.pending = s.pending := by
  intro t h; unfold execPartTableWrite at h; dsimp only at h; repeat' (split at h)
  all_goals (rw [← Host.Outcome.next.inj h]; try (constructor <;> simp only [kept_setReg, kept_log]))

theorem kept_ringTouch (s : State) (p : Nat) (e : StrEnt) (i : Nat) : (ringTouch s p e i).part = s.part ∧ (ringTouch s p e i).pending = s.pending := by
  unfold ringTouch; split <;> simp only [kept_relTouch, and_self]

theorem kept_execDescriptorPrefetch (idx : Nat) (hostData : List Byte) (s : State) : ∀ t, execDescriptorPrefetch idx hostData s = .next t → t.part = s.part ∧ t.pending = s.pending := by
  intro t h; unfold execDescriptorPrefetch at h; dsimp only at h; repeat' (split at h)
  all_goals (rw [← Host.Outcome.next.inj h]; try (constructor <;> simp only [kept_modRt, kept_ringTouch]))

theorem kept_takeToken (s : State) (idx : Nat) : (takeToken s idx).part = s.part ∧ (takeToken s idx).pending = s.pending := by
  unfold takeToken; constructor <;> (repeat' (first | with_reducible assumption | (simp only [kept_modRt]; done) | (simp only [kept_modRt, *]; done) | split | simp only [kept_modRt] | simp only [kept_modRt, *] | dsimp only))

theorem kept_acceptGo (s : State) (idx : Nat) (d : Desc) (mapped : Bool) : (acceptGo s idx d mapped).part = s.part ∧ (acceptGo s idx d mapped).pending = s.pending := by
  unfold acceptGo; constructor <;> (repeat' (first | with_reducible assumption | (simp only [kept_modRt, kept_recInput, kept_flightEnd, kept_acceptDesc, kept_sendAll, kept_takeToken]; done) | (simp only [kept_modRt, kept_recInput, kept_flightEnd, kept_acceptDesc, kept_sendAll, kept_takeToken, *]; done) | split | simp only [kept_modRt, kept_recInput, kept_flightEnd, kept_acceptDesc, kept_sendAll, kept_takeToken] | simp only [kept_modRt, kept_recInput, kept_flightEnd, kept_acceptDesc, kept_sendAll, kept_takeToken, *] | dsimp only))

theorem kept_execDescriptorAccept (idx : Nat) (hostData : List Byte) (mapped : Bool) (s : State) : ∀ t, execDescriptorAccept idx hostData s mapped = .next t → t.part = s.part ∧ t.pending = s.pending := by
  intro t h; unfold execDescriptorAccept at h; repeat' (first | split at h | dsimp only at h)
  all_goals (rw [← Host.Outcome.next.inj h]; constructor <;> (repeat' (first | with_reducible rfl | (simp only [kept_ctxWant, kept_secLog, kept_wakeStep, kept_ringTouch, kept_acceptGo]; done) | (have hk := kept_ctxUse _ _ _ (by assumption); simp only [hk, kept_ctxWant, kept_secLog, kept_wakeStep, kept_ringTouch, kept_acceptGo]; done) | split)))

theorem kept_execDescriptorFinish (idx i status bytes : Nat) (hostData : List Byte) (ecc : Ecc) (s0 : State) : ∀ t, execDescriptorFinish idx i status bytes hostData s0 ecc = .next t → t.part = s0.part ∧ t.pending = s0.pending := by
  intro t h; unfold execDescriptorFinish at h; dsimp only at h; repeat' (split at h)
  all_goals (rw [← Host.Outcome.next.inj h]; try (constructor <;> simp only [kept_recInput, kept_latent, kept_relWrite, kept_touchRel, kept_landed, kept_moveIn, kept_moveOut, kept_cmdRetry]))

theorem kept_execMsixMergeExpiry (vec : Nat) (s : State) : ∀ t, execMsixMergeExpiry vec s = .next t → t.part = s.part ∧ t.pending = s.pending := by
  intro t h; unfold execMsixMergeExpiry at h; dsimp only at h; repeat' (split at h)
  all_goals (rw [← Host.Outcome.next.inj h]; try (constructor <;> simp only [kept_modMsix, kept_raiseBehind]))

theorem kept_execContextLoad (idx : Nat) (hostEntry : List Byte) (s : State) : ∀ t, execContextLoad idx hostEntry s = .next t → t.part = s.part ∧ t.pending = s.pending := by
  intro t h; unfold execContextLoad at h; repeat' (first | split at h | dsimp only at h)
  all_goals (rw [← Host.Outcome.next.inj h]; constructor <;> (repeat' (first | with_reducible rfl | (simp only [kept_ctxPut]; done) | split)))

theorem kept_execContextWritebackDone (idx : Nat) (s : State) : ∀ t, execContextWritebackDone idx s = .next t → t.part = s.part ∧ t.pending = s.pending := by
  intro t h; unfold execContextWritebackDone at h; repeat' (first | split at h | dsimp only at h)
  all_goals (rw [← Host.Outcome.next.inj h]; constructor <;> (repeat' (first | with_reducible rfl | (simp only [kept_ctxDrop, kept_cmdRetry]; done) | split)))

theorem kept_jrnApply (s : State) (idx : Nat) : (jrnApply s idx).part = s.part ∧ (jrnApply s idx).pending = s.pending := by
  unfold jrnApply; constructor <;> (repeat' (first | with_reducible assumption | (simp only [kept_modRt, kept_modEntry, kept_complOne]; done) | (simp only [kept_modRt, kept_modEntry, kept_complOne, *]; done) | split | simp only [kept_modRt, kept_modEntry, kept_complOne] | simp only [kept_modRt, kept_modEntry, kept_complOne, *] | dsimp only))

theorem kept_jrnFetches (s : State) (idx : Nat) : (jrnFetches s idx).part = s.part ∧ (jrnFetches s idx).pending = s.pending := by
  unfold jrnFetches; constructor <;> (repeat' (first | with_reducible rfl | (simp only [kept_modCore, kept_modRt]; done) | split | (with_reducible refine foldl_part _ _ _ ?_; intros) | (with_reducible refine (foldl_part _ _ _ ?_).trans ?_; intros) | (with_reducible refine foldl_pending _ _ _ ?_; intros) | (with_reducible refine (foldl_pending _ _ _ ?_).trans ?_; intros)))

theorem kept_execJournalWriteDone (idx : Nat) (s : State) : ∀ t, execJournalWriteDone idx s = .next t → t.part = s.part ∧ t.pending = s.pending := by
  intro t h; unfold execJournalWriteDone at h; dsimp only at h; repeat' (split at h)
  all_goals (rw [← Host.Outcome.next.inj h]; try (constructor <;> simp only [kept_jrnWrite, kept_sendAll, kept_wakeStep, kept_cmdRetry, kept_cmdFinish, kept_jrnApply, kept_jrnFetches]))

theorem kept_recoverGo (s : State) (v : W64) : (recoverGo s v).part = s.part ∧ (recoverGo s v).pending = s.pending := by
  unfold recoverGo; constructor <;> (repeat' (first | with_reducible rfl | (simp only [kept_setReg, kept_log, kept_recInput]; done) | split))

theorem kept_execStmRecover (fn : Fin 18) (v : W64) (s : State) : ∀ t, execStmRecover fn v s = .next t → t.part = s.part ∧ t.pending = s.pending := by
  intro t h; unfold execStmRecover at h; repeat' (first | split at h | dsimp only at h)
  all_goals (rw [← Host.Outcome.next.inj h]; constructor <;> (repeat' (first | with_reducible rfl | (simp only [kept_recoverGo]; done) | split)))

theorem kept_recoverOne (descs : List (Nat × Nat × List Byte)) (s : State) (p idx : Nat) (b : List Byte) : (recoverOne descs s p idx b).part = s.part ∧ (recoverOne descs s p idx b).pending = s.pending := by
  unfold recoverOne; constructor <;> (repeat' (first | with_reducible assumption | (simp only [kept_modRt, kept_modEntry, kept_complPut, kept_sendAll]; done) | (simp only [kept_modRt, kept_modEntry, kept_complPut, kept_sendAll, *]; done) | split | simp only [kept_modRt, kept_modEntry, kept_complPut, kept_sendAll] | simp only [kept_modRt, kept_modEntry, kept_complPut, kept_sendAll, *] | dsimp only))

theorem kept_recoverEntry (descs : List (Nat × Nat × List Byte)) (p : Nat) (a : State × Nat × Nat × Bool) (idx : Nat) : (recoverEntry descs p a idx).1.part = a.1.part ∧ (recoverEntry descs p a idx).1.pending = a.1.pending := by
  unfold recoverEntry; extract_lets s e off
  have ho (y : State) : (off y).part = y.part ∧ (off y).pending = y.pending := by simp only [off, kept_modRt, kept_modEntry, and_self]
  repeat' split
  · exact ⟨rfl, rfl⟩
  · simp only [ho, s, and_self]
  · simp only [kept_stmLog, ho, s, and_self]
  · rename_i h
    have hk := kept_ctxUse _ _ _ h
    simp only [List.foldl_cons, List.foldl_nil, kept_relTouch] at hk
    simp only [kept_recoverOne, hk, s, and_self]
  · simp only [kept_recoverOne, s, and_self]

theorem kept_recoverPart (descs : List (Nat × Nat × List Byte)) (a : State × Nat × Nat) (p : Nat) : (recoverPart descs a p).1.part = a.1.part ∧ (recoverPart descs a p).1.pending = a.1.pending := by
  unfold recoverPart; constructor <;> (repeat' (first | with_reducible assumption | (simp only [kept_log, kept_recoverEntry]; done) | (simp only [kept_log, kept_recoverEntry, *]; done) | split | simp only [kept_log, kept_recoverEntry] | simp only [kept_log, kept_recoverEntry, *] | (with_reducible refine foldl_part _ _ _ ?_; intros) | (with_reducible refine (foldl_part _ _ _ ?_).trans ?_; intros) | (with_reducible refine foldl_pending _ _ _ ?_; intros) | (with_reducible refine (foldl_pending _ _ _ ?_).trans ?_; intros) | (with_reducible refine foldl2_part _ _ _ ?_; intros) | (with_reducible refine (foldl2_part _ _ _ ?_).trans ?_; intros) | (with_reducible refine foldl2_pending _ _ _ ?_; intros) | (with_reducible refine (foldl2_pending _ _ _ ?_).trans ?_; intros) | (with_reducible refine foldl3_part _ _ _ ?_; intros) | (with_reducible refine (foldl3_part _ _ _ ?_).trans ?_; intros) | (with_reducible refine foldl3_pending _ _ _ ?_; intros) | (with_reducible refine (foldl3_pending _ _ _ ?_).trans ?_; intros) | dsimp only))

theorem kept_execRecoveryScan (descs : List (Nat × Nat × List Byte)) (s : State) : ∀ t, execRecoveryScan s descs = .next t → t.part = s.part ∧ t.pending = s.pending := by
  intro t h; unfold execRecoveryScan at h; repeat' (first | with_reducible (split at h) | dsimp only at h | split at h)
  all_goals (rw [← Host.Outcome.next.inj h]; constructor <;> (repeat' (first | with_reducible assumption | (simp only [kept_setReg, kept_setRegFld, kept_hostEmit, kept_raiseCause, kept_log, kept_recoverPart]; done) | (simp only [kept_setReg, kept_setRegFld, kept_hostEmit, kept_raiseCause, kept_log, kept_recoverPart, *]; done) | split | simp only [kept_setReg, kept_setRegFld, kept_hostEmit, kept_raiseCause, kept_log, kept_recoverPart] | simp only [kept_setReg, kept_setRegFld, kept_hostEmit, kept_raiseCause, kept_log, kept_recoverPart, *] | (with_reducible refine foldl_part _ _ _ ?_; intros) | (with_reducible refine (foldl_part _ _ _ ?_).trans ?_; intros) | (with_reducible refine foldl_pending _ _ _ ?_; intros) | (with_reducible refine (foldl_pending _ _ _ ?_).trans ?_; intros) | (with_reducible refine foldl2_part _ _ _ ?_; intros) | (with_reducible refine (foldl2_part _ _ _ ?_).trans ?_; intros) | (with_reducible refine foldl2_pending _ _ _ ?_; intros) | (with_reducible refine (foldl2_pending _ _ _ ?_).trans ?_; intros) | (with_reducible refine foldl3_part _ _ _ ?_; intros) | (with_reducible refine (foldl3_part _ _ _ ?_).trans ?_; intros) | (with_reducible refine foldl3_pending _ _ _ ?_; intros) | (with_reducible refine (foldl3_pending _ _ _ ?_).trans ?_; intros) | dsimp only)))

/-! ## Exchange -/

theorem kept_queueRec (s : State) (slot kind l : Nat) (plus : Bool) (k : Nat) (r : GRec) : (queueRec s slot kind l plus k r).part = s.part ∧ (queueRec s slot kind l plus k r).pending = s.pending := by
  unfold queueRec; constructor <;> simp only [kept_modGrp]

theorem kept_gatherOut (s : State) (slot l k : Nat) (r : GRec) : (gatherOut s slot l k r).part = s.part ∧ (gatherOut s slot l k r).pending = s.pending := by
  unfold gatherOut; constructor <;> (repeat' (first | with_reducible rfl | (simp only [kept_queueRec]; done) | split | (with_reducible refine foldl_part _ _ _ ?_; intros) | (with_reducible refine (foldl_part _ _ _ ?_).trans ?_; intros) | (with_reducible refine foldl_pending _ _ _ ?_; intros) | (with_reducible refine (foldl_pending _ _ _ ?_).trans ?_; intros)))

theorem kept_haveFinal (s : State) (slot l k : Nat) (r : GRec) : (haveFinal s slot l k r).part = s.part ∧ (haveFinal s slot l k r).pending = s.pending := by
  unfold haveFinal; constructor <;> (repeat' (first | with_reducible rfl | (simp only [kept_finalBlock, kept_gatherOut]; done) | split | (with_reducible refine foldl_part _ _ _ ?_; intros) | (with_reducible refine (foldl_part _ _ _ ?_).trans ?_; intros) | (with_reducible refine foldl_pending _ _ _ ?_; intros) | (with_reducible refine (foldl_pending _ _ _ ?_).trans ?_; intros)))

theorem kept_ownerStep (s : State) (slot l k : Nat) (own : GRec) (next : State → State) (hnext : ∀ y0, (next y0).part = y0.part ∧ (next y0).pending = y0.pending) : (ownerStep s slot l k own next).part = s.part ∧ (ownerStep s slot l k own next).pending = s.pending := by
  unfold ownerStep; constructor <;> (repeat' (first | with_reducible assumption | (simp only [kept_modGrp, kept_relBlock, kept_haveFinal, hnext]; done) | (simp only [kept_modGrp, kept_relBlock, kept_haveFinal, hnext, *]; done) | split | simp only [kept_modGrp, kept_relBlock, kept_haveFinal, hnext] | simp only [kept_modGrp, kept_relBlock, kept_haveFinal, hnext, *] | (with_reducible refine foldl_part _ _ _ ?_; intros) | (with_reducible refine (foldl_part _ _ _ ?_).trans ?_; intros) | (with_reducible refine foldl_pending _ _ _ ?_; intros) | (with_reducible refine (foldl_pending _ _ _ ?_).trans ?_; intros) | (with_reducible refine foldl2_part _ _ _ ?_; intros) | (with_reducible refine (foldl2_part _ _ _ ?_).trans ?_; intros) | (with_reducible refine foldl2_pending _ _ _ ?_; intros) | (with_reducible refine (foldl2_pending _ _ _ ?_).trans ?_; intros) | (with_reducible refine foldl3_part _ _ _ ?_; intros) | (with_reducible refine (foldl3_part _ _ _ ?_).trans ?_; intros) | (with_reducible refine foldl3_pending _ _ _ ?_; intros) | (with_reducible refine (foldl3_pending _ _ _ ?_).trans ?_; intros) | dsimp only))

theorem kept_wayStep (s : State) (slot l k : Nat) (own : GRec) : (wayStep s slot l k own).part = s.part ∧ (wayStep s slot l k own).pending = s.pending := by
  unfold wayStep; constructor <;> (repeat' (first | with_reducible rfl | (simp only [kept_modGrp, kept_queueRec]; done) | split | (with_reducible refine foldl_part _ _ _ ?_; intros) | (with_reducible refine (foldl_part _ _ _ ?_).trans ?_; intros) | (with_reducible refine foldl_pending _ _ _ ?_; intros) | (with_reducible refine (foldl_pending _ _ _ ?_).trans ?_; intros)))

theorem kept_blockStep (a0 : Nat) (a1 : State) (a2 : Nat) (a3 : Nat) (a4 : Nat) : (blockStep a0 a1 a2 a3 a4).part = a1.part ∧ (blockStep a0 a1 a2 a3 a4).pending = a1.pending := by
  induction a0 generalizing a1 a2 a3 a4 with
  | zero => exact ⟨rfl, rfl⟩
  | succ n ih =>
    unfold blockStep; repeat' split
    all_goals first
      | exact ⟨rfl, rfl⟩
      | exact kept_ownerStep _ _ _ _ _ _ (fun y => ih _ _ _ _)
      | (simp only [kept_wayStep, ih, and_self]; done)
      | (constructor <;> repeat' (first | (simp only [kept_wayStep, ih]; done) | split | dsimp only))

theorem kept_grxMove (s : State) (slot : Nat) : (grxMove s slot).part = s.part ∧ (grxMove s slot).pending = s.pending := by
  unfold grxMove; constructor <;> simp only [kept_pumpAll, kept_resultAll]

theorem kept_feedRecord (s : State) (g : Grp) (k : Nat) : (feedRecord s g k).2.2.part = s.part ∧ (feedRecord s g k).2.2.pending = s.pending := by
  unfold feedRecord; constructor <;> simp only [kept_scaleFetch, kept_residueBlock]

theorem kept_feedRecords (a0 : Nat) (a1 : State) (a2 : Grp) (a3 : Nat) : (feedRecords a0 a1 a2 a3).2.2.part = a1.part ∧ (feedRecords a0 a1 a2 a3).2.2.pending = a1.pending := by
  induction a0 generalizing a1 a2 a3
  all_goals (unfold feedRecords; constructor <;> (repeat' (first | with_reducible assumption | (simp only [kept_feedRecord]; done) | (simp only [kept_feedRecord, *]; done) | split | simp only [kept_feedRecord] | simp only [kept_feedRecord, *] | dsimp only)))

theorem kept_feedPoison (s : State) (g : Grp) (stack k0 : Nat) (ks : List Nat) : (feedPoison s g stack k0 ks).part = s.part ∧ (feedPoison s g stack k0 ks).pending = s.pending := by
  unfold feedPoison; constructor <;> (repeat' (first | with_reducible rfl | (simp only [kept_setPoison]; done) | split | (with_reducible refine foldl_part _ _ _ ?_; intros) | (with_reducible refine (foldl_part _ _ _ ?_).trans ?_; intros) | (with_reducible refine foldl_pending _ _ _ ?_; intros) | (with_reducible refine (foldl_pending _ _ _ ?_).trans ?_; intros)))

theorem kept_feedPump (a0 : Nat) (a1 : State) (a2 : Nat) : (feedPump a0 a1 a2).part = a1.part ∧ (feedPump a0 a1 a2).pending = a1.pending := by
  induction a0 generalizing a1 a2
  all_goals (unfold feedPump; constructor <;> (repeat' (first | with_reducible assumption | (simp only [kept_modGrp, kept_engineProduce, kept_feedRecords, kept_feedPoison]; done) | (simp only [kept_modGrp, kept_engineProduce, kept_feedRecords, kept_feedPoison, *]; done) | split | simp only [kept_modGrp, kept_engineProduce, kept_feedRecords, kept_feedPoison] | simp only [kept_modGrp, kept_engineProduce, kept_feedRecords, kept_feedPoison, *] | dsimp only)))

theorem kept_execFeedWrite (g : Fin 16) (s : State) : ∀ t, execFeedWrite g s = .next t → t.part = s.part ∧ t.pending = s.pending := by
  intro t h; unfold execFeedWrite at h; repeat' (first | split at h | dsimp only at h)
  all_goals (rw [← Host.Outcome.next.inj h]; constructor <;> (repeat' (first | with_reducible rfl | (simp only [kept_feedPump]; done) | split)))

theorem kept_encEnter (s : State) (slot : Nat) (b : List Byte) (bad whole : Bool) : (encEnter s slot b bad whole).part = s.part ∧ (encEnter s slot b bad whole).pending = s.pending := by
  unfold encEnter; constructor <;> (repeat' (first | with_reducible assumption | (simp only [kept_modGrp, kept_residueWrite, kept_blockStep]; done) | (simp only [kept_modGrp, kept_residueWrite, kept_blockStep, *]; done) | split | simp only [kept_modGrp, kept_residueWrite, kept_blockStep] | simp only [kept_modGrp, kept_residueWrite, kept_blockStep, *] | dsimp only))

theorem kept_execEncRecord (g : Fin 16) (s : State) : ∀ t, execEncRecord g s = .next t → t.part = s.part ∧ t.pending = s.pending := by
  intro t h; unfold execEncRecord at h; dsimp only at h; repeat' (split at h)
  all_goals (rw [← Host.Outcome.next.inj h]; try (constructor <;> simp only [kept_relRead, kept_modFlight, kept_flightEnd, kept_grxLog, kept_grxMove, kept_encEnter]))

theorem kept_scatterIn (s : State) (slot l : Nat) (plus : Bool) (k : Nat) (r : GRec) : (scatterIn s slot l plus k r).part = s.part ∧ (scatterIn s slot l plus k r).pending = s.pending := by
  unfold scatterIn; constructor <;> simp only [kept_modGrp, kept_blockStep]

theorem kept_gatherIn (s : State) (slot l : Nat) (plus : Bool) (k : Nat) (r : GRec) : (gatherIn s slot l plus k r).part = s.part ∧ (gatherIn s slot l plus k r).pending = s.pending := by
  unfold gatherIn; constructor <;> (repeat' (first | with_reducible assumption | (simp only [kept_relBlock, kept_queueRec, kept_haveFinal]; done) | (simp only [kept_relBlock, kept_queueRec, kept_haveFinal, *]; done) | split | simp only [kept_relBlock, kept_queueRec, kept_haveFinal] | simp only [kept_relBlock, kept_queueRec, kept_haveFinal, *] | dsimp only))

theorem kept_unitIn (s : State) (port slot : Nat) (plus : Bool) (u : GUnit) : (unitIn s port slot plus u).part = s.part ∧ (unitIn s port slot plus u).pending = s.pending := by
  unfold unitIn; constructor <;> (repeat' (first | with_reducible assumption | (simp only [kept_modGrp, kept_grxBroken, kept_grxMove, kept_scatterIn, kept_gatherIn]; done) | (simp only [kept_modGrp, kept_grxBroken, kept_grxMove, kept_scatterIn, kept_gatherIn, *]; done) | split | simp only [kept_modGrp, kept_grxBroken, kept_grxMove, kept_scatterIn, kept_gatherIn] | simp only [kept_modGrp, kept_grxBroken, kept_grxMove, kept_scatterIn, kept_gatherIn, *] | (with_reducible refine foldl_part _ _ _ ?_; intros) | (with_reducible refine (foldl_part _ _ _ ?_).trans ?_; intros) | (with_reducible refine foldl_pending _ _ _ ?_; intros) | (with_reducible refine (foldl_pending _ _ _ ?_).trans ?_; intros) | (with_reducible refine foldl2_part _ _ _ ?_; intros) | (with_reducible refine (foldl2_part _ _ _ ?_).trans ?_; intros) | (with_reducible refine foldl2_pending _ _ _ ?_; intros) | (with_reducible refine (foldl2_pending _ _ _ ?_).trans ?_; intros) | (with_reducible refine foldl3_part _ _ _ ?_; intros) | (with_reducible refine (foldl3_part _ _ _ ?_).trans ?_; intros) | (with_reducible refine foldl3_pending _ _ _ ?_; intros) | (with_reducible refine (foldl3_pending _ _ _ ?_).trans ?_; intros) | dsimp only))

theorem kept_fingerIn (s : State) (slot dim : Nat) (plus : Bool) (fp : Nat) : (fingerIn s slot dim plus fp).part = s.part ∧ (fingerIn s slot dim plus fp).pending = s.pending := by
  unfold fingerIn; constructor <;> (repeat' (first | with_reducible rfl | (simp only [kept_modGrp, kept_grxBroken]; done) | split))

theorem kept_grxUnit (s : State) (port : Nat) (u : LinkUnit) : (grxUnit s port u).part = s.part ∧ (grxUnit s port u).pending = s.pending := by
  unfold grxUnit; constructor <;> (repeat' (first | with_reducible assumption | (simp only [kept_grxBroken, kept_unitIn, kept_fingerIn]; done) | (simp only [kept_grxBroken, kept_unitIn, kept_fingerIn, *]; done) | split | simp only [kept_grxBroken, kept_unitIn, kept_fingerIn] | simp only [kept_grxBroken, kept_unitIn, kept_fingerIn, *] | dsimp only))

theorem kept_execReductionCredit (port : Fin 12) (slot : Fin 16) (dim : Fin 4) (plus : Bool) (n : Nat) (s : State) : ∀ t, execReductionCredit port slot dim plus n s = .next t → t.part = s.part ∧ t.pending = s.pending := by
  intro t h; unfold execReductionCredit at h; repeat' (first | split at h | dsimp only at h)
  all_goals (rw [← Host.Outcome.next.inj h]; constructor <;> (repeat' (first | with_reducible rfl | (simp only [kept_took, kept_modGrp, kept_grxMove]; done) | split)))

theorem kept_execGrxPartBlocksWrite (fn : Fin 18) (p : Fin 16) (v : W64) (s : State) : ∀ t, execGrxPartBlocksWrite fn p v s = .next t → t.part = s.part ∧ t.pending = s.pending := by
  intro t h; unfold execGrxPartBlocksWrite at h; dsimp only at h; repeat' (split at h)
  all_goals (rw [← Host.Outcome.next.inj h]; try (constructor <;> simp only [kept_setReg, kept_log]))

/-! ## Format -/

theorem kept_selectLayer (s : State) (p e step : Nat) (layer : Nat) : (selectLayer s p e step layer).part = s.part ∧ (selectLayer s p e step layer).pending = s.pending := by
  unfold selectLayer; split
  · extract_lets b s' s0 w ring g cur run narrower run1 next s1 s2 s3
    split
    · exact ⟨rfl, rfl⟩
    · have h' : s'.part = s.part ∧ s'.pending = s.pending := by simp only [s', kept_relTouch, and_self]
      have h0 : s0.part = s.part ∧ s0.pending = s.pending := by unfold s0; split <;> simp only [kept_relWrite, h', and_self]
      have h1 : s1.part = s.part ∧ s1.pending = s.pending := by
        unfold s1
        refine ⟨(kept_relWrite ..).1.trans ((foldl_part _ _ _ ?_).trans h0.1), (kept_relWrite ..).2.trans ((foldl_pending _ _ _ ?_).trans h0.2)⟩ <;>
          intros <;> simp only [kept_relTouch]
      have h2 : s2.part = s.part ∧ s2.pending = s.pending := by unfold s2; split <;> simp only [kept_relWrite, h1, and_self]
      split <;> simp only [s3, kept_log, kept_relWrite, h2, and_self]
  · exact ⟨rfl, rfl⟩

theorem kept_selectFormats (s : State) (p : Nat) : (selectFormats s p).part = s.part ∧ (selectFormats s p).pending = s.pending := by
  unfold selectFormats; constructor <;> (repeat' (first | with_reducible rfl | (simp only [kept_selectLayer]; done) | split | (with_reducible refine foldl_part _ _ _ ?_; intros) | (with_reducible refine (foldl_part _ _ _ ?_).trans ?_; intros) | (with_reducible refine foldl_pending _ _ _ ?_; intros) | (with_reducible refine (foldl_pending _ _ _ ?_).trans ?_; intros)))

/-! ## Seal -/

theorem kept_sealSend (s : State) (p dst : Nat) (m : SealMsg) : (sealSend s p dst m).part = s.part ∧ (sealSend s p dst m).pending = s.pending := by
  unfold sealSend; constructor <;> simp only [kept_fabSend]

theorem kept_recDecision (s : State) (p k step sealed reason : Nat) : (recDecision s p k step sealed reason).part = s.part ∧ (recDecision s p k step sealed reason).pending = s.pending := by
  unfold recDecision; constructor <;> simp only [kept_recInput]

theorem kept_writeOutcome (s : State) (p code : Nat) : (writeOutcome s p code).part = s.part ∧ (writeOutcome s p code).pending = s.pending := by
  unfold writeOutcome; constructor <;> (repeat' (first | with_reducible rfl | (simp only [kept_relWrite]; done) | split))

theorem kept_sealPulse (s : State) (p : Nat) : (sealPulse s p).part = s.part ∧ (sealPulse s p).pending = s.pending := by
  unfold sealPulse; constructor <;> (repeat' (first | with_reducible rfl | (simp only [kept_emit, kept_modGpx]; done) | split | (with_reducible refine foldl_part _ _ _ ?_; intros) | (with_reducible refine (foldl_part _ _ _ ?_).trans ?_; intros) | (with_reducible refine foldl_pending _ _ _ ?_; intros) | (with_reducible refine (foldl_pending _ _ _ ?_).trans ?_; intros)))

theorem kept_stepAfter (s : State) (p k : Nat) : (stepAfter s p k).part = s.part ∧ (stepAfter s p k).pending = s.pending := by
  unfold stepAfter; constructor <;> (repeat' (first | with_reducible rfl | (simp only [kept_modStep, kept_modCurProg, kept_modRec, kept_stepBoundary]; done) | split))

theorem kept_applySeal (s : State) (p k : Nat) : (applySeal s p k).part = s.part ∧ (applySeal s p k).pending = s.pending := by
  unfold applySeal; constructor <;> (repeat' (first | with_reducible rfl | (simp only [kept_setReg, kept_modCurProg, kept_raiseBoth, kept_relWrite, kept_modRec, kept_selectFormats, kept_recDecision, kept_writeOutcome, kept_sealPulse, kept_stepAfter]; done) | split))

theorem kept_applyAbort (s : State) (p k reason : Nat) : (applyAbort s p k reason).part = s.part ∧ (applyAbort s p k reason).pending = s.pending := by
  unfold applyAbort; constructor <;> simp only [kept_raiseBoth, kept_log, kept_abortStep, kept_modRec, kept_recDecision, kept_writeOutcome, kept_stepAfter]

theorem kept_tellKids (s : State) (p key : Nat) (m : SealMsg) : (tellKids s p key m).part = s.part ∧ (tellKids s p key m).pending = s.pending := by
  unfold tellKids; constructor <;> (repeat' (first | with_reducible rfl | (simp only [kept_modSeal, kept_sealSend]; done) | split | (with_reducible refine foldl_part _ _ _ ?_; intros) | (with_reducible refine (foldl_part _ _ _ ?_).trans ?_; intros) | (with_reducible refine foldl_pending _ _ _ ?_; intros) | (with_reducible refine (foldl_pending _ _ _ ?_).trans ?_; intros)))

theorem kept_decideAbort (s : State) (p k reason : Nat) : (decideAbort s p k reason).part = s.part ∧ (decideAbort s p k reason).pending = s.pending := by
  unfold decideAbort; constructor <;> simp only [kept_modRec, kept_applyAbort, kept_tellKids]

theorem kept_issueSeal (s : State) (p k : Nat) : (issueSeal s p k).part = s.part ∧ (issueSeal s p k).pending = s.pending := by
  unfold issueSeal; constructor <;> simp only [kept_modRec, kept_applySeal, kept_tellKids]

theorem kept_decideSeal (s : State) (p k : Nat) : (decideSeal s p k).part = s.part ∧ (decideSeal s p k).pending = s.pending := by
  unfold decideSeal; constructor <;> (repeat' (first | with_reducible assumption | (simp only [kept_modRec, kept_sealSend, kept_decideAbort, kept_issueSeal]; done) | (simp only [kept_modRec, kept_sealSend, kept_decideAbort, kept_issueSeal, *]; done) | split | simp only [kept_modRec, kept_sealSend, kept_decideAbort, kept_issueSeal] | simp only [kept_modRec, kept_sealSend, kept_decideAbort, kept_issueSeal, *] | dsimp only))

theorem kept_rootDecide (s : State) (p k : Nat) : (rootDecide s p k).part = s.part ∧ (rootDecide s p k).pending = s.pending := by
  unfold rootDecide; constructor <;> (repeat' (first | with_reducible assumption | (simp only [kept_modSeal, kept_decideAbort, kept_decideSeal]; done) | (simp only [kept_modSeal, kept_decideAbort, kept_decideSeal, *]; done) | split | simp only [kept_modSeal, kept_decideAbort, kept_decideSeal] | simp only [kept_modSeal, kept_decideAbort, kept_decideSeal, *] | dsimp only))

theorem kept_takeReady (s : State) (key : Nat) (m : ReadyMsg) : (takeReady s key m).part = s.part ∧ (takeReady s key m).pending = s.pending := by
  unfold takeReady; constructor <;> simp only [kept_modSeal]

theorem kept_sendUp (s : State) (p k : Nat) : (sendUp s p k).part = s.part ∧ (sendUp s p k).pending = s.pending := by
  unfold sendUp; constructor <;> (repeat' (first | with_reducible assumption | (simp only [kept_scaleFlush, kept_modRec, kept_sealSend, kept_rootDecide]; done) | (simp only [kept_scaleFlush, kept_modRec, kept_sealSend, kept_rootDecide, *]; done) | split | simp only [kept_scaleFlush, kept_modRec, kept_sealSend, kept_rootDecide] | simp only [kept_scaleFlush, kept_modRec, kept_sealSend, kept_rootDecide, *] | dsimp only))

theorem kept_sendFailed (s : State) (p k code origin : Nat) : (sendFailed s p k code origin).part = s.part ∧ (sendFailed s p k code origin).pending = s.pending := by
  unfold sendFailed; constructor <;> simp only [kept_takeReady, kept_sendUp]

theorem kept_backupTakes (s : State) (p k : Nat) : (backupTakes s p k).part = s.part ∧ (backupTakes s p k).pending = s.pending := by
  unfold backupTakes; constructor <;> (repeat' (first | with_reducible assumption | (simp only [kept_modSeal, kept_decideAbort, kept_issueSeal]; done) | (simp only [kept_modSeal, kept_decideAbort, kept_issueSeal, *]; done) | split | simp only [kept_modSeal, kept_decideAbort, kept_issueSeal] | simp only [kept_modSeal, kept_decideAbort, kept_issueSeal, *] | dsimp only))

theorem kept_absorb (s : State) (key : Nat) : (absorb s key).part = s.part ∧ (absorb s key).pending = s.pending := by
  unfold absorb; constructor <;> (repeat' (first | with_reducible assumption | (simp only [kept_modSeal, kept_takeReady]; done) | (simp only [kept_modSeal, kept_takeReady, *]; done) | split | simp only [kept_modSeal, kept_takeReady] | simp only [kept_modSeal, kept_takeReady, *] | (with_reducible refine foldl_part _ _ _ ?_; intros) | (with_reducible refine (foldl_part _ _ _ ?_).trans ?_; intros) | (with_reducible refine foldl_pending _ _ _ ?_; intros) | (with_reducible refine (foldl_pending _ _ _ ?_).trans ?_; intros) | (with_reducible refine foldl2_part _ _ _ ?_; intros) | (with_reducible refine (foldl2_part _ _ _ ?_).trans ?_; intros) | (with_reducible refine foldl2_pending _ _ _ ?_; intros) | (with_reducible refine (foldl2_pending _ _ _ ?_).trans ?_; intros) | (with_reducible refine foldl3_part _ _ _ ?_; intros) | (with_reducible refine (foldl3_part _ _ _ ?_).trans ?_; intros) | (with_reducible refine foldl3_pending _ _ _ ?_; intros) | (with_reducible refine (foldl3_pending _ _ _ ?_).trans ?_; intros) | dsimp only))

theorem kept_tryReady (s : State) (p : Nat) : (tryReady s p).part = s.part ∧ (tryReady s p).pending = s.pending := by
  unfold tryReady; constructor <;> (repeat' (first | with_reducible assumption | (simp only [kept_takeReady, kept_sendUp, kept_sendFailed, kept_backupTakes, kept_absorb]; done) | (simp only [kept_takeReady, kept_sendUp, kept_sendFailed, kept_backupTakes, kept_absorb, *]; done) | split | simp only [kept_takeReady, kept_sendUp, kept_sendFailed, kept_backupTakes, kept_absorb] | simp only [kept_takeReady, kept_sendUp, kept_sendFailed, kept_backupTakes, kept_absorb, *] | dsimp only))

theorem kept_execSendReady (p : Fin 16) (s : State) : ∀ t, execSendReady p s = .next t → t.part = s.part ∧ t.pending = s.pending := by
  intro t h; unfold execSendReady at h; repeat' (first | split at h | dsimp only at h)
  all_goals (rw [← Host.Outcome.next.inj h]; constructor <;> (repeat' (first | with_reducible rfl | (simp only [kept_tryReady]; done) | split)))

theorem kept_sealArrive (s : State) (port : Nat) (dst src p : Nat) (m : SealMsg) (f : State → State) (hf : ∀ y0, (f y0).part = y0.part ∧ (f y0).pending = y0.pending) : (sealArrive s port dst src p m f).part = s.part ∧ (sealArrive s port dst src p m f).pending = s.pending := by
  unfold sealArrive; constructor <;> (repeat' (first | with_reducible assumption | (simp only [kept_hopIn, hf]; done) | (simp only [kept_hopIn, hf, *]; done) | split | simp only [kept_hopIn, hf] | simp only [kept_hopIn, hf, *] | dsimp only))

theorem kept_readyIn (s : State) (p child : Nat) (m : ReadyMsg) : (readyIn s p child m).part = s.part ∧ (readyIn s p child m).pending = s.pending := by
  unfold readyIn; constructor <;> (repeat' (first | with_reducible assumption | (simp only [kept_modSeal, kept_sealSend, kept_rootDecide, kept_takeReady, kept_sendUp, kept_tryReady]; done) | (simp only [kept_modSeal, kept_sealSend, kept_rootDecide, kept_takeReady, kept_sendUp, kept_tryReady, *]; done) | split | simp only [kept_modSeal, kept_sealSend, kept_rootDecide, kept_takeReady, kept_sendUp, kept_tryReady] | simp only [kept_modSeal, kept_sealSend, kept_rootDecide, kept_takeReady, kept_sendUp, kept_tryReady, *] | dsimp only))

theorem kept_execReady (hop : SealHop) (child : Nat) (m : ReadyMsg) (s : State) : ∀ t, execReady hop child m s = .next t → t.part = s.part ∧ t.pending = s.pending := by
  intro t h; unfold execReady at h; repeat' (first | split at h | dsimp only at h)
  all_goals (rw [← Host.Outcome.next.inj h]; constructor <;> (repeat' (first | with_reducible rfl | (simp only [kept_readyIn]; done) | (with_reducible refine (kept_sealArrive _ _ _ _ _ _ _ ?_).1.trans ?_ <;> intros) | (with_reducible refine (kept_sealArrive _ _ _ _ _ _ _ ?_).2.trans ?_ <;> intros) | (with_reducible refine (kept_sealArrive _ _ _ _ _ _ _ ?_).1 <;> intros) | (with_reducible refine (kept_sealArrive _ _ _ _ _ _ _ ?_).2 <;> intros) | (refine ⟨?_, ?_⟩) | split)))

theorem kept_sendQuery (s : State) (p k : Nat) : (sendQuery s p k).part = s.part ∧ (sendQuery s p k).pending = s.pending := by
  unfold sendQuery; constructor <;> (repeat' (first | with_reducible assumption | (simp only [kept_sealSend]; done) | (simp only [kept_sealSend, *]; done) | split | simp only [kept_sealSend] | simp only [kept_sealSend, *] | dsimp only))

theorem kept_takeDecision (s : State) (p k step : Nat) (m : SealMsg) (apply : State → State) (happly : ∀ y0, (apply y0).part = y0.part ∧ (apply y0).pending = y0.pending) : (takeDecision s p k step m apply).part = s.part ∧ (takeDecision s p k step m apply).pending = s.pending := by
  unfold takeDecision; constructor <;> (repeat' (first | with_reducible assumption | (simp only [kept_sealSend, kept_tellKids, kept_sendQuery, happly]; done) | (simp only [kept_sealSend, kept_tellKids, kept_sendQuery, happly, *]; done) | split | simp only [kept_sealSend, kept_tellKids, kept_sendQuery, happly] | simp only [kept_sealSend, kept_tellKids, kept_sendQuery, happly, *] | dsimp only))

theorem kept_sealIn (s : State) (p src step : Nat) : (sealIn s p src step).part = s.part ∧ (sealIn s p src step).pending = s.pending := by
  unfold sealIn; constructor <;> (repeat' (first | with_reducible assumption | (simp only [kept_modRec, kept_sealSend, kept_applySeal]; done) | (simp only [kept_modRec, kept_sealSend, kept_applySeal, *]; done) | (with_reducible refine (kept_takeDecision _ _ _ _ _ _ ?_).1.trans ?_ <;> intros) | (with_reducible refine (kept_takeDecision _ _ _ _ _ _ ?_).2.trans ?_ <;> intros) | (with_reducible refine (kept_takeDecision _ _ _ _ _ _ ?_).1 <;> intros) | (with_reducible refine (kept_takeDecision _ _ _ _ _ _ ?_).2 <;> intros) | (refine ⟨?_, ?_⟩) | split | simp only [kept_modRec, kept_sealSend, kept_applySeal] | simp only [kept_modRec, kept_sealSend, kept_applySeal, *] | dsimp only))

theorem kept_execSealStep (hop : SealHop) (src step : Nat) (s : State) : ∀ t, execSealStep hop src step s = .next t → t.part = s.part ∧ t.pending = s.pending := by
  intro t h; unfold execSealStep at h; repeat' (first | split at h | dsimp only at h)
  all_goals (rw [← Host.Outcome.next.inj h]; constructor <;> (repeat' (first | with_reducible rfl | (simp only [kept_sealIn]; done) | (with_reducible refine (kept_sealArrive _ _ _ _ _ _ _ ?_).1.trans ?_ <;> intros) | (with_reducible refine (kept_sealArrive _ _ _ _ _ _ _ ?_).2.trans ?_ <;> intros) | (with_reducible refine (kept_sealArrive _ _ _ _ _ _ _ ?_).1 <;> intros) | (with_reducible refine (kept_sealArrive _ _ _ _ _ _ _ ?_).2 <;> intros) | (refine ⟨?_, ?_⟩) | split)))

theorem kept_execSealAck (hop : SealHop) (m : StepFrom) (s : State) : ∀ t, execSealAck hop m s = .next t → t.part = s.part ∧ t.pending = s.pending := by
  intro t h; unfold execSealAck at h; repeat' (first | split at h | dsimp only at h)
  all_goals (rw [← Host.Outcome.next.inj h]; constructor <;> (repeat' (first | with_reducible rfl | (simp only [kept_issueSeal]; done) | (with_reducible refine (kept_sealArrive _ _ _ _ _ _ _ ?_).1.trans ?_ <;> intros) | (with_reducible refine (kept_sealArrive _ _ _ _ _ _ _ ?_).2.trans ?_ <;> intros) | (with_reducible refine (kept_sealArrive _ _ _ _ _ _ _ ?_).1 <;> intros) | (with_reducible refine (kept_sealArrive _ _ _ _ _ _ _ ?_).2 <;> intros) | (refine ⟨?_, ?_⟩) | split)))

theorem kept_execAbort (hop : SealHop) (src : Nat) (m : AbortMsg) (s : State) : ∀ t, execAbort hop src m s = .next t → t.part = s.part ∧ t.pending = s.pending := by
  intro t h; unfold execAbort at h; repeat' (first | split at h | dsimp only at h)
  all_goals (rw [← Host.Outcome.next.inj h]; constructor <;> (repeat' (first | with_reducible rfl | (simp only [kept_applyAbort]; done) | (with_reducible refine (kept_sealArrive _ _ _ _ _ _ _ ?_).1.trans ?_ <;> intros) | (with_reducible refine (kept_sealArrive _ _ _ _ _ _ _ ?_).2.trans ?_ <;> intros) | (with_reducible refine (kept_sealArrive _ _ _ _ _ _ _ ?_).1 <;> intros) | (with_reducible refine (kept_sealArrive _ _ _ _ _ _ _ ?_).2 <;> intros) | (refine ⟨?_, ?_⟩) | (with_reducible refine (kept_takeDecision _ _ _ _ _ _ ?_).1.trans ?_ <;> intros) | (with_reducible refine (kept_takeDecision _ _ _ _ _ _ ?_).2.trans ?_ <;> intros) | (with_reducible refine (kept_takeDecision _ _ _ _ _ _ ?_).1 <;> intros) | (with_reducible refine (kept_takeDecision _ _ _ _ _ _ ?_).2 <;> intros) | (refine ⟨?_, ?_⟩) | split)))

theorem kept_execDecisionAck (hop : SealHop) (child step : Nat) (s : State) : ∀ t, execDecisionAck hop child step s = .next t → t.part = s.part ∧ t.pending = s.pending := by
  intro t h; unfold execDecisionAck at h; repeat' (first | split at h | dsimp only at h)
  all_goals (rw [← Host.Outcome.next.inj h]; constructor <;> (repeat' (first | with_reducible rfl | (simp only [kept_modSeal]; done) | (with_reducible refine (kept_sealArrive _ _ _ _ _ _ _ ?_).1.trans ?_ <;> intros) | (with_reducible refine (kept_sealArrive _ _ _ _ _ _ _ ?_).2.trans ?_ <;> intros) | (with_reducible refine (kept_sealArrive _ _ _ _ _ _ _ ?_).1 <;> intros) | (with_reducible refine (kept_sealArrive _ _ _ _ _ _ _ ?_).2 <;> intros) | (refine ⟨?_, ?_⟩) | split)))

theorem kept_queryIn (s : State) (p src : Nat) (step : Option Nat) : (queryIn s p src step).part = s.part ∧ (queryIn s p src step).pending = s.pending := by
  unfold queryIn; constructor <;> (repeat' (first | with_reducible assumption | (simp only [kept_sealSend]; done) | (simp only [kept_sealSend, *]; done) | split | simp only [kept_sealSend] | simp only [kept_sealSend, *] | dsimp only))

theorem kept_execDecisionQuery (hop : SealHop) (src : Nat) (step : Option Nat) (s : State) : ∀ t, execDecisionQuery hop src step s = .next t → t.part = s.part ∧ t.pending = s.pending := by
  intro t h; unfold execDecisionQuery at h; repeat' (first | split at h | dsimp only at h)
  all_goals (rw [← Host.Outcome.next.inj h]; constructor <;> (repeat' (first | with_reducible rfl | (simp only [kept_queryIn]; done) | (with_reducible refine (kept_sealArrive _ _ _ _ _ _ _ ?_).1.trans ?_ <;> intros) | (with_reducible refine (kept_sealArrive _ _ _ _ _ _ _ ?_).2.trans ?_ <;> intros) | (with_reducible refine (kept_sealArrive _ _ _ _ _ _ _ ?_).1 <;> intros) | (with_reducible refine (kept_sealArrive _ _ _ _ _ _ _ ?_).2 <;> intros) | (refine ⟨?_, ?_⟩) | split)))

theorem kept_startCopy (s : State) (p k epoch : Nat) : (startCopy s p k epoch).part = s.part ∧ (startCopy s p k epoch).pending = s.pending := by
  unfold startCopy; constructor <;> (repeat' (first | with_reducible rfl | (simp only [kept_modSeal, kept_log, kept_modRec, kept_sealSend]; done) | split))

theorem kept_answerLost (s : State) (p k step : Nat) (d : Decision) (epoch : Nat) : (answerLost s p k step d epoch).part = s.part ∧ (answerLost s p k step d epoch).pending = s.pending := by
  unfold answerLost; constructor <;> (repeat' (first | with_reducible rfl | (simp only [kept_modSeal, kept_modCurProg, kept_sealSend, kept_startCopy]; done) | split))

theorem kept_answerIn (s : State) (p step : Nat) (d : Decision) (epoch now : Nat) : (answerIn s p step d epoch now).part = s.part ∧ (answerIn s p step d epoch now).pending = s.pending := by
  unfold answerIn; constructor <;> (repeat' (first | with_reducible assumption | (simp only [kept_modSeal, kept_freshWord, kept_applySeal, kept_applyAbort, kept_sendFailed, kept_answerLost]; done) | (simp only [kept_modSeal, kept_freshWord, kept_applySeal, kept_applyAbort, kept_sendFailed, kept_answerLost, *]; done) | split | simp only [kept_modSeal, kept_freshWord, kept_applySeal, kept_applyAbort, kept_sendFailed, kept_answerLost] | simp only [kept_modSeal, kept_freshWord, kept_applySeal, kept_applyAbort, kept_sendFailed, kept_answerLost, *] | dsimp only))

theorem kept_execDecisionAnswer (hop : SealHop) (src step : Nat) (m : DecisionMsg) (s : State) : ∀ t, execDecisionAnswer hop src step m s = .next t → t.part = s.part ∧ t.pending = s.pending := by
  intro t h; unfold execDecisionAnswer at h; repeat' (first | split at h | dsimp only at h)
  all_goals (rw [← Host.Outcome.next.inj h]; constructor <;> (repeat' (first | with_reducible rfl | (simp only [kept_answerIn]; done) | (with_reducible refine (kept_sealArrive _ _ _ _ _ _ _ ?_).1.trans ?_ <;> intros) | (with_reducible refine (kept_sealArrive _ _ _ _ _ _ _ ?_).2.trans ?_ <;> intros) | (with_reducible refine (kept_sealArrive _ _ _ _ _ _ _ ?_).1 <;> intros) | (with_reducible refine (kept_sealArrive _ _ _ _ _ _ _ ?_).2 <;> intros) | (refine ⟨?_, ?_⟩) | split)))

theorem kept_execRejoinCopyDone (p : Fin 16) (data : List Byte) (s : State) : ∀ t, execRejoinCopyDone p data s = .next t → t.part = s.part ∧ t.pending = s.pending := by
  intro t h; unfold execRejoinCopyDone at h
  split at h
  · extract_lets at h
    split at h
    · cases h; exact ⟨rfl, rfl⟩
    · (try extract_lets at h)
      rw [← Host.Outcome.next.inj h]
      constructor <;> (simp +zetaDelta only [kept_setReg, kept_modCurProg, kept_log, kept_relWrite, kept_scalePut, kept_modRec, kept_residueWrite, kept_stepBoundary])
      · refine (foldl_part _ _ _ ?_).trans ((foldl_part _ _ _ ?_).trans ?_) <;> intros <;> simp only [kept_setReg, kept_modCurProg, kept_log, kept_relWrite, kept_scalePut, kept_modRec, kept_residueWrite, kept_stepBoundary]
      · refine (foldl_pending _ _ _ ?_).trans ((foldl_pending _ _ _ ?_).trans ?_) <;> intros <;> simp only [kept_setReg, kept_modCurProg, kept_log, kept_relWrite, kept_scalePut, kept_modRec, kept_residueWrite, kept_stepBoundary]
  · cases h; exact ⟨rfl, rfl⟩

theorem kept_rejoinProg (s : State) (p k : Nat) : (rejoinProg s p k).part = s.part ∧ (rejoinProg s p k).pending = s.pending := by
  unfold rejoinProg; constructor <;> (repeat' (first | with_reducible assumption | (simp only [kept_modSeal, kept_applySeal, kept_issueSeal, kept_sendFailed, kept_sendQuery, kept_startCopy]; done) | (simp only [kept_modSeal, kept_applySeal, kept_issueSeal, kept_sendFailed, kept_sendQuery, kept_startCopy, *]; done) | split | simp only [kept_modSeal, kept_applySeal, kept_issueSeal, kept_sendFailed, kept_sendQuery, kept_startCopy] | simp only [kept_modSeal, kept_applySeal, kept_issueSeal, kept_sendFailed, kept_sendQuery, kept_startCopy, *] | dsimp only))

theorem kept_rejoinAll (s : State) : (rejoinAll s).part = s.part ∧ (rejoinAll s).pending = s.pending := by
  unfold rejoinAll; constructor <;> (repeat' (first | with_reducible rfl | (simp only [kept_rejoinProg]; done) | split | (with_reducible refine foldl_part _ _ _ ?_; intros) | (with_reducible refine (foldl_part _ _ _ ?_).trans ?_; intros) | (with_reducible refine foldl_pending _ _ _ ?_; intros) | (with_reducible refine (foldl_pending _ _ _ ?_).trans ?_; intros)))

theorem kept_sealRelinkP (s : State) (p : Nat) : (sealRelinkP s p).part = s.part ∧ (sealRelinkP s p).pending = s.pending := by
  unfold sealRelinkP; constructor <;> (repeat' (first | with_reducible assumption | (simp only [kept_sealSend, kept_decideAbort, kept_backupTakes, kept_tryReady]; done) | (simp only [kept_sealSend, kept_decideAbort, kept_backupTakes, kept_tryReady, *]; done) | split | simp only [kept_sealSend, kept_decideAbort, kept_backupTakes, kept_tryReady] | simp only [kept_sealSend, kept_decideAbort, kept_backupTakes, kept_tryReady, *] | (with_reducible refine foldl_part _ _ _ ?_; intros) | (with_reducible refine (foldl_part _ _ _ ?_).trans ?_; intros) | (with_reducible refine foldl_pending _ _ _ ?_; intros) | (with_reducible refine (foldl_pending _ _ _ ?_).trans ?_; intros) | (with_reducible refine foldl2_part _ _ _ ?_; intros) | (with_reducible refine (foldl2_part _ _ _ ?_).trans ?_; intros) | (with_reducible refine foldl2_pending _ _ _ ?_; intros) | (with_reducible refine (foldl2_pending _ _ _ ?_).trans ?_; intros) | (with_reducible refine foldl3_part _ _ _ ?_; intros) | (with_reducible refine (foldl3_part _ _ _ ?_).trans ?_; intros) | (with_reducible refine foldl3_pending _ _ _ ?_; intros) | (with_reducible refine (foldl3_pending _ _ _ ?_).trans ?_; intros) | dsimp only))

theorem kept_sealRelink (s : State) : (sealRelink s).part = s.part ∧ (sealRelink s).pending = s.pending := by
  unfold sealRelink; constructor <;> (repeat' (first | with_reducible rfl | (simp only [kept_sealRelinkP]; done) | split | (with_reducible refine foldl_part _ _ _ ?_; intros) | (with_reducible refine (foldl_part _ _ _ ?_).trans ?_; intros) | (with_reducible refine foldl_pending _ _ _ ?_; intros) | (with_reducible refine (foldl_pending _ _ _ ?_).trans ?_; intros)))

end Sys2Proof.Machine
end

