-- ==== Sys2Proof/Laws/KeptFabric.lean ====
section
/-! SUPPORT. The same of the fabric, clocks, vector unit, transfers, mesh, Tuning and programs. -/

namespace Sys2Proof.Machine

set_option linter.unusedSimpArgs false

/-! ## Fabric -/

theorem kept_portErr (s : State) (n hi lo k : Nat) : (portErr s n hi lo k).part = s.part ∧ (portErr s n hi lo k).pending = s.pending := by
  unfold portErr; constructor <;> simp only [kept_modReg]

theorem kept_lateSend (s : State) (idx : Nat) : (lateSend s idx).part = s.part ∧ (lateSend s idx).pending = s.pending := by
  unfold lateSend; constructor <;> simp only [kept_modRt, kept_unitsOut]

theorem kept_readmit (s : State) (idx : Nat) : (readmit s idx).part = s.part ∧ (readmit s idx).pending = s.pending := by
  have hk := kept_admitStart s idx (entryOf s idx)
  unfold readmit
  split <;> rename_i h <;> rw [h] at hk
  · exact hk
  · simp only [kept_lateSend]; exact hk

theorem kept_suspend (s : State) (idx : Nat) : (suspend s idx).part = s.part ∧ (suspend s idx).pending = s.pending := by
  unfold suspend; constructor <;> (repeat' (first | with_reducible assumption | (simp only [kept_modRt, kept_portTx, kept_dropHold, kept_fabStream, kept_readmit]; done) | (simp only [kept_modRt, kept_portTx, kept_dropHold, kept_fabStream, kept_readmit, *]; done) | split | simp only [kept_modRt, kept_portTx, kept_dropHold, kept_fabStream, kept_readmit] | simp only [kept_modRt, kept_portTx, kept_dropHold, kept_fabStream, kept_readmit, *] | dsimp only))

theorem kept_routeChange (a b : State) : (routeChange a b).part = b.part ∧ (routeChange a b).pending = b.pending := by
  unfold routeChange; constructor <;> (repeat' (first | with_reducible assumption | (simp only [kept_modRt, kept_peerLost, kept_sendAll, kept_sealRelink, kept_suspend]; done) | (simp only [kept_modRt, kept_peerLost, kept_sendAll, kept_sealRelink, kept_suspend, *]; done) | split | simp only [kept_modRt, kept_peerLost, kept_sendAll, kept_sealRelink, kept_suspend] | simp only [kept_modRt, kept_peerLost, kept_sendAll, kept_sealRelink, kept_suspend, *] | (with_reducible refine foldl_part _ _ _ ?_; intros) | (with_reducible refine (foldl_part _ _ _ ?_).trans ?_; intros) | (with_reducible refine foldl_pending _ _ _ ?_; intros) | (with_reducible refine (foldl_pending _ _ _ ?_).trans ?_; intros) | (with_reducible refine foldl2_part _ _ _ ?_; intros) | (with_reducible refine (foldl2_part _ _ _ ?_).trans ?_; intros) | (with_reducible refine foldl2_pending _ _ _ ?_; intros) | (with_reducible refine (foldl2_pending _ _ _ ?_).trans ?_; intros) | (with_reducible refine foldl3_part _ _ _ ?_; intros) | (with_reducible refine (foldl3_part _ _ _ ?_).trans ?_; intros) | (with_reducible refine foldl3_pending _ _ _ ?_; intros) | (with_reducible refine (foldl3_pending _ _ _ ?_).trans ?_; intros) | dsimp only))

theorem kept_noteBroken (s : State) (except : Option Nat) (l : Nat × Nat × Bool) : (noteBroken s except l).part = s.part ∧ (noteBroken s except l).pending = s.pending := by
  unfold noteBroken; constructor <;> (repeat' (first | with_reducible rfl | (simp only [kept_fabFlood]; done) | split))

theorem kept_noteWhole (s : State) (except : Option Nat) (l : Nat × Nat × Bool) : (noteWhole s except l).part = s.part ∧ (noteWhole s except l).pending = s.pending := by
  unfold noteWhole; constructor <;> (repeat' (first | with_reducible rfl | (simp only [kept_fabFlood]; done) | split))

theorem kept_dirLost (s : State) (n : Nat) : (dirLost s n).part = s.part ∧ (dirLost s n).pending = s.pending := by
  unfold dirLost; constructor <;> (repeat' (first | with_reducible assumption | (simp only [kept_noteBroken]; done) | (simp only [kept_noteBroken, *]; done) | split | simp only [kept_noteBroken] | simp only [kept_noteBroken, *] | dsimp only))

theorem kept_resend (s : State) (n : Nat) (m : Msg) : (resend s n m).part = s.part ∧ (resend s n m).pending = s.pending := by
  unfold resend; constructor <;> (repeat' (first | with_reducible rfl | (simp only [kept_portTx, kept_fabSend, kept_hopBack, kept_unitsOut, kept_grxBroken]; done) | split))

theorem kept_identGo (s : State) (n : Nat) : (identGo s n).part = s.part ∧ (identGo s n).pending = s.pending := by
  unfold identGo; constructor <;> (repeat' (first | with_reducible assumption | (simp only [kept_emit]; done) | (simp only [kept_emit, *]; done) | split | simp only [kept_emit] | simp only [kept_emit, *] | dsimp only))

theorem kept_portHolds (s : State) (n : Nat) : (portHolds s n).part = s.part ∧ (portHolds s n).pending = s.pending := by
  unfold portHolds; constructor <;> (repeat' (first | with_reducible rfl | (simp only [kept_portTx, kept_dropHold]; done) | split | (with_reducible refine foldl_part _ _ _ ?_; intros) | (with_reducible refine (foldl_part _ _ _ ?_).trans ?_; intros) | (with_reducible refine foldl_pending _ _ _ ?_; intros) | (with_reducible refine (foldl_pending _ _ _ ?_).trans ?_; intros)))

theorem kept_portLeave (s : State) (n : Nat) (q : Port) : (portLeave s n q).part = s.part ∧ (portLeave s n q).pending = s.pending := by
  unfold portLeave; constructor <;> (repeat' (first | with_reducible assumption | (simp only [kept_setPort, kept_grxBroken, kept_portErr, kept_routeChange, kept_dirLost, kept_resend, kept_identGo, kept_portHolds]; done) | (simp only [kept_setPort, kept_grxBroken, kept_portErr, kept_routeChange, kept_dirLost, kept_resend, kept_identGo, kept_portHolds, *]; done) | split | simp only [kept_setPort, kept_grxBroken, kept_portErr, kept_routeChange, kept_dirLost, kept_resend, kept_identGo, kept_portHolds] | simp only [kept_setPort, kept_grxBroken, kept_portErr, kept_routeChange, kept_dirLost, kept_resend, kept_identGo, kept_portHolds, *] | (with_reducible refine foldl_part _ _ _ ?_; intros) | (with_reducible refine (foldl_part _ _ _ ?_).trans ?_; intros) | (with_reducible refine foldl_pending _ _ _ ?_; intros) | (with_reducible refine (foldl_pending _ _ _ ?_).trans ?_; intros) | (with_reducible refine foldl2_part _ _ _ ?_; intros) | (with_reducible refine (foldl2_part _ _ _ ?_).trans ?_; intros) | (with_reducible refine foldl2_pending _ _ _ ?_; intros) | (with_reducible refine (foldl2_pending _ _ _ ?_).trans ?_; intros) | (with_reducible refine foldl3_part _ _ _ ?_; intros) | (with_reducible refine (foldl3_part _ _ _ ?_).trans ?_; intros) | (with_reducible refine foldl3_pending _ _ _ ?_; intros) | (with_reducible refine (foldl3_pending _ _ _ ?_).trans ?_; intros) | dsimp only))

theorem kept_portDown (s : State) (n st : Nat) (signal : Bool) : (portDown s n st signal).part = s.part ∧ (portDown s n st signal).pending = s.pending := by
  unfold portDown; constructor <;> (repeat' (first | with_reducible assumption | (simp only [kept_portLeave]; done) | (simp only [kept_portLeave, *]; done) | split | simp only [kept_portLeave] | simp only [kept_portLeave, *] | dsimp only))

theorem kept_portRetrain (s : State) (n : Nat) : (portRetrain s n).part = s.part ∧ (portRetrain s n).pending = s.pending := by
  unfold portRetrain; constructor <;> simp only [kept_portLeave]

theorem kept_portTrain (s : State) (n : Nat) : (portTrain s n).part = s.part ∧ (portTrain s n).pending = s.pending := by
  unfold portTrain; constructor <;> simp only [kept_portDown]

theorem kept_execLinkSignalDetect (port : Fin 12) (s : State) : ∀ t, execLinkSignalDetect port s = .next t → t.part = s.part ∧ t.pending = s.pending := by
  intro t h; unfold execLinkSignalDetect at h; dsimp only at h; repeat' (split at h)
  all_goals (rw [← Host.Outcome.next.inj h]; try (constructor <;> simp only [kept_modPort, kept_identGo]))

theorem kept_wiringError (s : State) (n code : Nat) : (wiringError s n code).part = s.part ∧ (wiringError s n code).pending = s.pending := by
  unfold wiringError; constructor <;> simp only [kept_resetOver, kept_fabLog, kept_portDown]

theorem kept_execIdent (port : Fin 12) (m : IdentMsg) (s : State) : ∀ t, execIdent port m s = .next t → t.part = s.part ∧ t.pending = s.pending := by
  intro t h; unfold execIdent at h; dsimp only at h; repeat' (split at h)
  all_goals (rw [← Host.Outcome.next.inj h]; try (constructor <;> simp only [kept_setPort, kept_emit, kept_wiringError]))

theorem kept_execWiringNotice (port : Fin 12) (code : Nat) (s : State) : ∀ t, execWiringNotice port code s = .next t → t.part = s.part ∧ t.pending = s.pending := by
  intro t h; unfold execWiringNotice at h; repeat' (first | split at h | dsimp only at h)
  all_goals (rw [← Host.Outcome.next.inj h]; constructor <;> (repeat' (first | with_reducible rfl | (simp only [kept_wiringError]; done) | split)))

theorem kept_execTrainingAttemptFail (port : Fin 12) (s : State) : ∀ t, execTrainingAttemptFail port s = .next t → t.part = s.part ∧ t.pending = s.pending := by
  intro t h; unfold execTrainingAttemptFail at h; dsimp only at h; repeat' (split at h)
  all_goals (rw [← Host.Outcome.next.inj h]; try (constructor <;> simp only [kept_setPort, kept_resetOver, kept_fabLog, kept_identGo]))

theorem kept_execPartnerLost (port : Fin 12) (s : State) : ∀ t, execPartnerLost port s = .next t → t.part = s.part ∧ t.pending = s.pending := by
  intro t h; unfold execPartnerLost at h; repeat' (first | split at h | dsimp only at h)
  all_goals (rw [← Host.Outcome.next.inj h]; constructor <;> (repeat' (first | with_reducible rfl | (simp only [kept_modPort, kept_fabLog, kept_portDown]; done) | split)))

theorem kept_retrainWrite (s : State) (n : Nat) : (retrainWrite s n).part = s.part ∧ (retrainWrite s n).pending = s.pending := by
  unfold retrainWrite; constructor <;> simp only [kept_modPort, kept_portRetrain]

theorem kept_execRetrain (fn : Fin 18) (port : Fin 12) (s : State) : ∀ t, execRetrain fn port s = .next t → t.part = s.part ∧ t.pending = s.pending := by
  intro t h; unfold execRetrain at h; repeat' (first | split at h | dsimp only at h)
  all_goals (rw [← Host.Outcome.next.inj h]; constructor <;> (repeat' (first | with_reducible rfl | (simp only [kept_retrainWrite]; done) | split)))

theorem kept_execPortDisable (fn : Fin 18) (port : Fin 12) (v : W64) (s : State) : ∀ t, execPortDisable fn port v s = .next t → t.part = s.part ∧ t.pending = s.pending := by
  intro t h; unfold execPortDisable at h; dsimp only at h; repeat' (split at h)
  all_goals (rw [← Host.Outcome.next.inj h]; try (constructor <;> simp only [kept_setReg, kept_modPort, kept_portTrain, kept_retrainWrite]))

theorem kept_execFabModAddrWrite (fn : Fin 18) (v : W64) (s : State) : ∀ t, execFabModAddrWrite fn v s = .next t → t.part = s.part ∧ t.pending = s.pending := by
  intro t h; unfold execFabModAddrWrite at h; repeat' (first | split at h | dsimp only at h)
  all_goals (rw [← Host.Outcome.next.inj h]; constructor <;> (repeat' (first | with_reducible rfl | (simp only [kept_setReg, kept_log]; done) | split)))

theorem kept_mcastUp (s : State) (g : Nat) : (mcastUp s g).part = s.part ∧ (mcastUp s g).pending = s.pending := by
  unfold mcastUp; constructor <;> (repeat' (first | with_reducible assumption | (simp only [kept_hopBack, kept_ackTake]; done) | (simp only [kept_hopBack, kept_ackTake, *]; done) | split | simp only [kept_hopBack, kept_ackTake] | simp only [kept_hopBack, kept_ackTake, *] | (with_reducible refine foldl_part _ _ _ ?_; intros) | (with_reducible refine (foldl_part _ _ _ ?_).trans ?_; intros) | (with_reducible refine foldl_pending _ _ _ ?_; intros) | (with_reducible refine (foldl_pending _ _ _ ?_).trans ?_; intros) | (with_reducible refine foldl2_part _ _ _ ?_; intros) | (with_reducible refine (foldl2_part _ _ _ ?_).trans ?_; intros) | (with_reducible refine foldl2_pending _ _ _ ?_; intros) | (with_reducible refine (foldl2_pending _ _ _ ?_).trans ?_; intros) | (with_reducible refine foldl3_part _ _ _ ?_; intros) | (with_reducible refine (foldl3_part _ _ _ ?_).trans ?_; intros) | (with_reducible refine foldl3_pending _ _ _ ?_; intros) | (with_reducible refine (foldl3_pending _ _ _ ?_).trans ?_; intros) | dsimp only))

theorem kept_mcastStep (s : State) (n : Nat) (u : LinkUnit) : ∀ t, mcastStep s n u = some t → t.part = s.part ∧ t.pending = s.pending := by
  intro t h; unfold mcastStep at h; dsimp only at h
  obtain ⟨s1, h1, h2⟩ := Option.map_eq_some_iff.mp h
  have hk := kept_mcastTry _ _ _ _ _ h1
  rw [← h2]; repeat' split
  all_goals simp only [kept_wakeStep, kept_mcastUp, hk, and_self]

theorem kept_tryUnit (s : State) (n v : Nat) (u : LinkUnit) : ∀ t, tryUnit s n v u = some t → t.part = s.part ∧ t.pending = s.pending := by
  intro t h; unfold tryUnit at h; dsimp only at h
  repeat' split at h
  all_goals first
    | (cases h; done)
    | exact kept_mcastStep _ _ _ _ h
    | (cases h; constructor <;> (repeat' (first | (simp only [kept_portTx, kept_deliverUnit, kept_wakeStep, kept_grxUnit]; done) | split | simp only [kept_portTx, kept_deliverUnit, kept_wakeStep, kept_grxUnit])); done)
    | (obtain ⟨s1, h1, h2⟩ := Option.map_eq_some_iff.mp h; rw [← h2]; have hk := kept_ctxUse _ _ _ h1; simp only [kept_portTx, kept_deliverUnit, kept_wakeStep, kept_grxUnit, hk, and_self])

theorem kept_bufDrain (a0 : Nat) (a1 : State) (a2 : Nat) (a3 : Nat) : (bufDrain a0 a1 a2 a3).part = a1.part ∧ (bufDrain a0 a1 a2 a3).pending = a1.pending := by
  induction a0 generalizing a1 a2 a3
  all_goals (unfold bufDrain; constructor <;> (repeat' (first | with_reducible assumption | (simp only [kept_modVc]; done) | (simp only [kept_modVc, *]; done) | (have hk := kept_tryUnit _ _ _ _ _ (by assumption); simp only [hk, kept_modVc]; done) | split | simp only [kept_modVc] | simp only [kept_modVc, *] | dsimp only)))

theorem kept_bufPump (s : State) : (bufPump s).part = s.part ∧ (bufPump s).pending = s.pending := by
  unfold bufPump; constructor <;> (repeat' (first | with_reducible rfl | (simp only [kept_mcastPump, kept_bufDrain]; done) | (with_reducible refine (kept_eachPort _ _ ?_).1.trans ?_ <;> intros) | (with_reducible refine (kept_eachPort _ _ ?_).2.trans ?_ <;> intros) | (with_reducible refine (kept_eachPort _ _ ?_).1 <;> intros) | (with_reducible refine (kept_eachPort _ _ ?_).2 <;> intros) | (refine ⟨?_, ?_⟩) | split | (with_reducible refine foldl_part _ _ _ ?_; intros) | (with_reducible refine (foldl_part _ _ _ ?_).trans ?_; intros) | (with_reducible refine foldl_pending _ _ _ ?_; intros) | (with_reducible refine (foldl_pending _ _ _ ?_).trans ?_; intros)))

theorem kept_sendNak (s : State) (n v : Nat) : (sendNak s n v).part = s.part ∧ (sendNak s n v).pending = s.pending := by
  unfold sendNak; constructor <;> simp only [kept_modVc, kept_ctrlSend]

theorem kept_goodUnit (s : State) (n v : Nat) (u : LinkUnit) : (goodUnit s n v u).part = s.part ∧ (goodUnit s n v u).pending = s.pending := by
  unfold goodUnit; constructor <;> (repeat' (first | with_reducible assumption | (simp only [kept_modVc, kept_bufDrain, kept_sendNak]; done) | (simp only [kept_modVc, kept_bufDrain, kept_sendNak, *]; done) | split | simp only [kept_modVc, kept_bufDrain, kept_sendNak] | simp only [kept_modVc, kept_bufDrain, kept_sendNak, *] | dsimp only))

theorem kept_badUnit (s : State) (n v lseq : Nat) : (badUnit s n v lseq).part = s.part ∧ (badUnit s n v lseq).pending = s.pending := by
  unfold badUnit; constructor <;> (repeat' (first | with_reducible assumption | (simp only [kept_sendNak]; done) | (simp only [kept_sendNak, *]; done) | split | simp only [kept_sendNak] | simp only [kept_sendNak, *] | dsimp only))

theorem kept_unitArrive (s : State) (n : Nat) (u : LinkUnit) (good : Bool) : (unitArrive s n u good).part = s.part ∧ (unitArrive s n u good).pending = s.pending := by
  unfold unitArrive; constructor <;> (repeat' (first | with_reducible assumption | (simp only [kept_modVc, kept_portErr, kept_goodUnit, kept_badUnit]; done) | (simp only [kept_modVc, kept_portErr, kept_goodUnit, kept_badUnit, *]; done) | split | simp only [kept_modVc, kept_portErr, kept_goodUnit, kept_badUnit] | simp only [kept_modVc, kept_portErr, kept_goodUnit, kept_badUnit, *] | dsimp only))

theorem kept_landUnit (s : State) (n : Nat) (w : UnitWire) (fec : Nat × Nat) (mine : LinkUnit → Bool) : (landUnit s n w fec mine).part = s.part ∧ (landUnit s n w fec mine).pending = s.pending := by
  unfold landUnit; constructor <;> (repeat' (first | with_reducible assumption | (simp only [kept_countUnit, kept_unitArrive]; done) | (simp only [kept_countUnit, kept_unitArrive, *]; done) | split | simp only [kept_countUnit, kept_unitArrive] | simp only [kept_countUnit, kept_unitArrive, *] | dsimp only))

theorem kept_execDataUnit (port : Fin 12) (w : UnitWire) (fec : Nat × Nat) (s : State) : ∀ t, execDataUnit port w fec s = .next t → t.part = s.part ∧ t.pending = s.pending := by
  intro t h; unfold execDataUnit at h; repeat' (first | split at h | dsimp only at h)
  all_goals (rw [← Host.Outcome.next.inj h]; constructor <;> (repeat' (first | with_reducible rfl | (simp only [kept_landUnit]; done) | split)))

theorem kept_execMcastUnit (port : Fin 12) (w : UnitWire) (fec : Nat × Nat) (s : State) : ∀ t, execMcastUnit port w fec s = .next t → t.part = s.part ∧ t.pending = s.pending := by
  intro t h; unfold execMcastUnit at h; repeat' (first | split at h | dsimp only at h)
  all_goals (rw [← Host.Outcome.next.inj h]; constructor <;> (repeat' (first | with_reducible rfl | (simp only [kept_landUnit]; done) | split)))

theorem kept_execG1Unit (port : Fin 12) (w : UnitWire) (fec : Nat × Nat) (s : State) : ∀ t, execG1Unit port w s fec = .next t → t.part = s.part ∧ t.pending = s.pending := by
  intro t h; unfold execG1Unit at h; repeat' (first | split at h | dsimp only at h)
  all_goals (rw [← Host.Outcome.next.inj h]; constructor <;> (repeat' (first | with_reducible rfl | (simp only [kept_landUnit]; done) | split)))

theorem kept_execReduceScatterUnit (port : Fin 12) (w : UnitWire) (fec : Nat × Nat) (s : State) : ∀ t, execReduceScatterUnit port w s fec = .next t → t.part = s.part ∧ t.pending = s.pending := by
  intro t h; unfold execReduceScatterUnit at h; repeat' (first | split at h | dsimp only at h)
  all_goals (rw [← Host.Outcome.next.inj h]; constructor <;> (repeat' (first | with_reducible rfl | (simp only [kept_landUnit]; done) | split)))

theorem kept_execAllGatherUnit (port : Fin 12) (w : UnitWire) (fec : Nat × Nat) (s : State) : ∀ t, execAllGatherUnit port w s fec = .next t → t.part = s.part ∧ t.pending = s.pending := by
  intro t h; unfold execAllGatherUnit at h; repeat' (first | split at h | dsimp only at h)
  all_goals (rw [← Host.Outcome.next.inj h]; constructor <;> (repeat' (first | with_reducible rfl | (simp only [kept_landUnit]; done) | split)))

theorem kept_execFingerprintUnit (port : Fin 12) (header : BitVec 80) (data : List Byte) (crc : BitVec 32) (fec : Nat × Nat) (s : State) : ∀ t, execFingerprintUnit port header data crc fec s = .next t → t.part = s.part ∧ t.pending = s.pending := by
  intro t h; unfold execFingerprintUnit at h; repeat' (first | split at h | dsimp only at h)
  all_goals (rw [← Host.Outcome.next.inj h]; constructor <;> (repeat' (first | with_reducible rfl | (simp only [kept_landUnit]; done) | split)))

theorem kept_execIdleUnit (port : Fin 12) (fec : Nat × Nat) (s : State) : ∀ t, execIdleUnit port fec s = .next t → t.part = s.part ∧ t.pending = s.pending := by
  intro t h; unfold execIdleUnit at h; repeat' (first | split at h | dsimp only at h)
  all_goals (rw [← Host.Outcome.next.inj h]; constructor <;> (repeat' (first | with_reducible rfl | (simp only [kept_countUnit]; done) | split)))

theorem kept_vcStart (s : State) (n : Nat) : (vcStart s n).part = s.part ∧ (vcStart s n).pending = s.pending := by
  have h (g : State → Nat → State) (hg : ∀ y v, (g y v).part = y.part ∧ (g y v).pending = y.pending) (l : List Nat) (y : State) :
      (l.foldl g y).part = y.part ∧ (l.foldl g y).pending = y.pending :=
    ⟨foldl_part _ _ _ (fun y v => (hg y v).1), foldl_pending _ _ _ (fun y v => (hg y v).2)⟩
  unfold vcStart; extract_lets s1
  have h1 := h (fun s v => modVc s n v (vcFresh v)) (fun y v => by simp only [kept_modVc, and_self]) (List.range 24) s1
  rw [(kept_portPump _ _).1, (kept_portPump _ _).2, h1.1, h1.2]
  exact kept_bufPump s

theorem kept_freshKey (s : State) : (freshKey s).2.part = s.part ∧ (freshKey s).2.pending = s.pending := by
  unfold freshKey; constructor <;> simp only [kept_freshWord]

theorem kept_agreeKey (s : State) (n : Nat) : (agreeKey s n).part = s.part ∧ (agreeKey s n).pending = s.pending := by
  unfold agreeKey; constructor <;> simp only [kept_modPort, kept_freshKey]

theorem kept_execPortUp (port : Fin 12) (lanes propNs : Nat) (s : State) : ∀ t, execPortUp port lanes propNs s = .next t → t.part = s.part ∧ t.pending = s.pending := by
  intro t h; unfold execPortUp at h
  (try extract_lets at h)
  split at h
  · cases h; exact ⟨rfl, rfl⟩
  · (try extract_lets at h)
    rw [← Host.Outcome.next.inj h]
    constructor <;> (first | (simp +zetaDelta only [kept_setReg, kept_setPort, kept_resetOver, kept_fabLog, kept_rejoinAll, kept_routeChange, kept_noteWhole, kept_vcStart, kept_agreeKey]; done) | (simp +zetaDelta only [kept_setReg, kept_setPort, kept_resetOver, kept_fabLog, kept_rejoinAll, kept_routeChange, kept_noteWhole, kept_vcStart, kept_agreeKey]; repeat' (first | (simp only [kept_setReg, kept_setPort, kept_resetOver, kept_fabLog, kept_rejoinAll, kept_routeChange, kept_noteWhole, kept_vcStart, kept_agreeKey]; done) | split | simp only [kept_setReg, kept_setPort, kept_resetOver, kept_fabLog, kept_rejoinAll, kept_routeChange, kept_noteWhole, kept_vcStart, kept_agreeKey])))

theorem kept_replayVc (s : State) (n v seq : Nat) : (replayVc s n v seq).part = s.part ∧ (replayVc s n v seq).pending = s.pending := by
  unfold replayVc; constructor <;> (repeat' (first | with_reducible assumption | (simp only [kept_modVc, kept_wirePut, kept_fabLog, kept_portErr, kept_portRetrain]; done) | (simp only [kept_modVc, kept_wirePut, kept_fabLog, kept_portErr, kept_portRetrain, *]; done) | split | simp only [kept_modVc, kept_wirePut, kept_fabLog, kept_portErr, kept_portRetrain] | simp only [kept_modVc, kept_wirePut, kept_fabLog, kept_portErr, kept_portRetrain, *] | (with_reducible refine foldl_part _ _ _ ?_; intros) | (with_reducible refine (foldl_part _ _ _ ?_).trans ?_; intros) | (with_reducible refine foldl_pending _ _ _ ?_; intros) | (with_reducible refine (foldl_pending _ _ _ ?_).trans ?_; intros) | (with_reducible refine foldl2_part _ _ _ ?_; intros) | (with_reducible refine (foldl2_part _ _ _ ?_).trans ?_; intros) | (with_reducible refine foldl2_pending _ _ _ ?_; intros) | (with_reducible refine (foldl2_pending _ _ _ ?_).trans ?_; intros) | (with_reducible refine foldl3_part _ _ _ ?_; intros) | (with_reducible refine (foldl3_part _ _ _ ?_).trans ?_; intros) | (with_reducible refine foldl3_pending _ _ _ ?_; intros) | (with_reducible refine (foldl3_pending _ _ _ ?_).trans ?_; intros) | dsimp only))

theorem kept_ctrlTake (s : State) (n : Nat) (u : CtrlUnit) : (ctrlTake s n u).part = s.part ∧ (ctrlTake s n u).pending = s.pending := by
  have h (g : State → Nat → State) (hg : ∀ y v, (g y v).part = y.part ∧ (g y v).pending = y.pending) (l : List Nat) (y : State) :
      (l.foldl g y).part = y.part ∧ (l.foldl g y).pending = y.pending :=
    ⟨foldl_part _ _ _ (fun y v => (hg y v).1), foldl_pending _ _ _ (fun y v => (hg y v).2)⟩
  unfold ctrlTake; extract_lets s1 s2
  have h1 : s1.part = s.part ∧ s1.pending = s.pending := h _ (fun y v => by simp only [kept_modVc, and_self]) _ _
  have h2 : s2.part = s.part ∧ s2.pending = s.pending := by simp only [s2, kept_portPump, h1, and_self]
  rw [(kept_bufPump _).1, (kept_bufPump _).2]; split
  · simp only [kept_replayVc, h2, and_self]
  · exact h2

theorem kept_execControlUnit (port : Fin 12) (w : UnitWire) (fec : Nat × Nat) (s : State) : ∀ t, execControlUnit port w fec s = .next t → t.part = s.part ∧ t.pending = s.pending := by
  intro t h; unfold execControlUnit at h
  extract_lets s1 at h
  split at h
  · cases h; exact ⟨rfl, rfl⟩
  · have h1 : s1.part = s.part ∧ s1.pending = s.pending := by simp only [s1, kept_countUnit, and_self]
    split at h <;> rw [← Host.Outcome.next.inj h]
    · split
      · simp only [kept_ctrlTake, h1, and_self]
      · exact ⟨rfl, rfl⟩
    · exact h1

theorem kept_execControlUnitSend (port : Fin 12) (s : State) : ∀ t, execControlUnitSend port s = .next t → t.part = s.part ∧ t.pending = s.pending := by
  intro t h; unfold execControlUnitSend at h; repeat' (first | with_reducible (split at h) | dsimp only at h | split at h)
  all_goals (rw [← Host.Outcome.next.inj h]; constructor <;> (repeat' (first | with_reducible assumption | (simp only [kept_ctrlSend, kept_bufPump]; done) | (simp only [kept_ctrlSend, kept_bufPump, *]; done) | split | simp only [kept_ctrlSend, kept_bufPump] | simp only [kept_ctrlSend, kept_bufPump, *] | dsimp only)))

theorem kept_execLinkDown (port : Fin 12) (addr dim : Nat) (plus : Bool) (s : State) : ∀ t, execLinkDown port addr dim plus s = .next t → t.part = s.part ∧ t.pending = s.pending := by
  intro t h; unfold execLinkDown at h; dsimp only at h; repeat' (split at h)
  all_goals (rw [← Host.Outcome.next.inj h]; try (constructor <;> simp only [kept_took, kept_routeChange, kept_noteBroken]))

theorem kept_execLinkUp (port : Fin 12) (addr dim : Nat) (plus : Bool) (s : State) : ∀ t, execLinkUp port addr dim plus s = .next t → t.part = s.part ∧ t.pending = s.pending := by
  intro t h; unfold execLinkUp at h; dsimp only at h; repeat' (split at h)
  all_goals (rw [← Host.Outcome.next.inj h]; try (constructor <;> simp only [kept_took, kept_routeChange, kept_noteWhole]))

theorem kept_mcastAckIn (s : State) (n g seq : Nat) : (mcastAckIn s n g seq).part = s.part ∧ (mcastAckIn s n g seq).pending = s.pending := by
  unfold mcastAckIn; constructor <;> (repeat' (first | with_reducible assumption | (simp only [kept_mcastUp]; done) | (simp only [kept_mcastUp, *]; done) | split | simp only [kept_mcastUp] | simp only [kept_mcastUp, *] | dsimp only))

theorem kept_execE2eAck (via : AckVia) (stream seq free : Nat) (s : State) : ∀ t, execE2eAck via stream seq free s = .next t → t.part = s.part ∧ t.pending = s.pending := by
  intro t h; unfold execE2eAck at h; dsimp only at h; repeat' (split at h)
  all_goals (rw [← Host.Outcome.next.inj h]; try (constructor <;> simp only [kept_took, kept_hopIn, kept_ackTake, kept_mcastAckIn]))

theorem kept_execE2eAckSend (stream : Nat) (s : State) : ∀ t, execE2eAckSend stream s = .next t → t.part = s.part ∧ t.pending = s.pending := by
  intro t h; unfold execE2eAckSend at h; dsimp only at h; repeat' (split at h)
  all_goals (rw [← Host.Outcome.next.inj h]; try (constructor <;> simp only [kept_ackSend, kept_mcastUp]))

theorem kept_e2eFire (s : State) (idx : Nat) : (e2eFire s idx).part = s.part ∧ (e2eFire s idx).pending = s.pending := by
  unfold e2eFire; constructor <;> simp only [kept_modRt, kept_fabStream, kept_unitsOut]

theorem kept_execFabE2eRetransmit (stream : Nat) (s : State) : ∀ t, execFabE2eRetransmit stream s = .next t → t.part = s.part ∧ t.pending = s.pending := by
  intro t h; unfold execFabE2eRetransmit at h; dsimp only at h; repeat' (split at h)
  all_goals (rw [← Host.Outcome.next.inj h]; try (constructor <;> simp only [kept_modRt, kept_e2eFire]))

theorem kept_admitBack (s : State) (port : Option Nat) (m : Msg) : (admitBack s port m).part = s.part ∧ (admitBack s port m).pending = s.pending := by
  unfold admitBack; constructor <;> (repeat' (first | with_reducible rfl | (simp only [kept_portTx]; done) | split))

theorem kept_execReserve (port : Option (Fin 12)) (m : AdmMsg) (s : State) : ∀ t, execReserve port m s = .next t → t.part = s.part ∧ t.pending = s.pending := by
  intro t h; unfold execReserve at h; dsimp only at h; repeat' (split at h)
  all_goals (rw [← Host.Outcome.next.inj h]; try (constructor <;> simp only [kept_took, kept_portTx, kept_holdSlots, kept_admitBack]))

theorem kept_commitHold (s : State) (h : Nat × Hold) (m : AdmMsg) : (commitHold s h m).part = s.part ∧ (commitHold s h m).pending = s.pending := by
  unfold commitHold; constructor <;> simp only []

theorem kept_grantHere (s : State) (m : AdmMsg) : (grantHere s m).part = s.part ∧ (grantHere s m).pending = s.pending := by
  unfold grantHere; constructor <;> (repeat' (first | with_reducible assumption | (simp only [kept_modRt, kept_admitStatus, kept_modEntry, kept_sendAll, kept_installEntry, kept_cmdFinish, kept_lateSend]; done) | (simp only [kept_modRt, kept_admitStatus, kept_modEntry, kept_sendAll, kept_installEntry, kept_cmdFinish, kept_lateSend, *]; done) | split | simp only [kept_modRt, kept_admitStatus, kept_modEntry, kept_sendAll, kept_installEntry, kept_cmdFinish, kept_lateSend] | simp only [kept_modRt, kept_admitStatus, kept_modEntry, kept_sendAll, kept_installEntry, kept_cmdFinish, kept_lateSend, *] | dsimp only))

theorem kept_execGrant (port : Option (Fin 12)) (m : AdmMsg) (s : State) : ∀ t, execGrant port m s = .next t → t.part = s.part ∧ t.pending = s.pending := by
  intro t h; unfold execGrant at h; dsimp only at h; repeat' (split at h)
  all_goals (rw [← Host.Outcome.next.inj h]; try (constructor <;> simp only [kept_took, kept_admitBack, kept_commitHold, kept_grantHere]))

theorem kept_refuseHere (s : State) (m : AdmMsg) : (refuseHere s m).part = s.part ∧ (refuseHere s m).pending = s.pending := by
  unfold refuseHere; constructor <;> (repeat' (first | with_reducible assumption | (simp only [kept_admitStatus, kept_cmdFinish, kept_lateSend]; done) | (simp only [kept_admitStatus, kept_cmdFinish, kept_lateSend, *]; done) | split | simp only [kept_admitStatus, kept_cmdFinish, kept_lateSend] | simp only [kept_admitStatus, kept_cmdFinish, kept_lateSend, *] | dsimp only))

theorem kept_execRefuse (port : Option (Fin 12)) (m : AdmMsg) (s : State) : ∀ t, execRefuse port m s = .next t → t.part = s.part ∧ t.pending = s.pending := by
  intro t h; unfold execRefuse at h; dsimp only at h; repeat' (split at h)
  all_goals (rw [← Host.Outcome.next.inj h]; try (constructor <;> simp only [kept_took, kept_dropHold, kept_suspend, kept_admitBack, kept_refuseHere]))

theorem kept_execRelease (port : Option (Fin 12)) (m : AdmMsg) (s : State) : ∀ t, execRelease port m s = .next t → t.part = s.part ∧ t.pending = s.pending := by
  intro t h; unfold execRelease at h; dsimp only at h; repeat' (split at h)
  all_goals (rw [← Host.Outcome.next.inj h]; try (constructor <;> simp only [kept_took, kept_portTx, kept_dropHold]))

theorem kept_holdFire (s : State) (h : Nat × Hold) : (holdFire s h).part = s.part ∧ (holdFire s h).pending = s.pending := by
  unfold holdFire; constructor <;> (repeat' (first | with_reducible assumption | (simp only [kept_dropHold, kept_admitBack, kept_refuseHere]; done) | (simp only [kept_dropHold, kept_admitBack, kept_refuseHere, *]; done) | split | simp only [kept_dropHold, kept_admitBack, kept_refuseHere] | simp only [kept_dropHold, kept_admitBack, kept_refuseHere, *] | dsimp only))

theorem kept_execAdmissionHoldTimeout (port : Fin 12) (s : State) : ∀ t, execAdmissionHoldTimeout port s = .next t → t.part = s.part ∧ t.pending = s.pending := by
  intro t h; unfold execAdmissionHoldTimeout at h; dsimp only at h; repeat' (split at h)
  all_goals (rw [← Host.Outcome.next.inj h]; try (constructor <;> simp only [kept_holdFire]))

theorem kept_execTimeoutHoldEnd (kind idx : Nat) (s : State) : ∀ t, execTimeoutHoldEnd kind idx s = .next t → t.part = s.part ∧ t.pending = s.pending := by
  intro t h; unfold execTimeoutHoldEnd at h; dsimp only at h; repeat' (split at h)
  all_goals (rw [← Host.Outcome.next.inj h]; try (constructor <;> simp only [kept_deadFire, kept_watchFire, kept_e2eFire, kept_holdFire]))

theorem kept_execLinkRekey (port : Fin 12) (s : State) : ∀ t, execLinkRekey port s = .next t → t.part = s.part ∧ t.pending = s.pending := by
  intro t h; unfold execLinkRekey at h; dsimp only at h; repeat' (split at h)
  all_goals (rw [← Host.Outcome.next.inj h]; try (constructor <;> simp only [kept_portTx, kept_agreeKey]))

/-! ## Clocks -/

theorem kept_clkLog (s : State) (code z : Nat) : (clkLog s code z).part = s.part ∧ (clkLog s code z).pending = s.pending := by
  unfold clkLog; constructor <;> simp only [kept_log]

theorem kept_clkMerged (s : State) (code z : Nat) : (clkMerged s code z).part = s.part ∧ (clkMerged s code z).pending = s.pending := by
  unfold clkMerged; constructor <;> simp only [kept_logMerged]

theorem kept_setVolt (s : State) (cls z f v : Nat) : (setVolt s cls z f v).part = s.part ∧ (setVolt s cls z f v).pending = s.pending := by
  unfold setVolt; constructor <;> simp only []

theorem kept_noteMargin (s : State) (z monitor code : Nat) : (noteMargin s z monitor code).part = s.part ∧ (noteMargin s z monitor code).pending = s.pending := by
  unfold noteMargin; constructor <;> simp only [kept_modReg]

theorem kept_execZoneStretch (z : Fin 16) (monitor code : Nat) (s : State) : ∀ t, execZoneStretch z monitor code s = .next t → t.part = s.part ∧ t.pending = s.pending := by
  intro t h; unfold execZoneStretch at h; dsimp only at h; repeat' (split at h)
  all_goals (rw [← Host.Outcome.next.inj h]; try (constructor <;> simp only [kept_modReg, kept_modZone, kept_clkMerged, kept_noteMargin]))

theorem kept_heldLog (s : State) (z : Nat) : (heldLog s z).part = s.part ∧ (heldLog s z).pending = s.pending := by
  unfold heldLog; constructor <;> (repeat' (first | with_reducible rfl | (simp only [kept_clkMerged]; done) | split))

theorem kept_execSlowLoop (z : Fin 16) (s : State) : ∀ t, execSlowLoop z s = .next t → t.part = s.part ∧ t.pending = s.pending := by
  intro t h; unfold execSlowLoop at h; dsimp only at h; repeat' (split at h)
  all_goals (rw [← Host.Outcome.next.inj h]; try (constructor <;> simp only [kept_modZone, kept_clkLog, kept_heldLog]))

theorem kept_execZoneSlewStep (z : Fin 16) (s : State) : ∀ t, execZoneSlewStep z s = .next t → t.part = s.part ∧ t.pending = s.pending := by
  intro t h; unfold execZoneSlewStep at h; dsimp only at h; repeat' (split at h)
  all_goals (rw [← Host.Outcome.next.inj h]; try (constructor <;> simp only [kept_modZone]))

theorem kept_execZoneLockLost (z : Fin 16) (s : State) : ∀ t, execZoneLockLost z s = .next t → t.part = s.part ∧ t.pending = s.pending := by
  intro t h; unfold execZoneLockLost at h; repeat' (first | split at h | dsimp only at h)
  all_goals (rw [← Host.Outcome.next.inj h]; constructor <;> (repeat' (first | with_reducible rfl | (simp only [kept_modZone, kept_clkLog]; done) | split)))

theorem kept_execRelock (fn : Fin 18) (z : Fin 16) (s : State) : ∀ t, execRelock fn z s = .next t → t.part = s.part ∧ t.pending = s.pending := by
  intro t h; unfold execRelock at h; repeat' (first | split at h | dsimp only at h)
  all_goals (rw [← Host.Outcome.next.inj h]; constructor <;> (repeat' (first | with_reducible rfl | (simp only [kept_modZone]; done) | split)))

theorem kept_execRefLost (s : State) : ∀ t, execRefLost s = .next t → t.part = s.part ∧ t.pending = s.pending := by
  intro t h; unfold execRefLost at h; dsimp only at h; repeat' (split at h)
  all_goals (rw [← Host.Outcome.next.inj h]; try (constructor <;> simp only [kept_clkLog]))

theorem kept_correct (s : State) (o ahead : Int) : (correct s o ahead).part = s.part ∧ (correct s o ahead).pending = s.pending := by
  unfold correct; constructor <;> simp only []

theorem kept_epochPulse (s : State) : (epochPulse s).part = s.part ∧ (epochPulse s).pending = s.pending := by
  unfold epochPulse; constructor <;> (repeat' (first | with_reducible assumption | (simp only [kept_clkLog, kept_correct]; done) | (simp only [kept_clkLog, kept_correct, *]; done) | split | simp only [kept_clkLog, kept_correct] | simp only [kept_clkLog, kept_correct, *] | dsimp only))

theorem kept_execEpochPulse (s : State) : ∀ t, execEpochPulse s = .next t → t.part = s.part ∧ t.pending = s.pending := by
  intro t h; unfold execEpochPulse at h; dsimp only at h; repeat' (split at h)
  all_goals (rw [← Host.Outcome.next.inj h]; try (constructor <;> simp only [kept_epochPulse]))

theorem kept_execSyncInMissed (s : State) : ∀ t, execSyncInMissed s = .next t → t.part = s.part ∧ t.pending = s.pending := by
  intro t h; unfold execSyncInMissed at h; dsimp only at h; repeat' (split at h)
  all_goals (rw [← Host.Outcome.next.inj h]; try (constructor <;> simp only []))

theorem kept_execSyncOutPulse (s : State) : ∀ t, execSyncOutPulse s = .next t → t.part = s.part ∧ t.pending = s.pending := by
  intro t h; unfold execSyncOutPulse at h; repeat' (first | split at h | dsimp only at h)
  all_goals (rw [← Host.Outcome.next.inj h]; constructor <;> (repeat' (first | with_reducible rfl | (simp only [kept_emit]; done) | split)))

theorem kept_execClkTimeSeedWrite (fn : Fin 18) (v : W64) (s : State) : ∀ t, execClkTimeSeedWrite fn v s = .next t → t.part = s.part ∧ t.pending = s.pending := by
  intro t h; unfold execClkTimeSeedWrite at h; dsimp only at h; repeat' (split at h)
  all_goals (rw [← Host.Outcome.next.inj h]; try (constructor <;> simp only []))

theorem kept_execTimeMessageSend (s : State) : ∀ t, execTimeMessageSend s = .next t → t.part = s.part ∧ t.pending = s.pending := by
  intro t h; unfold execTimeMessageSend at h; repeat' (first | split at h | dsimp only at h)
  all_goals (rw [← Host.Outcome.next.inj h]; constructor <;> (repeat' (first | with_reducible rfl | (simp only [kept_portTx]; done) | split)))

theorem kept_timeAnswer (s : State) (n t1 : Nat) (b : TimeBack) : (timeAnswer s n t1 b).part = s.part ∧ (timeAnswer s n t1 b).pending = s.pending := by
  unfold timeAnswer; constructor <;> (repeat' (first | with_reducible assumption | (simp only [kept_clkLog, kept_correct]; done) | (simp only [kept_clkLog, kept_correct, *]; done) | split | simp only [kept_clkLog, kept_correct] | simp only [kept_clkLog, kept_correct, *] | dsimp only))

theorem kept_execTimeMessage (port : Fin 12) (t1 : Nat) (t2 : Option Nat) (t3 prop : Nat) (s : State) : ∀ t, execTimeMessage port t1 t2 t3 prop s = .next t → t.part = s.part ∧ t.pending = s.pending := by
  intro t h; unfold execTimeMessage at h; dsimp only at h; repeat' (split at h)
  all_goals (rw [← Host.Outcome.next.inj h]; try (constructor <;> simp only [kept_took, kept_portTx, kept_timeAnswer]))

theorem kept_execClkSyncLost (s : State) : ∀ t, execClkSyncLost s = .next t → t.part = s.part ∧ t.pending = s.pending := by
  intro t h; unfold execClkSyncLost at h; dsimp only at h
  rcases of_ite h with h | h <;> cases h
  · simp only [kept_clkLog, and_self]
  · exact ⟨rfl, rfl⟩

theorem kept_timeTick (s : State) : (timeTick s).part = s.part ∧ (timeTick s).pending = s.pending := by
  unfold timeTick; constructor <;> (repeat' (first | with_reducible assumption | (simp only []; done) | (simp only [*]; done) | split | simp only [] | simp only [*] | dsimp only))

theorem kept_flushSet (s : State) (b : Nat) : (flushSet s b).part = s.part ∧ (flushSet s b).pending = s.pending := by
  unfold flushSet; constructor <;> simp only [kept_modReg, kept_clkLog]

theorem kept_execFlushComplete (b : Nat) (s : State) : ∀ t, execFlushComplete b s = .next t → t.part = s.part ∧ t.pending = s.pending := by
  intro t h; unfold execFlushComplete at h; dsimp only at h; repeat' (split at h)
  all_goals (rw [← Host.Outcome.next.inj h]; try (constructor <;> simp only [kept_resetOver, kept_vcStart]))

/-! ## Vector -/

theorem kept_vEnd (s : State) (c : Nat) (rs : List LaneRes) : (vEnd s c rs).part = s.part ∧ (vEnd s c rs).pending = s.pending := by
  unfold vEnd; constructor <;> simp only [kept_modCore, kept_retire, kept_trapIf]

theorem kept_vPut (s : State) (c d : Nat) (f : VFmt) (rs : List LaneRes) : (vPut s c d f rs).part = s.part ∧ (vPut s c d f rs).pending = s.pending := by
  unfold vPut; constructor <;> simp only [kept_modCore, kept_vEnd]

theorem kept_execVadd (c : Fin 256) (fmt : VFmts) (d a b : Fin 16) (s : State) : ∀ t, execVadd c fmt d a b s = .next t → t.part = s.part ∧ t.pending = s.pending := by
  exact kept_onUnit _ _ _ _ _ (fun s => by (try dsimp only); constructor <;> (repeat' (first | with_reducible rfl | (simp only [kept_vPut]; done) | split)))

theorem kept_execVmul (c : Fin 256) (fmt : VFmts) (d a b : Fin 16) (s : State) : ∀ t, execVmul c fmt d a b s = .next t → t.part = s.part ∧ t.pending = s.pending := by
  exact kept_onUnit _ _ _ _ _ (fun s => by (try dsimp only); constructor <;> (repeat' (first | with_reducible rfl | (simp only [kept_vPut]; done) | split)))

theorem kept_execVfma (c : Fin 256) (fmt : VFmts) (d a b e : Fin 16) (s : State) : ∀ t, execVfma c fmt d a b e s = .next t → t.part = s.part ∧ t.pending = s.pending := by
  exact kept_onUnit _ _ _ _ _ (fun s => by (try dsimp only); constructor <;> (repeat' (first | with_reducible rfl | (simp only [kept_vPut]; done) | split)))

theorem kept_execVmin (c : Fin 256) (fmt : VFmts) (d a b : Fin 16) (s : State) : ∀ t, execVmin c fmt d a b s = .next t → t.part = s.part ∧ t.pending = s.pending := by
  exact kept_onUnit _ _ _ _ _ (fun s => by (try dsimp only); constructor <;> (repeat' (first | with_reducible rfl | (simp only [kept_vPut]; done) | split)))

theorem kept_execVmax (c : Fin 256) (fmt : VFmts) (d a b : Fin 16) (s : State) : ∀ t, execVmax c fmt d a b s = .next t → t.part = s.part ∧ t.pending = s.pending := by
  exact kept_onUnit _ _ _ _ _ (fun s => by (try dsimp only); constructor <;> (repeat' (first | with_reducible rfl | (simp only [kept_vPut]; done) | split)))

theorem kept_execVcmp (c : Fin 256) (fmt : VFmts) (op : CmpOp) (d a b : Fin 16) (s : State) : ∀ t, execVcmp c fmt op d a b s = .next t → t.part = s.part ∧ t.pending = s.pending := by
  exact kept_onUnit _ _ _ _ _ (fun s => by (try dsimp only); constructor <;> (repeat' (first | with_reducible rfl | (simp only [kept_vPut]; done) | split)))

theorem kept_execVsel (c : Fin 256) (fmt : VFmts) (d a b m : Fin 16) (s : State) : ∀ t, execVsel c fmt d a b m s = .next t → t.part = s.part ∧ t.pending = s.pending := by
  exact kept_onUnit _ _ _ _ _ (fun s => by (try dsimp only); constructor <;> (repeat' (first | with_reducible rfl | (simp only [kept_vPut]; done) | split)))

theorem kept_execVsfn (c : Fin 256) (f : SFn) (d a b : Fin 16) (s : State) : ∀ t, execVsfn c f d a b s = .next t → t.part = s.part ∧ t.pending = s.pending := by
  exact kept_onUnit _ _ _ _ _ (fun s => by (try dsimp only); constructor <;> (repeat' (first | with_reducible rfl | (simp only [kept_vPut]; done) | split)))

theorem kept_execVred (c : Fin 256) (fmt : VFmt) (op : RedOp) (d a : Fin 16) (count : Nat) (s : State) : ∀ t, execVred c fmt op d a count s = .next t → t.part = s.part ∧ t.pending = s.pending := by
  exact kept_onUnit _ _ _ _ _ (fun s => by (try dsimp only); constructor <;> (repeat' (first | with_reducible rfl | (simp only [kept_modCore, kept_coreFault, kept_vEnd]; done) | split)))

theorem kept_execVld (c : Fin 256) (d : Fin 16) (addr scaleAddr : Opnd) (mode : VldMode) (toFmt : VFmt) (s : State) : ∀ t, execVld c d addr scaleAddr mode toFmt s = .next t → t.part = s.part ∧ t.pending = s.pending := by
  exact kept_onUnit _ _ _ _ _ (fun s => by (try dsimp only); constructor <;> (repeat' (first | with_reducible rfl | (simp only [kept_coreFault, kept_vPut]; done) | (with_reducible refine (kept_checked _ _ _ _ _ ⟨?_, ?_⟩).1.trans ?_) | (with_reducible refine (kept_checked _ _ _ _ _ ⟨?_, ?_⟩).2.trans ?_) | split)))

theorem kept_execVst (c : Fin 256) (a : Fin 16) (addr scaleAddr : Opnd) (fmt : Fmt) (srcFmt : VFmt) (mode : VstMode) (grad : Option Nat) (s : State) : ∀ t, execVst c a addr scaleAddr fmt srcFmt mode grad s = .next t → t.part = s.part ∧ t.pending = s.pending := by
  exact kept_onUnit _ _ _ _ _ (fun s => by (try dsimp only); constructor <;> (repeat' (first | with_reducible rfl | (simp only [kept_modCore, kept_coreFault, kept_gradStats, kept_vEnd]; done) | (with_reducible refine (kept_checked _ _ _ _ _ ⟨?_, ?_⟩).1.trans ?_) | (with_reducible refine (kept_checked _ _ _ _ _ ⟨?_, ?_⟩).2.trans ?_) | split)))

theorem kept_execVstat (c : Fin 256) (st : Fin 16) (s : State) : ∀ t, execVstat c st s = .next t → t.part = s.part ∧ t.pending = s.pending := by
  exact kept_onUnit _ _ _ _ _ (fun s => by (try dsimp only); constructor <;> (repeat' (first | with_reducible rfl | (simp only [kept_modCore, kept_retire]; done) | split)))

theorem kept_execMv (c : Fin 256) (desc : Opnd) (st : Fin 16) (grad : Option Nat) (s : State) : ∀ t, execMv c desc st s grad = .next t → t.part = s.part ∧ t.pending = s.pending := by
  exact kept_onUnit _ _ _ _ _ (fun s => by (try dsimp only); constructor <;> (repeat' (first | with_reducible rfl | (simp only [kept_modCore, kept_retire, kept_hold, kept_coreFault]; done) | (with_reducible refine (kept_checked _ _ _ _ _ ⟨?_, ?_⟩).1.trans ?_) | (with_reducible refine (kept_checked _ _ _ _ _ ⟨?_, ?_⟩).2.trans ?_) | split)))

theorem kept_mvFinish (s : State) (c : Nat) (o : MvOp) : (mvFinish s c o).part = s.part ∧ (mvFinish s c o).pending = s.pending := by
  unfold mvFinish; constructor <;> (repeat' (first | with_reducible rfl | (simp only [kept_setCore, kept_trapIf, kept_gradStats]; done) | split))

theorem kept_mvTake (s : State) (c : Nat) (o : MvOp) : (mvTake s c o).2.part = s.part ∧ (mvTake s c o).2.pending = s.pending := by
  unfold mvTake; constructor <;> (repeat' (first | with_reducible rfl | (simp only [kept_fqTake]; done) | split))

theorem kept_execMatvecDone (c : Fin 256) (s : State) : ∀ t, execMatvecDone c s = .next t → t.part = s.part ∧ t.pending = s.pending := by
  intro t h; unfold execMatvecDone at h; dsimp only at h; repeat' (split at h)
  all_goals (rw [← Host.Outcome.next.inj h]; try (constructor <;> simp only [kept_modCore, kept_mvFinish, kept_mvTake]))

/-! ## Transfer -/

theorem kept_modFReq (s : State) (c q id : Nat) (g : FReq → FReq) : (modFReq s c q id g).part = s.part ∧ (modFReq s c q id g).pending = s.pending := by
  unfold modFReq; constructor <;> simp only [kept_modCore]

theorem kept_pushPut (s : State) (c q len : Nat) (dst : PutDst) (waiting : Bool) (bs : List Byte) : (pushPut s c q len dst waiting bs).part = s.part ∧ (pushPut s c q len dst waiting bs).pending = s.pending := by
  unfold pushPut; constructor <;> simp only [kept_modCore]

theorem kept_fetchSas (s : State) (c q len : Nat) (r : XRes) : (fetchSas s c q len r).part = s.part ∧ (fetchSas s c q len r).pending = s.pending := by
  unfold fetchSas; constructor <;> (repeat' (first | with_reducible assumption | (simp only [kept_modCore, kept_retire, kept_hold, kept_coreFault, kept_sendReads]; done) | (simp only [kept_modCore, kept_retire, kept_hold, kept_coreFault, kept_sendReads, *]; done) | split | simp only [kept_modCore, kept_retire, kept_hold, kept_coreFault, kept_sendReads] | simp only [kept_modCore, kept_retire, kept_hold, kept_coreFault, kept_sendReads, *] | dsimp only))

theorem kept_fetchStream (s : State) (c q p idx len : Nat) : (fetchStream s c q p idx len).part = s.part ∧ (fetchStream s c q p idx len).pending = s.pending := by
  unfold fetchStream; constructor <;> (repeat' (first | with_reducible assumption | (simp only [kept_modCore, kept_ctxWant, kept_retire, kept_hold, kept_coreFault]; done) | (simp only [kept_modCore, kept_ctxWant, kept_retire, kept_hold, kept_coreFault, *]; done) | (have hk := kept_ctxUse _ _ _ (by assumption); simp only [hk, kept_modCore, kept_ctxWant, kept_retire, kept_hold, kept_coreFault]; done) | split | simp only [kept_modCore, kept_ctxWant, kept_retire, kept_hold, kept_coreFault] | simp only [kept_modCore, kept_ctxWant, kept_retire, kept_hold, kept_coreFault, *] | dsimp only))

theorem kept_execFetch (c : Fin 256) (q : Fin 16) (src : XEnd) (len : Opnd) (s : State) : ∀ t, execFetch c q src len s = .next t → t.part = s.part ∧ t.pending = s.pending := by
  exact kept_onUnit _ _ _ _ _ (fun s => by (try dsimp only); constructor <;> (repeat' (first | with_reducible rfl | (simp only [kept_coreFault, kept_fetchSas, kept_fetchStream]; done) | split)))

theorem kept_streamLand (s : State) (c q idx : Nat) (r : FReq) : (streamLand s c q idx r).part = s.part ∧ (streamLand s c q idx r).pending = s.pending := by
  unfold streamLand; constructor <;> (repeat' (first | with_reducible assumption | (simp only [kept_modCore, kept_modRt, kept_jrnWrite, kept_finished, kept_coreFault, kept_streamTake, kept_modFReq]; done) | (simp only [kept_modCore, kept_modRt, kept_jrnWrite, kept_finished, kept_coreFault, kept_streamTake, kept_modFReq, *]; done) | split | simp only [kept_modCore, kept_modRt, kept_jrnWrite, kept_finished, kept_coreFault, kept_streamTake, kept_modFReq] | simp only [kept_modCore, kept_modRt, kept_jrnWrite, kept_finished, kept_coreFault, kept_streamTake, kept_modFReq, *] | dsimp only))

theorem kept_execFetchArrived (c : Fin 256) (q : Fin 16) (s : State) : ∀ t, execFetchArrived c q s = .next t → t.part = s.part ∧ t.pending = s.pending := by
  intro t h; unfold execFetchArrived at h; repeat' (first | split at h | dsimp only at h)
  all_goals (rw [← Host.Outcome.next.inj h]; constructor <;> (repeat' (first | with_reducible rfl | (simp only [kept_coreFault, kept_resultRetry, kept_modFReq, kept_streamLand]; done) | split)))

theorem kept_putGo (s : State) (c q p : Nat) (dst : XEnd) (bs : List Byte) : (putGo s c q p dst bs).part = s.part ∧ (putGo s c q p dst bs).pending = s.pending := by
  unfold putGo; constructor <;> (repeat' (first | with_reducible assumption | (simp only [kept_sendWrites, kept_wakeRemote, kept_pushPut]; done) | (simp only [kept_sendWrites, kept_wakeRemote, kept_pushPut, *]; done) | split | simp only [kept_sendWrites, kept_wakeRemote, kept_pushPut] | simp only [kept_sendWrites, kept_wakeRemote, kept_pushPut, *] | dsimp only))

theorem kept_execPut (c : Fin 256) (q : Fin 16) (srcOff : Opnd) (dst : XEnd) (len : Opnd) (s : State) : ∀ t, execPut c q srcOff dst len s = .next t → t.part = s.part ∧ t.pending = s.pending := by
  exact kept_onUnit _ _ _ _ _ (fun s => by (try dsimp only); constructor <;> (repeat' (first | with_reducible rfl | (simp only [kept_modCore, kept_retire, kept_hold, kept_coreFault, kept_putGo]; done) | (with_reducible refine (kept_checked _ _ _ _ _ ⟨?_, ?_⟩).1.trans ?_) | (with_reducible refine (kept_checked _ _ _ _ _ ⟨?_, ?_⟩).2.trans ?_) | split)))

theorem kept_dropPut (s : State) (c q id : Nat) : (dropPut s c q id).part = s.part ∧ (dropPut s c q id).pending = s.pending := by
  unfold dropPut; constructor <;> simp only [kept_modCore]

theorem kept_streamPut (s : State) (c q idx : Nat) (r : PReq) (hostData : List Byte) : (streamPut s c q idx r hostData).part = s.part ∧ (streamPut s c q idx r hostData).pending = s.pending := by
  unfold streamPut; constructor <;> (repeat' (first | with_reducible assumption | (simp only [kept_hostWrite, kept_relWrite, kept_modEntry, kept_ctxWant, kept_touchRel, kept_coreFault, kept_dropPut]; done) | (simp only [kept_hostWrite, kept_relWrite, kept_modEntry, kept_ctxWant, kept_touchRel, kept_coreFault, kept_dropPut, *]; done) | (have hk := kept_ctxUse _ _ _ (by assumption); simp only [hk, kept_hostWrite, kept_relWrite, kept_modEntry, kept_ctxWant, kept_touchRel, kept_coreFault, kept_dropPut]; done) | split | simp only [kept_hostWrite, kept_relWrite, kept_modEntry, kept_ctxWant, kept_touchRel, kept_coreFault, kept_dropPut] | simp only [kept_hostWrite, kept_relWrite, kept_modEntry, kept_ctxWant, kept_touchRel, kept_coreFault, kept_dropPut, *] | dsimp only))

theorem kept_execPutComplete (c : Fin 256) (q : Fin 16) (i : Nat) (hostData : List Byte) (s : State) : ∀ t, execPutComplete c q i hostData s = .next t → t.part = s.part ∧ t.pending = s.pending := by
  intro t h; unfold execPutComplete at h; repeat' (first | split at h | dsimp only at h)
  all_goals (rw [← Host.Outcome.next.inj h]; constructor <;> (repeat' (first | with_reducible rfl | (simp only [kept_dropPut, kept_streamPut]; done) | split)))

theorem kept_execPop (c : Fin 256) (q : Fin 16) (k : Nat) (s : State) : ∀ t, execPop c q k s = .next t → t.part = s.part ∧ t.pending = s.pending := by
  exact kept_onUnit _ _ _ _ _ (fun s => by (try dsimp only); constructor <;> (repeat' (first | with_reducible rfl | (simp only [kept_modCore, kept_retire, kept_hold, kept_coreFault, kept_wakeRemote]; done) | split)))

theorem kept_execLmove (c : Fin 256) (dst src : LPlace) (len : Nat) (s : State) : ∀ t, execLmove c dst src len s = .next t → t.part = s.part ∧ t.pending = s.pending := by
  exact kept_onUnit _ _ _ _ _ (fun s => by (try dsimp only); constructor <;> (repeat' (first | with_reducible rfl | (simp only [kept_modCore, kept_retire, kept_coreFault]; done) | (with_reducible refine (kept_checked _ _ _ _ _ ⟨?_, ?_⟩).1.trans ?_) | (with_reducible refine (kept_checked _ _ _ _ _ ⟨?_, ?_⟩).2.trans ?_) | split)))

theorem kept_atomGo (s : State) (c p : Nat) (op : AtomOp) (ty : AtomTy) (addr srcOff len : Nat) (fq : Option (Fin 16)) : (atomGo s c p op ty addr srcOff len fq).part = s.part ∧ (atomGo s c p op ty addr srcOff len fq).pending = s.pending := by
  unfold atomGo; constructor <;> (repeat' (first | with_reducible assumption | (simp only [kept_modCore, kept_retire, kept_hold, kept_coreFault, kept_meshSend]; done) | (simp only [kept_modCore, kept_retire, kept_hold, kept_coreFault, kept_meshSend, *]; done) | split | simp only [kept_modCore, kept_retire, kept_hold, kept_coreFault, kept_meshSend] | simp only [kept_modCore, kept_retire, kept_hold, kept_coreFault, kept_meshSend, *] | dsimp only))

theorem kept_execAtom (c : Fin 256) (op : AtomOp) (ty : AtomTy) (addr srcOff : Opnd) (len : Nat) (fq : Option (Fin 16)) (s : State) : ∀ t, execAtom c op ty addr srcOff len fq s = .next t → t.part = s.part ∧ t.pending = s.pending := by
  exact kept_onUnit _ _ _ _ _ (fun s => by (try dsimp only); constructor <;> (repeat' (first | with_reducible rfl | (simp only [kept_coreFault, kept_atomGo]; done) | (with_reducible refine (kept_checked _ _ _ _ _ ⟨?_, ?_⟩).1.trans ?_) | (with_reducible refine (kept_checked _ _ _ _ _ ⟨?_, ?_⟩).2.trans ?_) | split)))

/-! ## Mesh -/

theorem kept_touchBy (s : State) (pk : Packet) (n : Nat) : (touchBy s pk n).part = s.part ∧ (touchBy s pk n).pending = s.pending := by
  unfold touchBy; constructor <;> (repeat' (first | with_reducible rfl | (simp only [kept_touchColumn]; done) | split))

theorem kept_execMeshRead (pk : Packet) (ecc : Ecc) (s : State) : ∀ t, execMeshRead pk ecc s = .next t → t.part = s.part ∧ t.pending = s.pending := by
  intro t h; unfold execMeshRead at h; dsimp only at h; repeat' (split at h)
  all_goals (rw [← Host.Outcome.next.inj h]; try (constructor <;> simp only [kept_emit, kept_logPartition, kept_latent, kept_saRead, kept_meshTaken, kept_touchBy]))

theorem kept_poisonRange (s : State) (sa len : Nat) : (poisonRange s sa len).part = s.part ∧ (poisonRange s sa len).pending = s.pending := by
  unfold poisonRange; constructor <;> (repeat' (first | with_reducible rfl | (simp only [kept_setPoison]; done) | split | (with_reducible refine foldl_part _ _ _ ?_; intros) | (with_reducible refine (foldl_part _ _ _ ?_).trans ?_; intros) | (with_reducible refine foldl_pending _ _ _ ?_; intros) | (with_reducible refine (foldl_pending _ _ _ ?_).trans ?_; intros)))

theorem kept_execMeshWrite (pk : Packet) (ecc : Ecc) (s : State) : ∀ t, execMeshWrite pk ecc s = .next t → t.part = s.part ∧ t.pending = s.pending := by
  intro t h; unfold execMeshWrite at h; dsimp only at h; repeat' (split at h)
  all_goals (rw [← Host.Outcome.next.inj h]; try (constructor <;> simp only [kept_emit, kept_logPartition, kept_latent, kept_saWrite, kept_meshTaken, kept_touchBy, kept_poisonRange]))

theorem kept_execMeshAtom (pk : Packet) (spec : AtomSpec) (ecc : Ecc) (s : State) : ∀ t, execMeshAtom pk spec ecc s = .next t → t.part = s.part ∧ t.pending = s.pending := by
  intro t h; unfold execMeshAtom at h; dsimp only at h; repeat' (split at h)
  all_goals (rw [← Host.Outcome.next.inj h]; try (constructor <;> simp only [kept_emit, kept_logPartition, kept_latent, kept_cacheWrite, kept_saRead, kept_meshTaken, kept_touchBy]))

theorem kept_landBytes (s : State) (c q id off : Nat) (bs : List Byte) (poison : Option Nat) : (landBytes s c q id off bs poison).part = s.part ∧ (landBytes s c q id off bs poison).pending = s.pending := by
  unfold landBytes; constructor <;> (repeat' (first | with_reducible rfl | (simp only [kept_modCore, kept_modFReq]; done) | split))

theorem kept_landParts (s : State) (c q : Nat) (a0 : List (Nat × Nat × Nat)) (a1 : List Byte) (a2 : Option Nat) : (landParts s c q a0 a1 a2).part = s.part ∧ (landParts s c q a0 a1 a2).pending = s.pending := by
  induction a0 generalizing s c q a1 a2
  all_goals (unfold landParts; constructor <;> (repeat' (first | with_reducible assumption | (simp only [kept_landBytes]; done) | (simp only [kept_landBytes, *]; done) | split | simp only [kept_landBytes] | simp only [kept_landBytes, *] | dsimp only)))

theorem kept_dataBack (s : State) (pk : Packet) : (dataBack s pk).part = s.part ∧ (dataBack s pk).pending = s.pending := by
  unfold dataBack; constructor <;> (repeat' (first | with_reducible assumption | (simp only [kept_meshFree, kept_landParts]; done) | (simp only [kept_meshFree, kept_landParts, *]; done) | split | simp only [kept_meshFree, kept_landParts] | simp only [kept_meshFree, kept_landParts, *] | dsimp only))

theorem kept_execMeshReadData (pk : Packet) (s : State) : ∀ t, execMeshReadData pk s = .next t → t.part = s.part ∧ t.pending = s.pending := by
  intro t h; unfold execMeshReadData at h; repeat' (first | split at h | dsimp only at h)
  all_goals (rw [← Host.Outcome.next.inj h]; constructor <;> (repeat' (first | with_reducible rfl | (simp only [kept_dataBack]; done) | split)))

theorem kept_execMeshWriteAck (pk : Packet) (s : State) : ∀ t, execMeshWriteAck pk s = .next t → t.part = s.part ∧ t.pending = s.pending := by
  intro t h; unfold execMeshWriteAck at h; repeat' (first | split at h | dsimp only at h)
  all_goals (rw [← Host.Outcome.next.inj h]; constructor <;> (repeat' (first | with_reducible rfl | (simp only [kept_meshFree]; done) | split)))

theorem kept_execMeshAtomData (pk : Packet) (s : State) : ∀ t, execMeshAtomData pk s = .next t → t.part = s.part ∧ t.pending = s.pending := by
  intro t h; unfold execMeshAtomData at h; repeat' (first | split at h | dsimp only at h)
  all_goals (rw [← Host.Outcome.next.inj h]; constructor <;> (repeat' (first | with_reducible rfl | (simp only [kept_dataBack]; done) | split)))

theorem kept_landQueue (a0 : Nat) (a1 : State) (a2 : Nat) (a3 : Nat) (a4 : List Byte) (a5 : Option Nat) : (landQueue a0 a1 a2 a3 a4 a5).part = a1.part ∧ (landQueue a0 a1 a2 a3 a4 a5).pending = a1.pending := by
  induction a0 generalizing a1 a2 a3 a4 a5
  all_goals (unfold landQueue; constructor <;> (repeat' (first | with_reducible assumption | (simp only [kept_landBytes]; done) | (simp only [kept_landBytes, *]; done) | split | simp only [kept_landBytes] | simp only [kept_landBytes, *] | dsimp only)))

theorem kept_execMeshQueueData (pk : Packet) (s : State) : ∀ t, execMeshQueueData pk s = .next t → t.part = s.part ∧ t.pending = s.pending := by
  intro t h; unfold execMeshQueueData at h; dsimp only at h; repeat' (split at h)
  all_goals (rw [← Host.Outcome.next.inj h]; try (constructor <;> simp only [kept_emit, kept_meshTaken, kept_landQueue]))

theorem kept_execMeshInterrupt (pk : Packet) (s : State) : ∀ t, execMeshInterrupt pk s = .next t → t.part = s.part ∧ t.pending = s.pending := by
  intro t h; unfold execMeshInterrupt at h; repeat' (first | split at h | dsimp only at h)
  all_goals (rw [← Host.Outcome.next.inj h]; constructor <;> (repeat' (first | with_reducible rfl | (simp only [kept_raiseVec]; done) | split)))

theorem kept_execMeshRegData (pk : Packet) (s : State) : ∀ t, execMeshRegData pk s = .next t → t.part = s.part ∧ t.pending = s.pending := by
  intro t h; unfold execMeshRegData at h; repeat' (first | split at h | dsimp only at h)
  all_goals (rw [← Host.Outcome.next.inj h]; constructor <;> (repeat' (first | with_reducible rfl | (simp only [kept_emit]; done) | split)))

theorem kept_execMeshRegAck (pk : Packet) (s : State) : ∀ t, execMeshRegAck pk s = .next t → t.part = s.part ∧ t.pending = s.pending := by
  intro t h; unfold execMeshRegAck at h; repeat' (first | split at h | dsimp only at h)
  all_goals (rw [← Host.Outcome.next.inj h]; constructor <;> (repeat' (first | with_reducible rfl | (simp only [kept_meshFree]; done) | split)))

theorem kept_execMeshBadPacket (pk : Packet) (s : State) : ∀ t, execMeshBadPacket pk s = .next t → t.part = s.part ∧ t.pending = s.pending := by
  intro t h; unfold execMeshBadPacket at h; repeat' (first | split at h | dsimp only at h)
  all_goals (rw [← Host.Outcome.next.inj h]; constructor <;> (repeat' (first | with_reducible rfl | (simp only [kept_log]; done) | split)))

theorem kept_execScFlush (fn : Fin 18) (v : W64) (s : State) : ∀ t, execScFlush fn v s = .next t → t.part = s.part ∧ t.pending = s.pending := by
  intro t h; unfold execScFlush at h; dsimp only at h; repeat' (split at h)
  all_goals (rw [← Host.Outcome.next.inj h]; try (constructor <;> simp only [kept_setRegFld]))

theorem kept_execScFlushDone (s : State) : ∀ t, execScFlushDone s = .next t → t.part = s.part ∧ t.pending = s.pending := by
  intro t h; unfold execScFlushDone at h; repeat' (first | with_reducible (split at h) | dsimp only at h | split at h)
  all_goals (rw [← Host.Outcome.next.inj h]; constructor <;> (repeat' (first | with_reducible assumption | (simp only [kept_setRegFld, kept_lineBack]; done) | (simp only [kept_setRegFld, kept_lineBack, *]; done) | split | simp only [kept_setRegFld, kept_lineBack] | simp only [kept_setRegFld, kept_lineBack, *] | (with_reducible refine foldl_part _ _ _ ?_; intros) | (with_reducible refine (foldl_part _ _ _ ?_).trans ?_; intros) | (with_reducible refine foldl_pending _ _ _ ?_; intros) | (with_reducible refine (foldl_pending _ _ _ ?_).trans ?_; intros) | (with_reducible refine foldl2_part _ _ _ ?_; intros) | (with_reducible refine (foldl2_part _ _ _ ?_).trans ?_; intros) | (with_reducible refine foldl2_pending _ _ _ ?_; intros) | (with_reducible refine (foldl2_pending _ _ _ ?_).trans ?_; intros) | (with_reducible refine foldl3_part _ _ _ ?_; intros) | (with_reducible refine (foldl3_part _ _ _ ?_).trans ?_; intros) | (with_reducible refine foldl3_pending _ _ _ ?_; intros) | (with_reducible refine (foldl3_pending _ _ _ ?_).trans ?_; intros) | dsimp only)))

theorem kept_setMap (s : State) (t : Tbl Nat) : (setMap s t).part = s.part ∧ (setMap s t).pending = s.pending := by
  unfold setMap; constructor <;> simp only []

theorem kept_execLaneTraining (col : Fin 64) (s : State) : ∀ t, execLaneTraining col s = .next t → t.part = s.part ∧ t.pending = s.pending := by
  intro t h; unfold execLaneTraining at h; dsimp only at h; repeat' (split at h)
  all_goals (rw [← Host.Outcome.next.inj h]; try (constructor <;> simp only [kept_modCol, kept_log, kept_setMap]))

theorem kept_repairLanes (s : State) (col : Nat) (a0 : List Nat) : (repairLanes s col a0).1.part = s.part ∧ (repairLanes s col a0).1.pending = s.pending := by
  induction a0 generalizing s col
  all_goals (unfold repairLanes; constructor <;> (repeat' (first | with_reducible assumption | (simp only [kept_modCol, kept_log]; done) | (simp only [kept_modCol, kept_log, *]; done) | split | simp only [kept_modCol, kept_log] | simp only [kept_modCol, kept_log, *] | dsimp only)))

theorem kept_saveRepair (s : State) (col : Nat) : (saveRepair s col).part = s.part ∧ (saveRepair s col).pending = s.pending := by
  unfold saveRepair; constructor <;> (repeat' (first | with_reducible assumption | (simp only [kept_setMap]; done) | (simp only [kept_setMap, *]; done) | split | simp only [kept_setMap] | simp only [kept_setMap, *] | (with_reducible refine foldl_part _ _ _ ?_; intros) | (with_reducible refine (foldl_part _ _ _ ?_).trans ?_; intros) | (with_reducible refine foldl_pending _ _ _ ?_; intros) | (with_reducible refine (foldl_pending _ _ _ ?_).trans ?_; intros) | (with_reducible refine foldl2_part _ _ _ ?_; intros) | (with_reducible refine (foldl2_part _ _ _ ?_).trans ?_; intros) | (with_reducible refine foldl2_pending _ _ _ ?_; intros) | (with_reducible refine (foldl2_pending _ _ _ ?_).trans ?_; intros) | (with_reducible refine foldl3_part _ _ _ ?_; intros) | (with_reducible refine (foldl3_part _ _ _ ?_).trans ?_; intros) | (with_reducible refine foldl3_pending _ _ _ ?_; intros) | (with_reducible refine (foldl3_pending _ _ _ ?_).trans ?_; intros) | dsimp only))

theorem kept_fenceColumn (s : State) (col : Nat) : (fenceColumn s col).part = s.part ∧ (fenceColumn s col).pending = s.pending := by
  unfold fenceColumn; constructor <;> simp only [kept_modCol, kept_log]

theorem kept_zeroColumn (s : State) (col : Nat) : (zeroColumn s col).part = s.part ∧ (zeroColumn s col).pending = s.pending := by
  unfold zeroColumn; constructor <;> simp only []

theorem kept_execColumnFailed (col : Fin 64) (s : State) : ∀ t, execColumnFailed col s = .next t → t.part = s.part ∧ t.pending = s.pending := by
  intro t h; unfold execColumnFailed at h; repeat' (first | split at h | dsimp only at h)
  all_goals (rw [← Host.Outcome.next.inj h]; constructor <;> (repeat' (first | with_reducible rfl | (simp only [kept_fenceColumn]; done) | split)))

theorem kept_bumpHalf (s : State) (k : Nat) (hi : Bool) : (bumpHalf s k hi).part = s.part ∧ (bumpHalf s k hi).pending = s.pending := by
  unfold bumpHalf; constructor <;> (repeat' (first | with_reducible rfl | (simp only [kept_modReg]; done) | split))

theorem kept_execColumnPortSlot (row col : Fin 8) (write : Bool) (s : State) : ∀ t, execColumnPortSlot row col write s = .next t → t.part = s.part ∧ t.pending = s.pending := by
  intro t h; unfold execColumnPortSlot at h; dsimp only at h; repeat' (split at h)
  all_goals (rw [← Host.Outcome.next.inj h]; try (constructor <;> simp only [kept_bumpHalf]))

/-! ## Tuning -/

theorem kept_stopFeature (s : State) (f : Nat) : (stopFeature s f).part = s.part ∧ (stopFeature s f).pending = s.pending := by
  unfold stopFeature; constructor <;> (repeat' (first | with_reducible rfl | (simp only [kept_setRegFld, kept_recStop]; done) | split))

theorem kept_revokeClaims (s : State) (t : Tuning) : (revokeClaims s t).part = s.part ∧ (revokeClaims s t).pending = s.pending := by
  unfold revokeClaims; constructor <;> (repeat' (first | with_reducible rfl | (simp only [kept_dropRes, kept_stopFeature]; done) | split | (with_reducible refine foldl_part _ _ _ ?_; intros) | (with_reducible refine (foldl_part _ _ _ ?_).trans ?_; intros) | (with_reducible refine foldl_pending _ _ _ ?_; intros) | (with_reducible refine (foldl_pending _ _ _ ?_).trans ?_; intros)))

theorem kept_commitRanges (s : State) : (commitRanges s).part = s.part ∧ (commitRanges s).pending = s.pending := by
  unfold commitRanges; constructor <;> (repeat' (first | with_reducible rfl | (simp only [kept_setReg]; done) | split | (with_reducible refine foldl_part _ _ _ ?_; intros) | (with_reducible refine (foldl_part _ _ _ ?_).trans ?_; intros) | (with_reducible refine foldl_pending _ _ _ ?_; intros) | (with_reducible refine (foldl_pending _ _ _ ?_).trans ?_; intros)))

theorem kept_pinsAfter (a b : State) : (pinsAfter a b).part = b.part ∧ (pinsAfter a b).pending = b.pending := by
  unfold pinsAfter; constructor <;> (repeat' (first | with_reducible assumption | (simp only [kept_emit, kept_modGpx, kept_throttlePin]; done) | (simp only [kept_emit, kept_modGpx, kept_throttlePin, *]; done) | split | simp only [kept_emit, kept_modGpx, kept_throttlePin] | simp only [kept_emit, kept_modGpx, kept_throttlePin, *] | (with_reducible refine foldl_part _ _ _ ?_; intros) | (with_reducible refine (foldl_part _ _ _ ?_).trans ?_; intros) | (with_reducible refine foldl_pending _ _ _ ?_; intros) | (with_reducible refine (foldl_pending _ _ _ ?_).trans ?_; intros) | (with_reducible refine foldl2_part _ _ _ ?_; intros) | (with_reducible refine (foldl2_part _ _ _ ?_).trans ?_; intros) | (with_reducible refine foldl2_pending _ _ _ ?_; intros) | (with_reducible refine (foldl2_pending _ _ _ ?_).trans ?_; intros) | (with_reducible refine foldl3_part _ _ _ ?_; intros) | (with_reducible refine (foldl3_part _ _ _ ?_).trans ?_; intros) | (with_reducible refine foldl3_pending _ _ _ ?_; intros) | (with_reducible refine (foldl3_pending _ _ _ ?_).trans ?_; intros) | dsimp only))

theorem kept_showHash (s : State) (d : List Byte) : (showHash s d).part = s.part ∧ (showHash s d).pending = s.pending := by
  unfold showHash; constructor <;> (repeat' (first | with_reducible rfl | (simp only [kept_setReg]; done) | split | (with_reducible refine foldl_part _ _ _ ?_; intros) | (with_reducible refine (foldl_part _ _ _ ?_).trans ?_; intros) | (with_reducible refine foldl_pending _ _ _ ?_; intros) | (with_reducible refine (foldl_pending _ _ _ ?_).trans ?_; intros)))

theorem kept_fabCommit (s : State) : (fabCommit s).part = s.part ∧ (fabCommit s).pending = s.pending := by
  unfold fabCommit; constructor <;> (repeat' (first | with_reducible rfl | (simp only [kept_modRt, kept_portRestart, kept_admitStatus, kept_fabStream]; done) | (with_reducible refine (kept_eachPort _ _ ?_).1.trans ?_ <;> intros) | (with_reducible refine (kept_eachPort _ _ ?_).2.trans ?_ <;> intros) | (with_reducible refine (kept_eachPort _ _ ?_).1 <;> intros) | (with_reducible refine (kept_eachPort _ _ ?_).2 <;> intros) | (refine ⟨?_, ?_⟩) | split | (with_reducible refine foldl_part _ _ _ ?_; intros) | (with_reducible refine (foldl_part _ _ _ ?_).trans ?_; intros) | (with_reducible refine foldl_pending _ _ _ ?_; intros) | (with_reducible refine (foldl_pending _ _ _ ?_).trans ?_; intros)))

theorem kept_commitTuning (s : State) (t : Tuning) : (commitTuning s t).part = s.part ∧ (commitTuning s t).pending = s.pending := by
  unfold commitTuning; constructor <;> (repeat' (first | with_reducible assumption | (simp only [kept_revokeClaims, kept_commitRanges, kept_pinsAfter, kept_fabCommit]; done) | (simp only [kept_revokeClaims, kept_commitRanges, kept_pinsAfter, kept_fabCommit, *]; done) | split | simp only [kept_revokeClaims, kept_commitRanges, kept_pinsAfter, kept_fabCommit] | simp only [kept_revokeClaims, kept_commitRanges, kept_pinsAfter, kept_fabCommit, *] | dsimp only))

theorem kept_endLoad (s : State) (code : Nat) : (endLoad s code).part = s.part ∧ (endLoad s code).pending = s.pending := by
  unfold endLoad; constructor <;> simp only [kept_setRegFld, kept_raiseCause, kept_log]

theorem kept_writeReport (s : State) (bus : Bool) (ents : List RepEnt) : (writeReport s bus ents).part = s.part ∧ (writeReport s bus ents).pending = s.pending := by
  unfold writeReport; constructor <;> (repeat' (first | with_reducible assumption | (simp only [kept_hostWrite]; done) | (simp only [kept_hostWrite, *]; done) | split | simp only [kept_hostWrite] | simp only [kept_hostWrite, *] | dsimp only))

theorem kept_loadStatus (s : State) (bus chk : Bool) (p : TParse) (n code : Nat) : (loadStatus s bus chk p n code).part = s.part ∧ (loadStatus s bus chk p n code).pending = s.pending := by
  unfold loadStatus; constructor <;> simp only [kept_setReg]

theorem kept_loadTuning (s0 : State) (bus chk : Bool) (bytes : List Byte) : (loadTuning s0 bus chk bytes).part = s0.part ∧ (loadTuning s0 bus chk bytes).pending = s0.pending := by
  unfold loadTuning; split
  · simp only [kept_measure, kept_log, and_self]
  · extract_lets s p r fenced idle code go s1 s2 s3 s4 t5 s5
    have h1 : s1.part = s0.part ∧ s1.pending = s0.pending := by unfold s1 s; split <;> simp only [kept_recInput, and_self]
    have h3 : s3.part = s0.part ∧ s3.pending = s0.pending := by
      simp only [s3, s2, kept_measure, kept_loadStatus, kept_writeReport, h1, and_self]
    have h5 : s5.part = s0.part ∧ s5.pending = s0.pending := by simp only [s5, s4, kept_showHash, kept_commitTuning, h3, and_self]
    split
    · simp only [kept_endLoad, h3, and_self]
    · split
      · simp only [kept_endLoad, h5, and_self]
      · simp only [kept_setRegFld, h5, and_self]

theorem kept_offerLoad (s : State) (bus chk : Bool) (bytes : List Byte) : (offerLoad s bus chk bytes).part = s.part ∧ (offerLoad s bus chk bytes).pending = s.pending := by
  unfold offerLoad; constructor <;> (repeat' (first | with_reducible rfl | (simp only [kept_setRegFld, kept_pushJob, kept_loadTuning]; done) | split))

theorem kept_hostLoad (s : State) (chk : Bool) (image : List Byte) : (hostLoad s chk image).part = s.part ∧ (hostLoad s chk image).pending = s.pending := by
  unfold hostLoad; constructor <;> simp only [kept_offerLoad]

theorem kept_execTuningLoad (fn : Fin 18) (image : List Byte) (s : State) : ∀ t, execTuningLoad fn image s = .next t → t.part = s.part ∧ t.pending = s.pending := by
  intro t h; unfold execTuningLoad at h; repeat' (first | split at h | dsimp only at h)
  all_goals (rw [← Host.Outcome.next.inj h]; constructor <;> (repeat' (first | with_reducible rfl | (simp only [kept_hostLoad]; done) | split)))

theorem kept_execTuningCheckOnly (fn : Fin 18) (image : List Byte) (s : State) : ∀ t, execTuningCheckOnly fn image s = .next t → t.part = s.part ∧ t.pending = s.pending := by
  intro t h; unfold execTuningCheckOnly at h; repeat' (first | split at h | dsimp only at h)
  all_goals (rw [← Host.Outcome.next.inj h]; constructor <;> (repeat' (first | with_reducible rfl | (simp only [kept_hostLoad]; done) | split)))

theorem kept_zeroCore (s : State) (c : Nat) : (zeroCore s c).part = s.part ∧ (zeroCore s c).pending = s.pending := by
  unfold zeroCore; constructor <;> simp only [kept_modArr, kept_modCore]

theorem kept_zeroPart (s : State) (p : Nat) : (zeroPart s p).part = s.part ∧ (zeroPart s p).pending = s.pending := by
  unfold zeroPart; constructor <;> simp only [kept_dropKeys, kept_endLock]

theorem kept_zeroiseAll (s : State) : (zeroiseAll s).part = s.part ∧ (zeroiseAll s).pending = s.pending := by
  unfold zeroiseAll; constructor <;> (repeat' (first | with_reducible rfl | (simp only [kept_zeroAreas, kept_zeroCore, kept_zeroPart]; done) | split | (with_reducible refine foldl_part _ _ _ ?_; intros) | (with_reducible refine (foldl_part _ _ _ ?_).trans ?_; intros) | (with_reducible refine foldl_pending _ _ _ ?_; intros) | (with_reducible refine (foldl_pending _ _ _ ?_).trans ?_; intros)))

theorem kept_execFeatureEnable (feature res part : Nat) (s : State) : ∀ t, execFeatureEnable feature res part s = .next t → t.part = s.part ∧ t.pending = s.pending := by
  intro t h; unfold execFeatureEnable at h; repeat' (first | split at h | dsimp only at h)
  all_goals (rw [← Host.Outcome.next.inj h]; constructor <;> (repeat' (first | with_reducible rfl | (simp only [kept_log, kept_takeRes]; done) | split)))

theorem kept_execFeatureDisable (feature res : Nat) (s : State) : ∀ t, execFeatureDisable feature res s = .next t → t.part = s.part ∧ t.pending = s.pending := by
  intro t h; unfold execFeatureDisable at h; repeat' (first | split at h | dsimp only at h)
  all_goals (rw [← Host.Outcome.next.inj h]; constructor <;> (repeat' (first | with_reducible rfl | (simp only [kept_dropRes, kept_stopFeature]; done) | split)))

/-! ## Programs -/

theorem kept_progEnd (s : State) (p code : Nat) : (progEnd s p code).part = s.part ∧ (progEnd s p code).pending = s.pending := by
  unfold progEnd; constructor <;> (repeat' (first | with_reducible rfl | (simp only [kept_setRegFld, kept_raiseBoth, kept_log]; done) | split))

theorem kept_progBusy (s : State) (p : Nat) : (progBusy s p).part = s.part ∧ (progBusy s p).pending = s.pending := by
  unfold progBusy; constructor <;> simp only [kept_setRegFld, kept_raiseBoth, kept_log]

theorem kept_readImage (s : State) (p addr avail : Nat) : (readImage s p addr avail).2.part = s.part ∧ (readImage s p addr avail).2.pending = s.pending := by
  unfold readImage; constructor <;> (repeat' (first | with_reducible assumption | (simp only [kept_relRead]; done) | (simp only [kept_relRead, *]; done) | split | simp only [kept_relRead] | simp only [kept_relRead, *] | dsimp only))

theorem kept_progLoad (s : State) (fn p : Nat) : (progLoad s fn p).part = s.part ∧ (progLoad s fn p).pending = s.pending := by
  unfold progLoad; constructor <;> (repeat' (first | with_reducible assumption | (simp only [kept_setReg, kept_setRegFld, kept_modPart, kept_measure, kept_recInput, kept_progEnd, kept_readImage]; done) | (simp only [kept_setReg, kept_setRegFld, kept_modPart, kept_measure, kept_recInput, kept_progEnd, kept_readImage, *]; done) | split | simp only [kept_setReg, kept_setRegFld, kept_modPart, kept_measure, kept_recInput, kept_progEnd, kept_readImage] | simp only [kept_setReg, kept_setRegFld, kept_modPart, kept_measure, kept_recInput, kept_progEnd, kept_readImage, *] | (with_reducible refine foldl_part _ _ _ ?_; intros) | (with_reducible refine (foldl_part _ _ _ ?_).trans ?_; intros) | (with_reducible refine foldl_pending _ _ _ ?_; intros) | (with_reducible refine (foldl_pending _ _ _ ?_).trans ?_; intros) | (with_reducible refine foldl2_part _ _ _ ?_; intros) | (with_reducible refine (foldl2_part _ _ _ ?_).trans ?_; intros) | (with_reducible refine foldl2_pending _ _ _ ?_; intros) | (with_reducible refine (foldl2_pending _ _ _ ?_).trans ?_; intros) | (with_reducible refine foldl3_part _ _ _ ?_; intros) | (with_reducible refine (foldl3_part _ _ _ ?_).trans ?_; intros) | (with_reducible refine foldl3_pending _ _ _ ?_; intros) | (with_reducible refine (foldl3_pending _ _ _ ?_).trans ?_; intros) | dsimp only))

theorem kept_progUnload (s : State) (p k : Nat) : (progUnload s p k).part = s.part ∧ (progUnload s p k).pending = s.pending := by
  unfold progUnload; constructor <;> (repeat' (first | with_reducible rfl | (simp only [kept_setRegFld, kept_modPart, kept_progEnd]; done) | split))

theorem kept_progGo (s : State) (fn p off : Nat) (v : W64) : (progGo s fn p off v).part = s.part ∧ (progGo s fn p off v).pending = s.pending := by
  unfold progGo; constructor <;> (repeat' (first | with_reducible assumption | (simp only [kept_recInput, kept_progBusy, kept_progLoad, kept_progUnload]; done) | (simp only [kept_recInput, kept_progBusy, kept_progLoad, kept_progUnload, *]; done) | split | simp only [kept_recInput, kept_progBusy, kept_progLoad, kept_progUnload] | simp only [kept_recInput, kept_progBusy, kept_progLoad, kept_progUnload, *] | dsimp only))

theorem kept_progCtrl (s : State) (fn c : Nat) (v : W64) : (progCtrl s fn c v).part = s.part ∧ (progCtrl s fn c v).pending = s.pending := by
  unfold progCtrl; constructor <;> (repeat' (first | with_reducible assumption | (simp only [kept_progGo]; done) | (simp only [kept_progGo, *]; done) | split | simp only [kept_progGo] | simp only [kept_progGo, *] | dsimp only))

theorem kept_execProgramLoad (fn : Fin 18) (c : Fin 256) (v : W64) (s : State) : ∀ t, execProgramLoad fn c v s = .next t → t.part = s.part ∧ t.pending = s.pending := by
  intro t h; unfold execProgramLoad at h; repeat' (first | split at h | dsimp only at h)
  all_goals (rw [← Host.Outcome.next.inj h]; constructor <;> (repeat' (first | with_reducible rfl | (simp only [kept_progCtrl]; done) | split)))

theorem kept_execProgramUnload (fn : Fin 18) (c : Fin 256) (v : W64) (s : State) : ∀ t, execProgramUnload fn c v s = .next t → t.part = s.part ∧ t.pending = s.pending := by
  intro t h; unfold execProgramUnload at h; repeat' (first | split at h | dsimp only at h)
  all_goals (rw [← Host.Outcome.next.inj h]; constructor <;> (repeat' (first | with_reducible rfl | (simp only [kept_progCtrl]; done) | split)))

theorem kept_initLayers (s : State) (p : Nat) (g : Prog) : (initLayers s p g).part = s.part ∧ (initLayers s p g).pending = s.pending := by
  unfold initLayers; constructor <;> (repeat' (first | with_reducible rfl | (simp only [kept_relWrite]; done) | split | (with_reducible refine foldl_part _ _ _ ?_; intros) | (with_reducible refine (foldl_part _ _ _ ?_).trans ?_; intros) | (with_reducible refine foldl_pending _ _ _ ?_; intros) | (with_reducible refine (foldl_pending _ _ _ ?_).trans ?_; intros)))

theorem kept_saveInit (s : State) (p k : Nat) (g : Prog) (v : VCore) (n : Nat) : (saveInit s p k g v n).part = s.part ∧ (saveInit s p k g v n).pending = s.pending := by
  unfold saveInit; constructor <;> simp only [kept_modPart, kept_areaWrite]

theorem kept_writeInit (s : State) (p : Nat) (g : Prog) (v : VCore) : (writeInit s p g v).part = s.part ∧ (writeInit s p g v).pending = s.pending := by
  unfold writeInit; constructor <;> (repeat' (first | with_reducible rfl | (simp only [kept_modArr, kept_modCore]; done) | split))

theorem kept_writeTenant (s : State) (p k : Nat) (g : Prog) (v : VCore) : (writeTenant s p k g v).part = s.part ∧ (writeTenant s p k g v).pending = s.pending := by
  unfold writeTenant; constructor <;> (repeat' (first | with_reducible rfl | (simp only [kept_saveInit, kept_writeInit]; done) | split))

theorem kept_writeTenants (s : State) (p k : Nat) (g : Prog) (here : Bool) : (writeTenants s p k g here).part = s.part ∧ (writeTenants s p k g here).pending = s.pending := by
  unfold writeTenants; constructor <;> (repeat' (first | with_reducible assumption | (simp only [kept_modPart, kept_showTenants, kept_loadCodes, kept_writeTenant]; done) | (simp only [kept_modPart, kept_showTenants, kept_loadCodes, kept_writeTenant, *]; done) | split | simp only [kept_modPart, kept_showTenants, kept_loadCodes, kept_writeTenant] | simp only [kept_modPart, kept_showTenants, kept_loadCodes, kept_writeTenant, *] | (with_reducible refine foldl_part _ _ _ ?_; intros) | (with_reducible refine (foldl_part _ _ _ ?_).trans ?_; intros) | (with_reducible refine foldl_pending _ _ _ ?_; intros) | (with_reducible refine (foldl_pending _ _ _ ?_).trans ?_; intros) | (with_reducible refine foldl2_part _ _ _ ?_; intros) | (with_reducible refine (foldl2_part _ _ _ ?_).trans ?_; intros) | (with_reducible refine foldl2_pending _ _ _ ?_; intros) | (with_reducible refine (foldl2_pending _ _ _ ?_).trans ?_; intros) | (with_reducible refine foldl3_part _ _ _ ?_; intros) | (with_reducible refine (foldl3_part _ _ _ ?_).trans ?_; intros) | (with_reducible refine foldl3_pending _ _ _ ?_; intros) | (with_reducible refine (foldl3_pending _ _ _ ?_).trans ?_; intros) | dsimp only))

theorem kept_installGroups (s : State) (p k : Nat) (g : Prog) : (installGroups s p k g).part = s.part ∧ (installGroups s p k g).pending = s.pending := by
  unfold installGroups; constructor <;> (repeat' (first | with_reducible assumption | (simp only [kept_setGrp, kept_scaleFlush, kept_scalePut]; done) | (simp only [kept_setGrp, kept_scaleFlush, kept_scalePut, *]; done) | split | simp only [kept_setGrp, kept_scaleFlush, kept_scalePut] | simp only [kept_setGrp, kept_scaleFlush, kept_scalePut, *] | (with_reducible refine foldl_part _ _ _ ?_; intros) | (with_reducible refine (foldl_part _ _ _ ?_).trans ?_; intros) | (with_reducible refine foldl_pending _ _ _ ?_; intros) | (with_reducible refine (foldl_pending _ _ _ ?_).trans ?_; intros) | (with_reducible refine foldl2_part _ _ _ ?_; intros) | (with_reducible refine (foldl2_part _ _ _ ?_).trans ?_; intros) | (with_reducible refine foldl2_pending _ _ _ ?_; intros) | (with_reducible refine (foldl2_pending _ _ _ ?_).trans ?_; intros) | (with_reducible refine foldl3_part _ _ _ ?_; intros) | (with_reducible refine (foldl3_part _ _ _ ?_).trans ?_; intros) | (with_reducible refine foldl3_pending _ _ _ ?_; intros) | (with_reducible refine (foldl3_pending _ _ _ ?_).trans ?_; intros) | dsimp only))

theorem kept_claimWatchdog (s : State) (p k : Nat) (g : Prog) : (claimWatchdog s p k g).part = s.part ∧ (claimWatchdog s p k g).pending = s.pending := by
  unfold claimWatchdog; constructor <;> (repeat' (first | with_reducible assumption | (simp only [kept_modPart, kept_log, kept_takeRes]; done) | (simp only [kept_modPart, kept_log, kept_takeRes, *]; done) | split | simp only [kept_modPart, kept_log, kept_takeRes] | simp only [kept_modPart, kept_log, kept_takeRes, *] | dsimp only))

theorem kept_execProgramLoadDone (p : Fin 16) (s : State) : ∀ t, execProgramLoadDone p s = .next t → t.part = s.part ∧ t.pending = s.pending := by
  intro t h; unfold execProgramLoadDone at h; dsimp only at h; repeat' (split at h)
  all_goals (rw [← Host.Outcome.next.inj h]; try (constructor <;> simp only [kept_modReg, kept_setRegFld, kept_modPart, kept_log, kept_betweenNow, kept_modRec, kept_beginStep, kept_rejoinProg, kept_progEnd, kept_initLayers, kept_writeTenants, kept_installGroups, kept_claimWatchdog]))

theorem kept_zeroTenants (s : State) (p k : Nat) (g : Prog) : (zeroTenants s p k g).part = s.part ∧ (zeroTenants s p k g).pending = s.pending := by
  unfold zeroTenants; constructor <;> (repeat' (first | with_reducible assumption | (simp only [kept_modCore, kept_areaWrite]; done) | (simp only [kept_modCore, kept_areaWrite, *]; done) | split | simp only [kept_modCore, kept_areaWrite] | simp only [kept_modCore, kept_areaWrite, *] | (with_reducible refine foldl_part _ _ _ ?_; intros) | (with_reducible refine (foldl_part _ _ _ ?_).trans ?_; intros) | (with_reducible refine foldl_pending _ _ _ ?_; intros) | (with_reducible refine (foldl_pending _ _ _ ?_).trans ?_; intros) | (with_reducible refine foldl2_part _ _ _ ?_; intros) | (with_reducible refine (foldl2_part _ _ _ ?_).trans ?_; intros) | (with_reducible refine foldl2_pending _ _ _ ?_; intros) | (with_reducible refine (foldl2_pending _ _ _ ?_).trans ?_; intros) | (with_reducible refine foldl3_part _ _ _ ?_; intros) | (with_reducible refine (foldl3_part _ _ _ ?_).trans ?_; intros) | (with_reducible refine foldl3_pending _ _ _ ?_; intros) | (with_reducible refine (foldl3_pending _ _ _ ?_).trans ?_; intros) | dsimp only))

theorem kept_clearCores (s : State) (g : Prog) : (clearCores s g).part = s.part ∧ (clearCores s g).pending = s.pending := by
  unfold clearCores; constructor <;> (repeat' (first | with_reducible rfl | (simp only [kept_modCore]; done) | split | (with_reducible refine foldl_part _ _ _ ?_; intros) | (with_reducible refine (foldl_part _ _ _ ?_).trans ?_; intros) | (with_reducible refine foldl_pending _ _ _ ?_; intros) | (with_reducible refine (foldl_pending _ _ _ ?_).trans ?_; intros)))

theorem kept_freeWatchdog (s : State) : (freeWatchdog s).part = s.part ∧ (freeWatchdog s).pending = s.pending := by
  unfold freeWatchdog; constructor <;> (repeat' (first | with_reducible rfl | (simp only [kept_dropRes]; done) | split | (with_reducible refine foldl_part _ _ _ ?_; intros) | (with_reducible refine (foldl_part _ _ _ ?_).trans ?_; intros) | (with_reducible refine foldl_pending _ _ _ ?_; intros) | (with_reducible refine (foldl_pending _ _ _ ?_).trans ?_; intros)))

theorem kept_dropProg (s : State) (p k : Nat) : (dropProg s p k).part = s.part ∧ (dropProg s p k).pending = s.pending := by
  unfold dropProg; constructor <;> (repeat' (first | with_reducible assumption | (simp only [kept_modReg, kept_modPart, kept_setGrp, kept_freeWatchdog]; done) | (simp only [kept_modReg, kept_modPart, kept_setGrp, kept_freeWatchdog, *]; done) | split | simp only [kept_modReg, kept_modPart, kept_setGrp, kept_freeWatchdog] | simp only [kept_modReg, kept_modPart, kept_setGrp, kept_freeWatchdog, *] | (with_reducible refine foldl_part _ _ _ ?_; intros) | (with_reducible refine (foldl_part _ _ _ ?_).trans ?_; intros) | (with_reducible refine foldl_pending _ _ _ ?_; intros) | (with_reducible refine (foldl_pending _ _ _ ?_).trans ?_; intros) | (with_reducible refine foldl2_part _ _ _ ?_; intros) | (with_reducible refine (foldl2_part _ _ _ ?_).trans ?_; intros) | (with_reducible refine foldl2_pending _ _ _ ?_; intros) | (with_reducible refine (foldl2_pending _ _ _ ?_).trans ?_; intros) | (with_reducible refine foldl3_part _ _ _ ?_; intros) | (with_reducible refine (foldl3_part _ _ _ ?_).trans ?_; intros) | (with_reducible refine foldl3_pending _ _ _ ?_; intros) | (with_reducible refine (foldl3_pending _ _ _ ?_).trans ?_; intros) | dsimp only))

theorem kept_execProgramUnloadApply (p : Fin 16) (k : Fin 8) (s : State) : ∀ t, execProgramUnloadApply p k s = .next t → t.part = s.part ∧ t.pending = s.pending := by
  intro t h; unfold execProgramUnloadApply at h; dsimp only at h; repeat' (split at h)
  all_goals (rw [← Host.Outcome.next.inj h]; try (constructor <;> simp only [kept_modPart, kept_pruneAreas, kept_swapBegin, kept_progEnd, kept_zeroTenants, kept_clearCores, kept_dropProg]))

end Sys2Proof.Machine
end

