-- ==== Sys2Proof/Laws/KeptHost.lean ====
section
/-! SUPPORT. The same of power, reset, security, host, debug and registers; an SVN commit only blows fuses (R2, R362). -/

namespace Sys2Proof.Machine

set_option linter.unusedSimpArgs false

/-! ## Security -/

theorem kept_countUp (s : State) (p counter : Nat) : (countUp s p counter).part = s.part ∧ (countUp s p counter).pending = s.pending := by
  unfold countUp; constructor <;> simp only []

theorem kept_mbRun (s : State) (fn : Nat) (r : List Byte) (run : State → MbEnd) (h : ∀ y, (run y).1.part = y.part ∧ (run y).1.pending = y.pending) :
    (mbRun s fn r run).part = s.part ∧ (mbRun s fn r run).pending = s.pending := by
  unfold mbRun; extract_lets s1 e big code body s2 rsp
  have h1 : s1.part = s.part ∧ s1.pending = s.pending := by simp only [s1, kept_recInput, and_self]
  have he : e.1.part = s.part ∧ e.1.pending = s.pending := by unfold e; split <;> simp only [h, h1, and_self]
  have h2 : s2.part = s.part ∧ s2.pending = s.pending := by unfold s2; split <;> simp only [kept_secLog, he, h1, and_self]
  simp only [kept_setRegFld, kept_modFn, h2, and_self]

theorem kept_mailbox (s : State) (fn : Nat) (r : List Byte) (run : State → MbEnd) (h : ∀ y, (run y).1.part = y.part ∧ (run y).1.pending = y.pending) :
    (mailbox s fn r run).part = s.part ∧ (mailbox s fn r run).pending = s.pending := by
  unfold mailbox; extract_lets k fresh
  have hf (y : State) : (fresh y).part = y.part ∧ (fresh y).pending = y.pending := by simp only [fresh, kept_modFn, and_self]
  split
  · simp only [kept_secLog, kept_setRegFld, and_self]
  · split
    · have hk := kept_mbRun (fresh s) fn r run h
      simp only [hk, hf, and_self]
    · simp only [kept_setRegFld, kept_pushJob, kept_modFn, hf, and_self]

theorem kept_mbCommand (s : State) (fn op : Nat) (hostReq : List Byte) (run : State → List Byte → MbEnd) (hrun : ∀ y0 y1, (run y0 y1).1.part = y0.part ∧ (run y0 y1).1.pending = y0.pending) : ∀ t, mbCommand s fn op hostReq run = .next t → t.part = s.part ∧ t.pending = s.pending := by
  intro t h; unfold mbCommand at h; dsimp only at h
  split at h
  · cases h; exact ⟨rfl, rfl⟩
  · split at h
    · cases h; exact kept_mailbox _ _ _ _ (fun y => hrun _ _)
    · split at h
      · cases h; exact kept_mailbox _ _ _ _ (fun y => ⟨rfl, rfl⟩)
      · cases h; exact ⟨rfl, rfl⟩

theorem kept_refuse (s : State) (code : Nat) : (refuse s code).1.part = s.part ∧ (refuse s code).1.pending = s.pending := by
  unfold refuse; constructor <;> simp only []

theorem kept_mbCerts (s : State) (r : List Byte) : (mbCerts s r).1.part = s.part ∧ (mbCerts s r).1.pending = s.pending := by
  unfold mbCerts; constructor <;> (repeat' (first | with_reducible rfl | (simp only [kept_refuse]; done) | split))

theorem kept_mbAttest (s : State) (fn : Nat) (r : List Byte) : (mbAttest s fn r).1.part = s.part ∧ (mbAttest s fn r).1.pending = s.pending := by
  unfold mbAttest; constructor <;> (repeat' (first | with_reducible assumption | (simp only [kept_signId, kept_refuse]; done) | (simp only [kept_signId, kept_refuse, *]; done) | split | simp only [kept_signId, kept_refuse] | simp only [kept_signId, kept_refuse, *] | dsimp only))

theorem kept_mbLog (s : State) (r : List Byte) : (mbLog s r).1.part = s.part ∧ (mbLog s r).1.pending = s.pending := by
  unfold mbLog; constructor <;> (repeat' (first | with_reducible assumption | (simp only [kept_refuse]; done) | (simp only [kept_refuse, *]; done) | split | simp only [kept_refuse] | simp only [kept_refuse, *] | dsimp only))

theorem kept_zeroRegion (s : State) (p : Nat) : (zeroRegion s p).part = s.part ∧ (zeroRegion s p).pending = s.pending := by
  unfold zeroRegion; constructor <;> simp only [kept_zeroAreas]

theorem kept_mbLock (s : State) (fn : Nat) (r : List Byte) : (mbLock s fn r).1.part = s.part ∧ (mbLock s fn r).1.pending = s.pending := by
  unfold mbLock; constructor <;> (repeat' (first | with_reducible assumption | (simp only [kept_measure, kept_refuse, kept_zeroRegion]; done) | (simp only [kept_measure, kept_refuse, kept_zeroRegion, *]; done) | split | simp only [kept_measure, kept_refuse, kept_zeroRegion] | simp only [kept_measure, kept_refuse, kept_zeroRegion, *] | dsimp only))

theorem kept_zeroisePart (s : State) (p : Nat) : (zeroisePart s p).part = s.part ∧ (zeroisePart s p).pending = s.pending := by
  unfold zeroisePart; constructor <;> (repeat' (first | with_reducible assumption | (simp only [kept_zeroAreas, kept_zeroCore, kept_zeroPart]; done) | (simp only [kept_zeroAreas, kept_zeroCore, kept_zeroPart, *]; done) | split | simp only [kept_zeroAreas, kept_zeroCore, kept_zeroPart] | simp only [kept_zeroAreas, kept_zeroCore, kept_zeroPart, *] | (with_reducible refine foldl_part _ _ _ ?_; intros) | (with_reducible refine (foldl_part _ _ _ ?_).trans ?_; intros) | (with_reducible refine foldl_pending _ _ _ ?_; intros) | (with_reducible refine (foldl_pending _ _ _ ?_).trans ?_; intros) | (with_reducible refine foldl2_part _ _ _ ?_; intros) | (with_reducible refine (foldl2_part _ _ _ ?_).trans ?_; intros) | (with_reducible refine foldl2_pending _ _ _ ?_; intros) | (with_reducible refine (foldl2_pending _ _ _ ?_).trans ?_; intros) | (with_reducible refine foldl3_part _ _ _ ?_; intros) | (with_reducible refine (foldl3_part _ _ _ ?_).trans ?_; intros) | (with_reducible refine foldl3_pending _ _ _ ?_; intros) | (with_reducible refine (foldl3_pending _ _ _ ?_).trans ?_; intros) | dsimp only))

theorem kept_mbUnlock (s : State) (fn : Nat) (r : List Byte) : (mbUnlock s fn r).1.part = s.part ∧ (mbUnlock s fn r).1.pending = s.pending := by
  unfold mbUnlock; constructor <;> (repeat' (first | with_reducible assumption | (simp only [kept_endLock, kept_refuse, kept_zeroisePart]; done) | (simp only [kept_endLock, kept_refuse, kept_zeroisePart, *]; done) | split | simp only [kept_endLock, kept_refuse, kept_zeroisePart] | simp only [kept_endLock, kept_refuse, kept_zeroisePart, *] | dsimp only))

theorem kept_install (s : State) (fn p n : Nat) (secret digest : List Byte) : (install s fn p n secret digest).part = s.part ∧ (install s fn p n secret digest).pending = s.pending := by
  unfold install; constructor <;> simp only [kept_measure, kept_setSlot, kept_vaultSave]

theorem kept_mbAgree (s : State) (fn : Nat) (r : List Byte) : (mbAgree s fn r).1.part = s.part ∧ (mbAgree s fn r).1.pending = s.pending := by
  unfold mbAgree; constructor <;> (repeat' (first | with_reducible assumption | (simp only [kept_signId, kept_countUp, kept_refuse, kept_install]; done) | (simp only [kept_signId, kept_countUp, kept_refuse, kept_install, *]; done) | split | simp only [kept_signId, kept_countUp, kept_refuse, kept_install] | simp only [kept_signId, kept_countUp, kept_refuse, kept_install, *] | dsimp only))

theorem kept_mbImport (s : State) (fn : Nat) (r : List Byte) : (mbImport s fn r).1.part = s.part ∧ (mbImport s fn r).1.pending = s.pending := by
  unfold mbImport; constructor <;> (repeat' (first | with_reducible assumption | (simp only [kept_countUp, kept_refuse, kept_install]; done) | (simp only [kept_countUp, kept_refuse, kept_install, *]; done) | split | simp only [kept_countUp, kept_refuse, kept_install] | simp only [kept_countUp, kept_refuse, kept_install, *] | dsimp only))

theorem kept_mbDestroy (s : State) (fn : Nat) (r : List Byte) : (mbDestroy s fn r).1.part = s.part ∧ (mbDestroy s fn r).1.pending = s.pending := by
  unfold mbDestroy; constructor <;> (repeat' (first | with_reducible assumption | (simp only [kept_setSlot, kept_vaultSave, kept_countUp, kept_refuse]; done) | (simp only [kept_setSlot, kept_vaultSave, kept_countUp, kept_refuse, *]; done) | split | simp only [kept_setSlot, kept_vaultSave, kept_countUp, kept_refuse] | simp only [kept_setSlot, kept_vaultSave, kept_countUp, kept_refuse, *] | dsimp only))

/-- Nothing is issued, grade and fused cores stay, and security version fuses only blow, 64 at most (R2, R362). -/
def Rises (s t : State) : Prop :=
  t.pending = s.pending ∧ t.part.grade = s.part.grade ∧ t.part.fused = s.part.fused ∧ s.part.svnFuses ≤ t.part.svnFuses ∧
  (s.part.svnFuses ≤ 64 → t.part.svnFuses ≤ 64)

theorem Rises.of_kept {s t : State} (h : t.part = s.part ∧ t.pending = s.pending) : Rises s t :=
  ⟨h.2, by rw [h.1], by rw [h.1], Nat.le_of_eq (by rw [h.1]), by rw [h.1]; exact id⟩

theorem Rises.trans {s t r : State} (h : Rises s t) (h' : Rises t r) : Rises s r :=
  ⟨h'.1.trans h.1, h'.2.1.trans h.2.1, h'.2.2.1.trans h.2.2.1, Nat.le_trans h.2.2.2.1 h'.2.2.2.1, fun k => h'.2.2.2.2 (h.2.2.2.2 k)⟩

theorem rises_mbSvn (s : State) (fn : Nat) (r : List Byte) : Rises s (mbSvn s fn r).1 := by
  unfold mbSvn; dsimp only; split
  · exact .of_kept ⟨rfl, rfl⟩
  · rename_i h
    refine ⟨rfl, rfl, rfl, Nat.le_max_left _ _, fun k => Nat.max_le.mpr ⟨k, ?_⟩⟩
    simp only [Bool.or_eq_true, decide_eq_true_eq, not_or] at h
    omega

theorem rises_mbRun (s : State) (fn : Nat) (r : List Byte) (run : State → MbEnd) (h : ∀ y, Rises y (run y).1) : Rises s (mbRun s fn r run) := by
  unfold mbRun; extract_lets s1 e big code body s2 rsp
  have h1 : Rises s s1 := .of_kept (by simp only [s1, kept_recInput, and_self])
  have he : Rises s e.1 := by
    unfold e; split
    · exact h1.trans (h s1)
    · exact h1
  have h2 : Rises s s2 := by
    unfold s2; split
    · exact he
    · exact h1.trans (.of_kept (by simp only [kept_secLog, and_self]))
  exact h2.trans (.of_kept (by simp only [kept_setRegFld, kept_modFn, and_self]))

theorem rises_mailbox (s : State) (fn : Nat) (r : List Byte) (run : State → MbEnd) (h : ∀ y, Rises y (run y).1) : Rises s (mailbox s fn r run) := by
  unfold mailbox; extract_lets k fresh
  have hf (y : State) : (fresh y).part = y.part ∧ (fresh y).pending = y.pending := by simp only [fresh, kept_modFn, and_self]
  split
  · exact .of_kept (by simp only [kept_secLog, kept_setRegFld, and_self])
  · split
    · exact (Rises.of_kept (hf s)).trans (rises_mbRun _ _ _ _ h)
    · exact .of_kept (by simp only [kept_setRegFld, kept_pushJob, kept_modFn, hf, and_self])

theorem kept_execGetCerts (fn : Fin 18) (hostReq : List Byte) (s : State) : ∀ t, execGetCerts fn hostReq s = .next t → t.part = s.part ∧ t.pending = s.pending := by
  intro t h; exact kept_mbCommand _ _ _ _ _ (fun y z => kept_mbCerts _ _) t h

theorem kept_execAttest (fn : Fin 18) (hostReq : List Byte) (s : State) : ∀ t, execAttest fn hostReq s = .next t → t.part = s.part ∧ t.pending = s.pending := by
  intro t h; exact kept_mbCommand _ _ _ _ _ (fun y z => kept_mbAttest _ _ _) t h

theorem kept_execLogRead (fn : Fin 18) (hostReq : List Byte) (s : State) : ∀ t, execLogRead fn hostReq s = .next t → t.part = s.part ∧ t.pending = s.pending := by
  intro t h; exact kept_mbCommand _ _ _ _ _ (fun y z => kept_mbLog _ _) t h

theorem kept_execLock (fn : Fin 18) (hostReq : List Byte) (s : State) : ∀ t, execLock fn hostReq s = .next t → t.part = s.part ∧ t.pending = s.pending := by
  intro t h; exact kept_mbCommand _ _ _ _ _ (fun y z => kept_mbLock _ _ _) t h

theorem kept_execUnlock (fn : Fin 18) (hostReq : List Byte) (s : State) : ∀ t, execUnlock fn hostReq s = .next t → t.part = s.part ∧ t.pending = s.pending := by
  intro t h; exact kept_mbCommand _ _ _ _ _ (fun y z => kept_mbUnlock _ _ _) t h

theorem kept_execKeyAgree (fn : Fin 18) (hostReq : List Byte) (s : State) : ∀ t, execKeyAgree fn hostReq s = .next t → t.part = s.part ∧ t.pending = s.pending := by
  intro t h; exact kept_mbCommand _ _ _ _ _ (fun y z => kept_mbAgree _ _ _) t h

theorem kept_execKeyImport (fn : Fin 18) (hostReq : List Byte) (s : State) : ∀ t, execKeyImport fn hostReq s = .next t → t.part = s.part ∧ t.pending = s.pending := by
  intro t h; exact kept_mbCommand _ _ _ _ _ (fun y z => kept_mbImport _ _ _) t h

theorem kept_execKeyDestroy (fn : Fin 18) (hostReq : List Byte) (s : State) : ∀ t, execKeyDestroy fn hostReq s = .next t → t.part = s.part ∧ t.pending = s.pending := by
  intro t h; exact kept_mbCommand _ _ _ _ _ (fun y z => kept_mbDestroy _ _ _) t h

theorem rises_execSvnCommit (fn : Fin 18) (hostReq : List Byte) (s : State) : ∀ t, execSvnCommit fn hostReq s = .next t → Rises s t := by
  intro t h; unfold execSvnCommit mbCommand at h; dsimp only at h
  split at h
  · cases h; exact .of_kept ⟨rfl, rfl⟩
  · split at h
    · cases h; exact rises_mailbox _ _ _ _ (fun y => rises_mbSvn _ _ _)
    · split at h
      · cases h; exact rises_mailbox _ _ _ _ (fun y => .of_kept ⟨rfl, rfl⟩)
      · cases h; exact .of_kept ⟨rfl, rfl⟩

theorem rises_mbAny (s : State) (fn : Nat) (r : List Byte) : Rises s (mbAny s fn r).1 := by
  unfold mbAny; split
  · exact .of_kept (kept_mbCerts _ _)
  · exact .of_kept (kept_mbAttest _ _ _)
  · exact .of_kept (kept_mbLog _ _)
  · exact .of_kept (kept_mbLock _ _ _)
  · exact .of_kept (kept_mbUnlock _ _ _)
  · exact .of_kept (kept_mbAgree _ _ _)
  · exact .of_kept (kept_mbImport _ _ _)
  · exact .of_kept (kept_mbDestroy _ _ _)
  · exact rises_mbSvn _ _ _
  · exact .of_kept (kept_refuse _ _)

theorem rises_mbHeldRun (s : State) (fn : Nat) : Rises s (mbHeldRun s fn) := by
  unfold mbHeldRun; split
  · exact rises_mbRun _ _ _ _ (fun y => rises_mbAny _ _ _)
  · exact .of_kept ⟨rfl, rfl⟩

theorem rises_serve (n : Nat) (s : State) : Rises s (serve n s) := by
  induction n generalizing s with
  | zero => exact .of_kept ⟨rfl, rfl⟩
  | succ k ih =>
    unfold serve
    split
    · exact .of_kept ⟨rfl, rfl⟩
    · split
      · rename_i bus chk bytes js hj
        have h1 : Rises s (setRegFld { s with tun := { s.tun with jobs := js } } R.TUN_STATUS 1 0 0) :=
          .of_kept ⟨(kept_setRegFld _ _ _ _ _).1, (kept_setRegFld _ _ _ _ _).2⟩
        exact h1.trans ((Rises.of_kept (kept_loadTuning _ _ _ _)).trans (ih _))
      · rename_i fn js hj
        have h1 : Rises s { s with tun := { s.tun with jobs := js } } := .of_kept ⟨rfl, rfl⟩
        exact h1.trans ((rises_mbHeldRun _ _).trans (ih _))
      · exact .of_kept ⟨rfl, rfl⟩

theorem rises_fwResume (s : State) : Rises s (fwResume s) := rises_serve _ _

/-- A step that changes nothing of the part or the queue, and then serves what waits. -/
theorem rises_then {s u : State} (h : u.part = s.part ∧ u.pending = s.pending) : Rises s (fwResume u) := (Rises.of_kept h).trans (rises_fwResume u)

theorem rises_execTuningZeroiseDone (s : State) : ∀ t, execTuningZeroiseDone s = .next t → Rises s t := by
  intro t h; unfold execTuningZeroiseDone at h
  split at h <;> rw [← Host.Outcome.next.inj h]
  · exact rises_then (by simp only [kept_endLoad, kept_zeroiseAll, and_self])
  · exact .of_kept ⟨rfl, rfl⟩

theorem kept_mbAnswer (s : State) (fn : Nat) (f : FnSt) : (mbAnswer s fn f).part = s.part ∧ (mbAnswer s fn f).pending = s.pending := by
  unfold mbAnswer; constructor <;> (repeat' (first | with_reducible rfl | (simp only [kept_setReg, kept_setRegFld, kept_modFn, kept_hostWrite, kept_raiseCause]; done) | split))

theorem rises_execMailboxDone (fn : Fin 18) (s : State) : ∀ t, execMailboxDone fn s = .next t → Rises s t := by
  intro t h; unfold execMailboxDone at h; dsimp only at h
  split at h <;> rw [← Host.Outcome.next.inj h]
  · exact .of_kept ⟨rfl, rfl⟩
  · exact rises_then (by simp only [kept_mbAnswer, and_self])

theorem kept_execFirmwareUpdate (image : List Byte) (s : State) : ∀ t, execFirmwareUpdate image s = .next t → t.part = s.part ∧ t.pending = s.pending := by
  intro t h; unfold execFirmwareUpdate at h; dsimp only at h; repeat' (split at h)
  all_goals (rw [← Host.Outcome.next.inj h]; try (constructor <;> simp only [kept_measure]))

theorem kept_execIdeKm (stream : Fin 17) (s : State) : ∀ t, execIdeKm stream s = .next t → t.part = s.part ∧ t.pending = s.pending := by
  intro t h; unfold execIdeKm at h; dsimp only at h; repeat' (split at h)
  all_goals (rw [← Host.Outcome.next.inj h]; try (constructor <;> simp only [kept_hostRelease]))

theorem kept_failHost (s : State) (idx : Nat) : (failHost s idx).part = s.part ∧ (failHost s idx).pending = s.pending := by
  unfold failHost; constructor <;> (repeat' (first | with_reducible rfl | (simp only [kept_flightEnd]; done) | split | (with_reducible refine foldl_part _ _ _ ?_; intros) | (with_reducible refine (foldl_part _ _ _ ?_).trans ?_; intros) | (with_reducible refine foldl_pending _ _ _ ?_; intros) | (with_reducible refine (foldl_pending _ _ _ ?_).trans ?_; intros)))

theorem kept_execHostIdeError (stream : Fin 17) (hit : List Nat) (s : State) : ∀ t, execHostIdeError stream hit s = .next t → t.part = s.part ∧ t.pending = s.pending := by
  intro t h; unfold execHostIdeError at h; repeat' (first | split at h | dsimp only at h)
  all_goals (rw [← Host.Outcome.next.inj h]; constructor <;> (repeat' (first | with_reducible rfl | (simp only [kept_log, kept_failHost]; done) | split | (with_reducible refine foldl_part _ _ _ ?_; intros) | (with_reducible refine (foldl_part _ _ _ ?_).trans ?_; intros) | (with_reducible refine foldl_pending _ _ _ ?_; intros) | (with_reducible refine (foldl_pending _ _ _ ?_).trans ?_; intros))))

/-! ## Power -/

theorem kept_pwrLog (s : State) (code z : Nat) : (pwrLog s code z).part = s.part ∧ (pwrLog s code z).pending = s.pending := by
  unfold pwrLog; constructor <;> simp only [kept_log]

theorem kept_setBand (s : State) (b : Nat) : (setBand s b).part = s.part ∧ (setBand s b).pending = s.pending := by
  unfold setBand; constructor <;> (repeat' (first | with_reducible rfl | (simp only [kept_raiseCause]; done) | split))

theorem kept_setGate (s : State) (z k : Nat) : (setGate s z k).part = s.part ∧ (setGate s z k).pending = s.pending := by
  unfold setGate; constructor <;> simp only []

theorem kept_closeGates (s : State) (k : Nat) : (closeGates s k).part = s.part ∧ (closeGates s k).pending = s.pending := by
  unfold closeGates; constructor <;> (repeat' (first | with_reducible rfl | (simp only [kept_setGate]; done) | split | (with_reducible refine foldl_part _ _ _ ?_; intros) | (with_reducible refine (foldl_part _ _ _ ?_).trans ?_; intros) | (with_reducible refine foldl_pending _ _ _ ?_; intros) | (with_reducible refine (foldl_pending _ _ _ ?_).trans ?_; intros)))

theorem kept_droneOff (s : State) : (droneOff s).part = s.part ∧ (droneOff s).pending = s.pending := by
  unfold droneOff; constructor <;> simp only []

theorem kept_execGateEval (ramp : List Nat) (progW droneMax : Nat) (s : State) : ∀ t, execGateEval ramp progW droneMax s = .next t → t.part = s.part ∧ t.pending = s.pending := by
  intro t h; unfold execGateEval at h; repeat' (first | with_reducible (split at h) | dsimp only at h | split at h)
  all_goals (rw [← Host.Outcome.next.inj h]; constructor <;> (repeat' (first | with_reducible assumption | (simp only [kept_modReg, kept_pwrLog, kept_setGate]; done) | (simp only [kept_modReg, kept_pwrLog, kept_setGate, *]; done) | split | simp only [kept_modReg, kept_pwrLog, kept_setGate] | simp only [kept_modReg, kept_pwrLog, kept_setGate, *] | (with_reducible refine foldl_part _ _ _ ?_; intros) | (with_reducible refine (foldl_part _ _ _ ?_).trans ?_; intros) | (with_reducible refine foldl_pending _ _ _ ?_; intros) | (with_reducible refine (foldl_pending _ _ _ ?_).trans ?_; intros) | (with_reducible refine foldl2_part _ _ _ ?_; intros) | (with_reducible refine (foldl2_part _ _ _ ?_).trans ?_; intros) | (with_reducible refine foldl2_pending _ _ _ ?_; intros) | (with_reducible refine (foldl2_pending _ _ _ ?_).trans ?_; intros) | (with_reducible refine foldl3_part _ _ _ ?_; intros) | (with_reducible refine (foldl3_part _ _ _ ?_).trans ?_; intros) | (with_reducible refine foldl3_pending _ _ _ ?_; intros) | (with_reducible refine (foldl3_pending _ _ _ ?_).trans ?_; intros) | dsimp only)))

theorem kept_setMv (s : State) (mv : Nat) : (setMv s mv).part = s.part ∧ (setMv s mv).pending = s.pending := by
  unfold setMv; constructor <;> simp only []

theorem kept_execSupplyHigh (mv : Nat) (s : State) : ∀ t, execSupplyHigh mv s = .next t → t.part = s.part ∧ t.pending = s.pending := by
  intro t h; unfold execSupplyHigh at h; dsimp only at h; repeat' (split at h)
  all_goals (rw [← Host.Outcome.next.inj h]; try (constructor <;> simp only [kept_logMerged, kept_throttlePin, kept_setBand, kept_setMv]))

theorem kept_execSupplyThrottle (mv : Nat) (s : State) : ∀ t, execSupplyThrottle mv s = .next t → t.part = s.part ∧ t.pending = s.pending := by
  intro t h; unfold execSupplyThrottle at h; dsimp only at h; repeat' (split at h)
  all_goals (rw [← Host.Outcome.next.inj h]; try (constructor <;> simp only [kept_throttlePin, kept_pwrLog, kept_setBand, kept_closeGates, kept_droneOff, kept_setMv]))

theorem kept_execSupplyNormal (mv : Nat) (s : State) : ∀ t, execSupplyNormal mv s = .next t → t.part = s.part ∧ t.pending = s.pending := by
  intro t h; unfold execSupplyNormal at h; repeat' (first | split at h | dsimp only at h)
  all_goals (rw [← Host.Outcome.next.inj h]; constructor <;> (repeat' (first | with_reducible rfl | (simp only [kept_throttlePin, kept_setBand, kept_setMv]; done) | split)))

theorem kept_allLinksDown (s : State) : (allLinksDown s).part = s.part ∧ (allLinksDown s).pending = s.pending := by
  unfold allLinksDown; constructor <;> (repeat' (first | with_reducible rfl | (simp only [kept_portTx]; done) | (with_reducible refine (kept_eachPort _ _ ?_).1.trans ?_ <;> intros) | (with_reducible refine (kept_eachPort _ _ ?_).2.trans ?_ <;> intros) | (with_reducible refine (kept_eachPort _ _ ?_).1 <;> intros) | (with_reducible refine (kept_eachPort _ _ ?_).2 <;> intros) | (refine ⟨?_, ?_⟩) | split | (with_reducible refine foldl_part _ _ _ ?_; intros) | (with_reducible refine (foldl_part _ _ _ ?_).trans ?_; intros) | (with_reducible refine foldl_pending _ _ _ ?_; intros) | (with_reducible refine (foldl_pending _ _ _ ?_).trans ?_; intros)))

theorem kept_journalsOut (s : State) : (journalsOut s).part = s.part ∧ (journalsOut s).pending = s.pending := by
  unfold journalsOut; constructor <;> (repeat' (first | with_reducible rfl | (simp only [kept_modRt, kept_jrnWrite]; done) | split | (with_reducible refine foldl_part _ _ _ ?_; intros) | (with_reducible refine (foldl_part _ _ _ ?_).trans ?_; intros) | (with_reducible refine foldl_pending _ _ _ ?_; intros) | (with_reducible refine (foldl_pending _ _ _ ?_).trans ?_; intros)))

theorem kept_beginStop (s : State) (commanded : Bool) : (beginStop s commanded).part = s.part ∧ (beginStop s commanded).pending = s.pending := by
  unfold beginStop; constructor <;> simp only [kept_closeOpens, kept_throttlePin, kept_setBand, kept_closeGates, kept_droneOff, kept_allLinksDown, kept_journalsOut]

theorem kept_dieOff (s : State) (ph : Phase) : (dieOff s ph).part = s.part ∧ (dieOff s ph).pending = s.pending := by
  unfold dieOff; constructor <;> simp only []

theorem kept_execSupplyStop (mv : Nat) (s : State) : ∀ t, execSupplyStop mv s = .next t → t.part = s.part ∧ t.pending = s.pending := by
  intro t h; unfold execSupplyStop at h; dsimp only at h; repeat' (split at h)
  all_goals (rw [← Host.Outcome.next.inj h]; try (constructor <;> simp only [kept_pwrLog, kept_setMv, kept_beginStop, kept_dieOff]))

theorem kept_execHoldupDepleted (s : State) : ∀ t, execHoldupDepleted s = .next t → t.part = s.part ∧ t.pending = s.pending := by
  intro t h; unfold execHoldupDepleted at h; dsimp only at h; repeat' (split at h)
  all_goals (rw [← Host.Outcome.next.inj h]; try (constructor <;> simp only []))

theorem kept_flashRec (s : State) (code : Nat) : (flashRec s code).part = s.part ∧ (flashRec s code).pending = s.pending := by
  unfold flashRec; constructor <;> simp only []

theorem kept_execInrushFault (s : State) : ∀ t, execInrushFault s = .next t → t.part = s.part ∧ t.pending = s.pending := by
  intro t h; unfold execInrushFault at h; repeat' (first | split at h | dsimp only at h)
  all_goals (rw [← Host.Outcome.next.inj h]; constructor <;> (repeat' (first | with_reducible rfl | (simp only [kept_flashRec]; done) | split)))

theorem kept_execInrushRetry (s : State) : ∀ t, execInrushRetry s = .next t → t.part = s.part ∧ t.pending = s.pending := by
  intro t h; unfold execInrushRetry at h; repeat' (first | split at h | dsimp only at h)
  all_goals (rw [← Host.Outcome.next.inj h]; constructor <;> (repeat' (first | with_reducible rfl | (simp only []; done) | split)))

theorem kept_setHot (s : State) (z cut : Nat) (ep : Bool) : (setHot s z cut ep).part = s.part ∧ (setHot s z cut ep).pending = s.pending := by
  unfold setHot; constructor <;> simp only []

theorem kept_episode (s : State) (code z : Nat) : (episode s code z).part = s.part ∧ (episode s code z).pending = s.pending := by
  unfold episode; constructor <;> simp only [kept_raiseCause, kept_pwrLog]

theorem kept_classCap (s : State) : (classCap s).part = s.part ∧ (classCap s).pending = s.pending := by
  unfold classCap; constructor <;> (repeat' (first | with_reducible assumption | (simp only [kept_episode]; done) | (simp only [kept_episode, *]; done) | split | simp only [kept_episode] | simp only [kept_episode, *] | dsimp only))

theorem kept_thermalCap (s : State) (z : Nat) : (thermalCap s z).part = s.part ∧ (thermalCap s z).pending = s.pending := by
  unfold thermalCap; constructor <;> (repeat' (first | with_reducible assumption | (simp only [kept_setHot, kept_episode]; done) | (simp only [kept_setHot, kept_episode, *]; done) | split | simp only [kept_setHot, kept_episode] | simp only [kept_setHot, kept_episode, *] | dsimp only))

theorem kept_trip (s : State) : (trip s).part = s.part ∧ (trip s).pending = s.pending := by
  unfold trip; constructor <;> simp only [kept_throttlePin, kept_pwrLog, kept_setBand, kept_closeGates, kept_droneOff, kept_dieOff]

theorem kept_execCapEval (s : State) : ∀ t, execCapEval s = .next t → t.part = s.part ∧ t.pending = s.pending := by
  intro t h; unfold execCapEval at h; repeat' (first | split at h | dsimp only at h)
  all_goals (rw [← Host.Outcome.next.inj h]; constructor <;> (repeat' (first | with_reducible rfl | (simp only [kept_setReg, kept_classCap, kept_thermalCap, kept_trip]; done) | split | (with_reducible refine foldl_part _ _ _ ?_; intros) | (with_reducible refine (foldl_part _ _ _ ?_).trans ?_; intros) | (with_reducible refine foldl_pending _ _ _ ?_; intros) | (with_reducible refine (foldl_pending _ _ _ ?_).trans ?_; intros))))

theorem kept_execTelemetrySample (mv watts board : Nat) (zones : List (Nat × Nat × Nat)) (s : State) : ∀ t, execTelemetrySample mv watts board zones s = .next t → t.part = s.part ∧ t.pending = s.pending := by
  intro t h; unfold execTelemetrySample at h; dsimp only at h; repeat' (split at h)
  all_goals (rw [← Host.Outcome.next.inj h]; try (constructor <;> simp only []))

theorem kept_execTelemetryRecord (s : State) : ∀ t, execTelemetryRecord s = .next t → t.part = s.part ∧ t.pending = s.pending := by
  intro t h; unfold execTelemetryRecord at h; dsimp only at h; repeat' (split at h)
  all_goals (rw [← Host.Outcome.next.inj h]; try (constructor <;> simp only [kept_hostWrite]))

theorem kept_histAdd (s : State) (z : Nat) : (histAdd s z).part = s.part ∧ (histAdd s z).pending = s.pending := by
  unfold histAdd; constructor <;> simp only []

theorem kept_execPoweredHour (slow : List Nat) (s : State) : ∀ t, execPoweredHour slow s = .next t → t.part = s.part ∧ t.pending = s.pending := by
  intro t h; unfold execPoweredHour at h; repeat' (first | with_reducible (split at h) | dsimp only at h | split at h)
  all_goals (rw [← Host.Outcome.next.inj h]; constructor <;> (repeat' (first | with_reducible assumption | (simp only [kept_pushJob, kept_histAdd]; done) | (simp only [kept_pushJob, kept_histAdd, *]; done) | split | simp only [kept_pushJob, kept_histAdd] | simp only [kept_pushJob, kept_histAdd, *] | (with_reducible refine foldl_part _ _ _ ?_; intros) | (with_reducible refine (foldl_part _ _ _ ?_).trans ?_; intros) | (with_reducible refine foldl_pending _ _ _ ?_; intros) | (with_reducible refine (foldl_pending _ _ _ ?_).trans ?_; intros) | (with_reducible refine foldl2_part _ _ _ ?_; intros) | (with_reducible refine (foldl2_part _ _ _ ?_).trans ?_; intros) | (with_reducible refine foldl2_pending _ _ _ ?_; intros) | (with_reducible refine (foldl2_pending _ _ _ ?_).trans ?_; intros) | (with_reducible refine foldl3_part _ _ _ ?_; intros) | (with_reducible refine (foldl3_part _ _ _ ?_).trans ?_; intros) | (with_reducible refine foldl3_pending _ _ _ ?_; intros) | (with_reducible refine (foldl3_pending _ _ _ ?_).trans ?_; intros) | dsimp only)))

theorem kept_planZone (s : State) (cls z : Nat) : (planZone s cls z).1.part = s.part ∧ (planZone s cls z).1.pending = s.pending := by
  unfold planZone; constructor <;> (repeat' (first | with_reducible assumption | (simp only [kept_setVolt, kept_pwrLog]; done) | (simp only [kept_setVolt, kept_pwrLog, *]; done) | split | simp only [kept_setVolt, kept_pwrLog] | simp only [kept_setVolt, kept_pwrLog, *] | (with_reducible refine foldl_part _ _ _ ?_; intros) | (with_reducible refine (foldl_part _ _ _ ?_).trans ?_; intros) | (with_reducible refine foldl_pending _ _ _ ?_; intros) | (with_reducible refine (foldl_pending _ _ _ ?_).trans ?_; intros) | (with_reducible refine foldl2_part _ _ _ ?_; intros) | (with_reducible refine (foldl2_part _ _ _ ?_).trans ?_; intros) | (with_reducible refine foldl2_pending _ _ _ ?_; intros) | (with_reducible refine (foldl2_pending _ _ _ ?_).trans ?_; intros) | (with_reducible refine foldl3_part _ _ _ ?_; intros) | (with_reducible refine (foldl3_part _ _ _ ?_).trans ?_; intros) | (with_reducible refine foldl3_pending _ _ _ ?_; intros) | (with_reducible refine (foldl3_pending _ _ _ ?_).trans ?_; intros) | dsimp only))

theorem kept_planZones (s : State) (cls : Nat) : (planZones s cls).1.part = s.part ∧ (planZones s cls).1.pending = s.pending := by
  unfold planZones; constructor <;> (repeat' (first | with_reducible assumption | (simp only [kept_planZone]; done) | (simp only [kept_planZone, *]; done) | split | simp only [kept_planZone] | simp only [kept_planZone, *] | (with_reducible refine foldl_part _ _ _ ?_; intros) | (with_reducible refine (foldl_part _ _ _ ?_).trans ?_; intros) | (with_reducible refine foldl_pending _ _ _ ?_; intros) | (with_reducible refine (foldl_pending _ _ _ ?_).trans ?_; intros) | (with_reducible refine foldl2_part _ _ _ ?_; intros) | (with_reducible refine (foldl2_part _ _ _ ?_).trans ?_; intros) | (with_reducible refine foldl2_pending _ _ _ ?_; intros) | (with_reducible refine (foldl2_pending _ _ _ ?_).trans ?_; intros) | (with_reducible refine foldl3_part _ _ _ ?_; intros) | (with_reducible refine (foldl3_part _ _ _ ?_).trans ?_; intros) | (with_reducible refine foldl3_pending _ _ _ ?_; intros) | (with_reducible refine (foldl3_pending _ _ _ ?_).trans ?_; intros) | dsimp only))

theorem kept_replan (s : State) (cause : Nat) : (replan s cause).part = s.part ∧ (replan s cause).pending = s.pending := by
  unfold replan; constructor <;> (repeat' (first | with_reducible assumption | (simp only [kept_pwrLog, kept_planZones]; done) | (simp only [kept_pwrLog, kept_planZones, *]; done) | split | simp only [kept_pwrLog, kept_planZones] | simp only [kept_pwrLog, kept_planZones, *] | dsimp only))

theorem rises_execReplan (write : Option (Fin 18)) (s : State) : ∀ t, execReplan write s = .next t → Rises s t := by
  intro t h; unfold execReplan at h
  split at h
  · split at h <;> rw [← Host.Outcome.next.inj h]
    · exact .of_kept ⟨rfl, rfl⟩
    · exact .of_kept (kept_pushJob _ _)
  · split at h
    · rename_i c js hj
      split at h <;> rw [← Host.Outcome.next.inj h]
      · have h1 : Rises s { s with tun := { s.tun with jobs := js } } := .of_kept ⟨rfl, rfl⟩
        exact h1.trans ((Rises.of_kept (kept_replan _ _)).trans (rises_fwResume _))
      · exact .of_kept ⟨rfl, rfl⟩
    · rw [← Host.Outcome.next.inj h]; exact .of_kept ⟨rfl, rfl⟩

/-! ## Reset -/

theorem kept_freshDie (s : State) (ph : Phase) (stack : StackSt) : (freshDie s ph stack).part = s.part ∧ (freshDie s ph stack).pending = s.pending := by
  unfold freshDie; constructor <;> simp only []

theorem kept_noteReset (s : State) (last scope warm : Nat) : (noteReset s last scope warm).part = s.part ∧ (noteReset s last scope warm).pending = s.pending := by
  unfold noteReset; constructor <;> simp only [kept_setRegFld]

theorem kept_execPowerOn (mv : Nat) (s : State) : ∀ t, execPowerOn mv s = .next t → t.part = s.part ∧ t.pending = s.pending := by
  intro t h; unfold execPowerOn at h; repeat' (first | split at h | dsimp only at h)
  all_goals (rw [← Host.Outcome.next.inj h]; constructor <;> (repeat' (first | with_reducible rfl | (simp only [kept_setMv, kept_freshDie]; done) | split)))

theorem kept_execHoldupCharged (mv : Nat) (s : State) : ∀ t, execHoldupCharged mv s = .next t → t.part = s.part ∧ t.pending = s.pending := by
  intro t h; unfold execHoldupCharged at h; dsimp only at h; repeat' (split at h)
  all_goals (rw [← Host.Outcome.next.inj h]; try (constructor <;> simp only [kept_setMv]))

theorem kept_execRefPresent (s : State) : ∀ t, execRefPresent s = .next t → t.part = s.part ∧ t.pending = s.pending := by
  intro t h; unfold execRefPresent at h; dsimp only at h; repeat' (split at h)
  all_goals (rw [← Host.Outcome.next.inj h]; try (constructor <;> simp only []))

theorem kept_execBootRefTimeout (s : State) : ∀ t, execBootRefTimeout s = .next t → t.part = s.part ∧ t.pending = s.pending := by
  intro t h; unfold execBootRefTimeout at h; repeat' (first | split at h | dsimp only at h)
  all_goals (rw [← Host.Outcome.next.inj h]; constructor <;> (repeat' (first | with_reducible rfl | (simp only [kept_log]; done) | split)))

theorem kept_lockZones (s : State) : (lockZones s).part = s.part ∧ (lockZones s).pending = s.pending := by
  unfold lockZones; constructor <;> (repeat' (first | with_reducible rfl | (simp only [kept_modZone]; done) | split | (with_reducible refine foldl_part _ _ _ ?_; intros) | (with_reducible refine (foldl_part _ _ _ ?_).trans ?_; intros) | (with_reducible refine foldl_pending _ _ _ ?_; intros) | (with_reducible refine (foldl_pending _ _ _ ?_).trans ?_; intros)))

theorem kept_startImage (s : State) (k : Bank) (fell : Bool) : (startImage s k fell).part = s.part ∧ (startImage s k fell).pending = s.pending := by
  unfold startImage; constructor <;> (repeat' (first | with_reducible rfl | (simp only [kept_measure, kept_secLog, kept_lockZones]; done) | split))

theorem kept_execBootRom (s : State) : ∀ t, execBootRom s = .next t → t.part = s.part ∧ t.pending = s.pending := by
  intro t h; unfold execBootRom at h; repeat' (first | split at h | dsimp only at h)
  all_goals (rw [← Host.Outcome.next.inj h]; constructor <;> (repeat' (first | with_reducible rfl | (simp only [kept_secLog, kept_startImage]; done) | split)))

theorem kept_unloadAll (s : State) : (unloadAll s).part = s.part ∧ (unloadAll s).pending = s.pending := by
  unfold unloadAll; constructor <;> (repeat' (first | with_reducible assumption | (simp only [kept_modPart, kept_modSeal, kept_dropProg]; done) | (simp only [kept_modPart, kept_modSeal, kept_dropProg, *]; done) | split | simp only [kept_modPart, kept_modSeal, kept_dropProg] | simp only [kept_modPart, kept_modSeal, kept_dropProg, *] | (with_reducible refine foldl_part _ _ _ ?_; intros) | (with_reducible refine (foldl_part _ _ _ ?_).trans ?_; intros) | (with_reducible refine foldl_pending _ _ _ ?_; intros) | (with_reducible refine (foldl_pending _ _ _ ?_).trans ?_; intros) | (with_reducible refine foldl2_part _ _ _ ?_; intros) | (with_reducible refine (foldl2_part _ _ _ ?_).trans ?_; intros) | (with_reducible refine foldl2_pending _ _ _ ?_; intros) | (with_reducible refine (foldl2_pending _ _ _ ?_).trans ?_; intros) | (with_reducible refine foldl3_part _ _ _ ?_; intros) | (with_reducible refine (foldl3_part _ _ _ ?_).trans ?_; intros) | (with_reducible refine foldl3_pending _ _ _ ?_; intros) | (with_reducible refine (foldl3_pending _ _ _ ?_).trans ?_; intros) | dsimp only))

theorem kept_stackClear (s : State) : (stackClear s).part = s.part ∧ (stackClear s).pending = s.pending := by
  unfold stackClear; constructor <;> simp only []

theorem kept_endLocks (s : State) : (endLocks s).part = s.part ∧ (endLocks s).pending = s.pending := by
  unfold endLocks; constructor <;> (repeat' (first | with_reducible rfl | (simp only [kept_endLock]; done) | split | (with_reducible refine foldl_part _ _ _ ?_; intros) | (with_reducible refine (foldl_part _ _ _ ?_).trans ?_; intros) | (with_reducible refine foldl_pending _ _ _ ?_; intros) | (with_reducible refine (foldl_pending _ _ _ ?_).trans ?_; intros)))

theorem kept_forceTuning (s : State) (t : Tuning) : (forceTuning s t).part = s.part ∧ (forceTuning s t).pending = s.pending := by
  unfold forceTuning; constructor <;> simp only [kept_measure, kept_showHash, kept_commitTuning]

theorem kept_zoneTargets (s : State) : (zoneTargets s).part = s.part ∧ (zoneTargets s).pending = s.pending := by
  unfold zoneTargets; constructor <;> (repeat' (first | with_reducible rfl | (simp only [kept_modZone]; done) | split | (with_reducible refine foldl_part _ _ _ ?_; intros) | (with_reducible refine (foldl_part _ _ _ ?_).trans ?_; intros) | (with_reducible refine foldl_pending _ _ _ ?_; intros) | (with_reducible refine (foldl_pending _ _ _ ?_).trans ?_; intros)))

theorem kept_bootReady (s : State) : (bootReady s).part = s.part ∧ (bootReady s).pending = s.pending := by
  unfold bootReady; constructor <;> simp only []

theorem rises_bootFinish (s : State) : Rises s (bootFinish s) := by
  unfold bootFinish; exact rises_then (by simp only [kept_bootReady, kept_zoneTargets, kept_forceTuning, kept_endLocks, kept_stackClear, and_self])

theorem kept_columnDone (s : State) (col : Nat) (failed : List Nat) : (columnDone s col failed).part = s.part ∧ (columnDone s col failed).pending = s.pending := by
  unfold columnDone; constructor <;> (repeat' (first | with_reducible assumption | (simp only [kept_modCol, kept_log, kept_repairLanes, kept_saveRepair, kept_fenceColumn, kept_zeroColumn, kept_unloadAll]; done) | (simp only [kept_modCol, kept_log, kept_repairLanes, kept_saveRepair, kept_fenceColumn, kept_zeroColumn, kept_unloadAll, *]; done) | split | simp only [kept_modCol, kept_log, kept_repairLanes, kept_saveRepair, kept_fenceColumn, kept_zeroColumn, kept_unloadAll] | simp only [kept_modCol, kept_log, kept_repairLanes, kept_saveRepair, kept_fenceColumn, kept_zeroColumn, kept_unloadAll, *] | dsimp only))

theorem rises_execLaneTrainingDone (col : Fin 64) (failed : List (Fin 4672)) (s : State) : ∀ t, execLaneTrainingDone col failed s = .next t → Rises s t := by
  intro t h; unfold execLaneTrainingDone at h
  split at h <;> rw [← Host.Outcome.next.inj h]
  · exact .of_kept ⟨rfl, rfl⟩
  · split
    · exact (Rises.of_kept (by simp only [kept_columnDone, and_self])).trans (rises_bootFinish _)
    · exact .of_kept (by simp only [kept_columnDone, and_self])

theorem kept_keptZeroise (s : State) : (keptZeroise s).part = s.part ∧ (keptZeroise s).pending = s.pending := by
  unfold keptZeroise; constructor <;> (repeat' (first | with_reducible rfl | (simp only [kept_setRegFld]; done) | split))

theorem kept_warmDie (s : State) (loss : Bool) : (warmDie s loss).part = s.part ∧ (warmDie s loss).pending = s.pending := by
  unfold warmDie; constructor <;> simp only [kept_keptZeroise]

theorem kept_warmEnter (s : State) (loss : Bool) : (warmEnter s loss).part = s.part ∧ (warmEnter s loss).pending = s.pending := by
  unfold warmEnter; constructor <;> (repeat' (first | with_reducible rfl | (simp only [kept_closeOpens, kept_allLinksDown, kept_journalsOut, kept_noteReset, kept_warmDie]; done) | split))

theorem kept_coldEnter (s : State) : (coldEnter s).part = s.part ∧ (coldEnter s).pending = s.pending := by
  unfold coldEnter; constructor <;> (repeat' (first | with_reducible rfl | (simp only [kept_allLinksDown, kept_freshDie, kept_noteReset]; done) | split))

theorem kept_holdReset (s : State) (scope : Nat) : (holdReset s scope).part = s.part ∧ (holdReset s scope).pending = s.pending := by
  unfold holdReset; constructor <;> simp only []

theorem kept_execWarmReset (fn : Fin 18) (v : W64) (s : State) : ∀ t, execWarmReset fn v s = .next t → t.part = s.part ∧ t.pending = s.pending := by
  intro t h; unfold execWarmReset at h; repeat' (first | split at h | dsimp only at h)
  all_goals (rw [← Host.Outcome.next.inj h]; constructor <;> (repeat' (first | with_reducible rfl | (simp only [kept_warmEnter, kept_holdReset]; done) | split)))

theorem kept_execColdReset (fn : Fin 18) (v : W64) (s : State) : ∀ t, execColdReset fn v s = .next t → t.part = s.part ∧ t.pending = s.pending := by
  intro t h; unfold execColdReset at h; repeat' (first | split at h | dsimp only at h)
  all_goals (rw [← Host.Outcome.next.inj h]; constructor <;> (repeat' (first | with_reducible rfl | (simp only [kept_coldEnter, kept_holdReset]; done) | split)))

theorem kept_endSmall (s : State) : (endSmall s).part = s.part ∧ (endSmall s).pending = s.pending := by
  unfold endSmall; constructor <;> (repeat' (first | with_reducible rfl | (simp only [kept_setRegFld]; done) | split))

theorem kept_execShutdown (fn : Fin 18) (v : W64) (s : State) : ∀ t, execShutdown fn v s = .next t → t.part = s.part ∧ t.pending = s.pending := by
  intro t h; unfold execShutdown at h; repeat' (first | split at h | dsimp only at h)
  all_goals (rw [← Host.Outcome.next.inj h]; constructor <;> (repeat' (first | with_reducible rfl | (simp only [kept_beginStop, kept_holdReset, kept_endSmall]; done) | split)))

theorem kept_execPerst (s : State) : ∀ t, execPerst s = .next t → t.part = s.part ∧ t.pending = s.pending := by
  intro t h; unfold execPerst at h; dsimp only at h; repeat' (split at h)
  all_goals (rw [← Host.Outcome.next.inj h]; try (constructor <;> simp only [kept_warmEnter, kept_holdReset]))

theorem kept_execRetentionEnter (s : State) : ∀ t, execRetentionEnter s = .next t → t.part = s.part ∧ t.pending = s.pending := by
  intro t h; unfold execRetentionEnter at h; dsimp only at h; repeat' (split at h)
  all_goals (rw [← Host.Outcome.next.inj h]; try (constructor <;> simp only [kept_setRegFld, kept_dieOff, kept_warmEnter, kept_coldEnter]))

theorem kept_execSupplyRideThrough (mv : Nat) (s : State) : ∀ t, execSupplyRideThrough mv s = .next t → t.part = s.part ∧ t.pending = s.pending := by
  intro t h; unfold execSupplyRideThrough at h; repeat' (first | split at h | dsimp only at h)
  all_goals (rw [← Host.Outcome.next.inj h]; constructor <;> (repeat' (first | with_reducible rfl | (simp only [kept_pwrLog, kept_setMv, kept_warmEnter, kept_coldEnter]; done) | split)))

theorem kept_reinstall (s : State) (v n : Nat) : (reinstall s v n).part = s.part ∧ (reinstall s v n).pending = s.pending := by
  unfold reinstall; constructor <;> (repeat' (first | with_reducible assumption | (simp only [kept_setSlot, kept_secLog]; done) | (simp only [kept_setSlot, kept_secLog, *]; done) | split | simp only [kept_setSlot, kept_secLog] | simp only [kept_setSlot, kept_secLog, *] | dsimp only))

theorem kept_reinstallLock (s : State) (l : Nat × LockRec) : (reinstallLock s l).part = s.part ∧ (reinstallLock s l).pending = s.pending := by
  unfold reinstallLock; constructor <;> (repeat' (first | with_reducible rfl | (simp only [kept_reinstall]; done) | split | (with_reducible refine foldl_part _ _ _ ?_; intros) | (with_reducible refine (foldl_part _ _ _ ?_).trans ?_; intros) | (with_reducible refine foldl_pending _ _ _ ?_; intros) | (with_reducible refine (foldl_pending _ _ _ ?_).trans ?_; intros)))

theorem kept_reinstallAll (s : State) : (reinstallAll s).part = s.part ∧ (reinstallAll s).pending = s.pending := by
  unfold reinstallAll; constructor <;> (repeat' (first | with_reducible rfl | (simp only [kept_reinstallLock]; done) | split | (with_reducible refine foldl_part _ _ _ ?_; intros) | (with_reducible refine (foldl_part _ _ _ ?_).trans ?_; intros) | (with_reducible refine foldl_pending _ _ _ ?_; intros) | (with_reducible refine (foldl_pending _ _ _ ?_).trans ?_; intros)))

theorem kept_reloadPart (s : State) (p : Nat) : (reloadPart s p).part = s.part ∧ (reloadPart s p).pending = s.pending := by
  unfold reloadPart; constructor <;> (repeat' (first | with_reducible rfl | (simp only [kept_writeTenants, kept_claimWatchdog]; done) | split | (with_reducible refine foldl_part _ _ _ ?_; intros) | (with_reducible refine (foldl_part _ _ _ ?_).trans ?_; intros) | (with_reducible refine foldl_pending _ _ _ ?_; intros) | (with_reducible refine (foldl_pending _ _ _ ?_).trans ?_; intros)))

theorem kept_resumePart (s : State) (p : Nat) : (resumePart s p).part = s.part ∧ (resumePart s p).pending = s.pending := by
  unfold resumePart; constructor <;> (repeat' (first | with_reducible assumption | (simp only [kept_modPart, kept_recordRead, kept_stepBoundary, kept_rejoinProg]; done) | (simp only [kept_modPart, kept_recordRead, kept_stepBoundary, kept_rejoinProg, *]; done) | split | simp only [kept_modPart, kept_recordRead, kept_stepBoundary, kept_rejoinProg] | simp only [kept_modPart, kept_recordRead, kept_stepBoundary, kept_rejoinProg, *] | dsimp only))

theorem kept_relockZones (s : State) : (relockZones s).part = s.part ∧ (relockZones s).pending = s.pending := by
  unfold relockZones; constructor <;> (repeat' (first | with_reducible rfl | (simp only [kept_modZone]; done) | split | (with_reducible refine foldl_part _ _ _ ?_; intros) | (with_reducible refine (foldl_part _ _ _ ?_).trans ?_; intros) | (with_reducible refine foldl_pending _ _ _ ?_; intros) | (with_reducible refine (foldl_pending _ _ _ ?_).trans ?_; intros)))

theorem rises_execWarmResetRestart (s : State) : ∀ t, execWarmResetRestart s = .next t → Rises s t := by
  intro t h; unfold execWarmResetRestart at h
  dsimp only at h; split at h <;> rw [← Host.Outcome.next.inj h]
  · exact .of_kept ⟨rfl, rfl⟩
  · refine rises_then ?_
    constructor
    · refine (foldl_part _ _ _ (fun y a => by simp only [kept_resumePart])).trans ((kept_eachPort _ _ (fun y n => by simp only [kept_portRestart, and_self])).1.trans ((foldl_part _ _ _ (fun y a => by simp only [kept_reloadPart])).trans ?_))
      split <;> simp only [kept_reinstallAll, kept_relockZones]
    · refine (foldl_pending _ _ _ (fun y a => by simp only [kept_resumePart])).trans ((kept_eachPort _ _ (fun y n => by simp only [kept_portRestart, and_self])).2.trans ((foldl_pending _ _ _ (fun y a => by simp only [kept_reloadPart])).trans ?_))
      split <;> simp only [kept_reinstallAll, kept_relockZones]

theorem kept_beginSmall (s : State) (scope target : Nat) : (beginSmall s scope target).part = s.part ∧ (beginSmall s scope target).pending = s.pending := by
  unfold beginSmall; constructor <;> simp only [kept_setRegFld]

theorem kept_reloadCore (s : State) (p c : Nat) : (reloadCore s p c).part = s.part ∧ (reloadCore s p c).pending = s.pending := by
  unfold reloadCore; constructor <;> (repeat' (first | with_reducible rfl | (simp only [kept_modCore, kept_loadCode, kept_writeTenant]; done) | split | (with_reducible refine foldl_part _ _ _ ?_; intros) | (with_reducible refine (foldl_part _ _ _ ?_).trans ?_; intros) | (with_reducible refine foldl_pending _ _ _ ?_; intros) | (with_reducible refine (foldl_pending _ _ _ ?_).trans ?_; intros)))

theorem kept_crossAbort (s : State) (p c : Nat) : (crossAbort s p c).part = s.part ∧ (crossAbort s p c).pending = s.pending := by
  unfold crossAbort; constructor <;> (repeat' (first | with_reducible assumption | (simp only [kept_log, kept_abortStep]; done) | (simp only [kept_log, kept_abortStep, *]; done) | split | simp only [kept_log, kept_abortStep] | simp only [kept_log, kept_abortStep, *] | dsimp only))

theorem kept_crossPoison (s : State) (l : List (Nat × MeshReq)) : (crossPoison s l).part = s.part ∧ (crossPoison s l).pending = s.pending := by
  unfold crossPoison; constructor <;> (repeat' (first | with_reducible rfl | (simp only [kept_modReg, kept_coreFaultAt]; done) | split | (with_reducible refine foldl_part _ _ _ ?_; intros) | (with_reducible refine (foldl_part _ _ _ ?_).trans ?_; intros) | (with_reducible refine foldl_pending _ _ _ ?_; intros) | (with_reducible refine (foldl_pending _ _ _ ?_).trans ?_; intros)))

theorem kept_execCoreReset (fn : Fin 18) (v : W64) (s : State) : ∀ t, execCoreReset fn v s = .next t → t.part = s.part ∧ t.pending = s.pending := by
  intro t h; unfold execCoreReset at h; dsimp only at h; repeat' (split at h)
  all_goals (rw [← Host.Outcome.next.inj h]; try (constructor <;> simp only [kept_setReg, kept_setArr, kept_setCore, kept_strFault, kept_flushSet, kept_beginSmall, kept_reloadCore, kept_crossAbort, kept_crossPoison]))

theorem kept_execPortReset (fn : Fin 18) (v : W64) (s : State) : ∀ t, execPortReset fn v s = .next t → t.part = s.part ∧ t.pending = s.pending := by
  intro t h; unfold execPortReset at h; dsimp only at h; repeat' (split at h)
  all_goals (rw [← Host.Outcome.next.inj h]; try (constructor <;> simp only [kept_modPort, kept_resetOver, kept_portTrain, kept_flushSet, kept_beginSmall]))

theorem kept_execSealPulseEnd (s : State) : ∀ t, execSealPulseEnd s = .next t → t.part = s.part ∧ t.pending = s.pending := by
  intro t h; unfold execSealPulseEnd at h; repeat' (first | split at h | dsimp only at h)
  all_goals (rw [← Host.Outcome.next.inj h]; constructor <;> (repeat' (first | with_reducible rfl | (simp only [kept_emit, kept_modGpx]; done) | split | (with_reducible refine foldl_part _ _ _ ?_; intros) | (with_reducible refine (foldl_part _ _ _ ?_).trans ?_; intros) | (with_reducible refine foldl_pending _ _ _ ?_; intros) | (with_reducible refine (foldl_pending _ _ _ ?_).trans ?_; intros))))

/-! ## Host -/

theorem kept_execHostLinkChange (width rate half : Nat) (s : State) : ∀ t, execHostLinkChange width rate half s = .next t → t.part = s.part ∧ t.pending = s.pending := by
  intro t h; unfold execHostLinkChange at h; dsimp only at h; repeat' (split at h)
  all_goals (rw [← Host.Outcome.next.inj h]; try (constructor <;> simp only [kept_hostRelease, kept_raiseCause, kept_drainRing, kept_log]))

theorem kept_linkLost (s : State) : (linkLost s).part = s.part ∧ (linkLost s).pending = s.pending := by
  unfold linkLost; constructor <;> (repeat' (first | with_reducible rfl | (simp only [kept_log]; done) | split))

theorem kept_execHostLinkDown (s : State) : ∀ t, execHostLinkDown s = .next t → t.part = s.part ∧ t.pending = s.pending := by
  intro t h; unfold execHostLinkDown at h; repeat' (first | split at h | dsimp only at h)
  all_goals (rw [← Host.Outcome.next.inj h]; constructor <;> (repeat' (first | with_reducible rfl | (simp only [kept_linkLost]; done) | split)))

theorem kept_execHotReset (s : State) : ∀ t, execHotReset s = .next t → t.part = s.part ∧ t.pending = s.pending := by
  intro t h; unfold execHotReset at h; repeat' (first | split at h | dsimp only at h)
  all_goals (rw [← Host.Outcome.next.inj h]; constructor <;> (repeat' (first | with_reducible rfl | (simp only [kept_linkLost]; done) | split)))

theorem kept_fnReset (s : State) (fn : Nat) : (fnReset s fn).part = s.part ∧ (fnReset s fn).pending = s.pending := by
  unfold fnReset; constructor <;> (repeat' (first | with_reducible assumption | (simp only [kept_setReg, kept_setRegFld, kept_modFn]; done) | (simp only [kept_setReg, kept_setRegFld, kept_modFn, *]; done) | split | simp only [kept_setReg, kept_setRegFld, kept_modFn] | simp only [kept_setReg, kept_setRegFld, kept_modFn, *] | (with_reducible refine foldl_part _ _ _ ?_; intros) | (with_reducible refine (foldl_part _ _ _ ?_).trans ?_; intros) | (with_reducible refine foldl_pending _ _ _ ?_; intros) | (with_reducible refine (foldl_pending _ _ _ ?_).trans ?_; intros) | (with_reducible refine foldl2_part _ _ _ ?_; intros) | (with_reducible refine (foldl2_part _ _ _ ?_).trans ?_; intros) | (with_reducible refine foldl2_pending _ _ _ ?_; intros) | (with_reducible refine (foldl2_pending _ _ _ ?_).trans ?_; intros) | (with_reducible refine foldl3_part _ _ _ ?_; intros) | (with_reducible refine (foldl3_part _ _ _ ?_).trans ?_; intros) | (with_reducible refine foldl3_pending _ _ _ ?_; intros) | (with_reducible refine (foldl3_pending _ _ _ ?_).trans ?_; intros) | dsimp only))

theorem kept_flrStream (s : State) (idx : Nat) : (flrStream s idx).part = s.part ∧ (flrStream s idx).pending = s.pending := by
  unfold flrStream; constructor <;> (repeat' (first | with_reducible rfl | (simp only [kept_modRt, kept_modEntry]; done) | split))

theorem kept_vfReset (s : State) (p : Nat) : (vfReset s p).part = s.part ∧ (vfReset s p).pending = s.pending := by
  unfold vfReset; constructor <;> (repeat' (first | with_reducible assumption | (simp only [kept_modFn, kept_log, kept_fnReset, kept_flrStream]; done) | (simp only [kept_modFn, kept_log, kept_fnReset, kept_flrStream, *]; done) | split | simp only [kept_modFn, kept_log, kept_fnReset, kept_flrStream] | simp only [kept_modFn, kept_log, kept_fnReset, kept_flrStream, *] | (with_reducible refine foldl_part _ _ _ ?_; intros) | (with_reducible refine (foldl_part _ _ _ ?_).trans ?_; intros) | (with_reducible refine foldl_pending _ _ _ ?_; intros) | (with_reducible refine (foldl_pending _ _ _ ?_).trans ?_; intros) | (with_reducible refine foldl2_part _ _ _ ?_; intros) | (with_reducible refine (foldl2_part _ _ _ ?_).trans ?_; intros) | (with_reducible refine foldl2_pending _ _ _ ?_; intros) | (with_reducible refine (foldl2_pending _ _ _ ?_).trans ?_; intros) | (with_reducible refine foldl3_part _ _ _ ?_; intros) | (with_reducible refine (foldl3_part _ _ _ ?_).trans ?_; intros) | (with_reducible refine foldl3_pending _ _ _ ?_; intros) | (with_reducible refine (foldl3_pending _ _ _ ?_).trans ?_; intros) | dsimp only))

theorem kept_execVfFlr (v : Fin 16) (s : State) : ∀ t, execVfFlr v s = .next t → t.part = s.part ∧ t.pending = s.pending := by
  intro t h; unfold execVfFlr at h; repeat' (first | split at h | dsimp only at h)
  all_goals (rw [← Host.Outcome.next.inj h]; constructor <;> (repeat' (first | with_reducible rfl | (simp only [kept_vfReset]; done) | split)))

theorem kept_execPfFlr (s : State) : ∀ t, execPfFlr s = .next t → t.part = s.part ∧ t.pending = s.pending := by
  intro t h; unfold execPfFlr at h; repeat' (first | split at h | dsimp only at h)
  all_goals (rw [← Host.Outcome.next.inj h]; constructor <;> (repeat' (first | with_reducible rfl | (simp only [kept_fnReset, kept_vfReset]; done) | split | (with_reducible refine foldl_part _ _ _ ?_; intros) | (with_reducible refine (foldl_part _ _ _ ?_).trans ?_; intros) | (with_reducible refine foldl_pending _ _ _ ?_; intros) | (with_reducible refine (foldl_pending _ _ _ ?_).trans ?_; intros))))

theorem kept_hostResume (s : State) : (hostResume s).part = s.part ∧ (hostResume s).pending = s.pending := by
  unfold hostResume; constructor <;> simp only [kept_hostRelease, kept_drainRing]

theorem kept_execFunctionPowerState (fn : Fin 18) (d3 : Bool) (s : State) : ∀ t, execFunctionPowerState fn d3 s = .next t → t.part = s.part ∧ t.pending = s.pending := by
  intro t h; unfold execFunctionPowerState at h; dsimp only at h; repeat' (split at h)
  all_goals (rw [← Host.Outcome.next.inj h]; try (constructor <;> simp only [kept_modFn, kept_hostResume]))

theorem kept_execBusMasterEnable (v : Fin 16) (s : State) : ∀ t, execBusMasterEnable v s = .next t → t.part = s.part ∧ t.pending = s.pending := by
  intro t h; unfold execBusMasterEnable at h; repeat' (first | split at h | dsimp only at h)
  all_goals (rw [← Host.Outcome.next.inj h]; constructor <;> (repeat' (first | with_reducible rfl | (simp only [kept_modFn, kept_hostResume]; done) | split)))

theorem kept_execBar2Read (fn : Fin 18) (off len : Nat) (ecc : Ecc) (s : State) : ∀ t, execBar2Read fn off len ecc s = .next t → t.part = s.part ∧ t.pending = s.pending := by
  intro t h; unfold execBar2Read at h; dsimp only at h; repeat' (split at h)
  all_goals (rw [← Host.Outcome.next.inj h]; try (constructor <;> simp only [kept_emit, kept_logPartition, kept_latent, kept_saRead]))

theorem kept_execBar2Write (fn : Fin 18) (off : Nat) (data : List Byte) (ecc : Ecc) (s : State) : ∀ t, execBar2Write fn off data s ecc = .next t → t.part = s.part ∧ t.pending = s.pending := by
  intro t h; unfold execBar2Write at h; dsimp only at h; repeat' (split at h)
  all_goals (rw [← Host.Outcome.next.inj h]; try (constructor <;> simp only [kept_emit, kept_logPartition, kept_latent, kept_saWrite]))

theorem kept_raiseMask (s : State) (fn : Nat) (m : W64) : (raiseMask s fn m).part = s.part ∧ (raiseMask s fn m).pending = s.pending := by
  unfold raiseMask; constructor <;> (repeat' (first | with_reducible rfl | (simp only [kept_raiseVec]; done) | split | (with_reducible refine foldl_part _ _ _ ?_; intros) | (with_reducible refine (foldl_part _ _ _ ?_).trans ?_; intros) | (with_reducible refine foldl_pending _ _ _ ?_; intros) | (with_reducible refine (foldl_pending _ _ _ ?_).trans ?_; intros)))

theorem kept_execModIntCauseClear (fn : Fin 18) (v ev : W64) (s : State) : ∀ t, execModIntCauseClear fn v s ev = .next t → t.part = s.part ∧ t.pending = s.pending := by
  intro t h; unfold execModIntCauseClear at h; dsimp only at h; repeat' (split at h)
  all_goals (rw [← Host.Outcome.next.inj h]; try (constructor <;> simp only [kept_setReg, kept_raiseMask]))

theorem kept_execModIntMaskWrite (fn : Fin 18) (v : W64) (s : State) : ∀ t, execModIntMaskWrite fn v s = .next t → t.part = s.part ∧ t.pending = s.pending := by
  intro t h; unfold execModIntMaskWrite at h; dsimp only at h; repeat' (split at h)
  all_goals (rw [← Host.Outcome.next.inj h]; try (constructor <;> simp only [kept_setReg, kept_raiseMask]))

theorem kept_unmaskVec (s : State) (v : Nat) : (unmaskVec s v).part = s.part ∧ (unmaskVec s v).pending = s.pending := by
  unfold unmaskVec; constructor <;> (repeat' (first | with_reducible assumption | (simp only [kept_hostEmit, kept_modMsix]; done) | (simp only [kept_hostEmit, kept_modMsix, *]; done) | split | simp only [kept_hostEmit, kept_modMsix] | simp only [kept_hostEmit, kept_modMsix, *] | dsimp only))

theorem kept_execMsixUnmask (vec : Nat) (s : State) : ∀ t, execMsixUnmask vec s = .next t → t.part = s.part ∧ t.pending = s.pending := by
  intro t h; unfold execMsixUnmask at h; repeat' (first | split at h | dsimp only at h)
  all_goals (rw [← Host.Outcome.next.inj h]; constructor <;> (repeat' (first | with_reducible rfl | (simp only [kept_unmaskVec]; done) | split)))

/-! ## Debug -/

theorem kept_execFaultMergeEnd (i : Nat) (s : State) : ∀ t, execFaultMergeEnd i s = .next t → t.part = s.part ∧ t.pending = s.pending := by
  intro t h; unfold execFaultMergeEnd at h; repeat' (first | split at h | dsimp only at h)
  all_goals (rw [← Host.Outcome.next.inj h]; constructor <;> (repeat' (first | with_reducible rfl | (simp only [kept_closeOpens]; done) | split)))

theorem kept_execFaultRingDrain (fn : Fin 18) (v : W64) (s : State) : ∀ t, execFaultRingDrain fn v s = .next t → t.part = s.part ∧ t.pending = s.pending := by
  intro t h; unfold execFaultRingDrain at h; dsimp only at h; repeat' (split at h)
  all_goals (rw [← Host.Outcome.next.inj h]; try (constructor <;> simp only [kept_setReg, kept_drainRing]))

theorem kept_joinList (s : State) (c : Nat) : (joinList s c).part = s.part ∧ (joinList s c).pending = s.pending := by
  unfold joinList; constructor <;> (repeat' (first | with_reducible rfl | (simp only [kept_log]; done) | split))

theorem kept_execCoreHwFault (c : Fin 256) (array : Option (Fin 2)) (s : State) : ∀ t, execCoreHwFault c array s = .next t → t.part = s.part ∧ t.pending = s.pending := by
  intro t h; unfold execCoreHwFault at h; dsimp only at h; repeat' (split at h)
  all_goals (rw [← Host.Outcome.next.inj h]; try (constructor <;> simp only [kept_coreFault, kept_strFault, kept_joinList]))

theorem kept_execQuarantineAdd (fn : Fin 18) (v : W64) (s : State) : ∀ t, execQuarantineAdd fn v s = .next t → t.part = s.part ∧ t.pending = s.pending := by
  intro t h; unfold execQuarantineAdd at h; repeat' (first | split at h | dsimp only at h)
  all_goals (rw [← Host.Outcome.next.inj h]; constructor <;> (repeat' (first | with_reducible rfl | (simp only [kept_joinList]; done) | split)))

theorem kept_execQuarantineRemove (fn : Fin 18) (v : W64) (s : State) : ∀ t, execQuarantineRemove fn v s = .next t → t.part = s.part ∧ t.pending = s.pending := by
  intro t h; unfold execQuarantineRemove at h; dsimp only at h; repeat' (split at h)
  all_goals (rw [← Host.Outcome.next.inj h]; try (constructor <;> simp only []))

theorem kept_debugMeasure (s : State) (src : Nat) : (debugMeasure s src).part = s.part ∧ (debugMeasure s src).pending = s.pending := by
  unfold debugMeasure; constructor <;> simp only [kept_measure]

theorem kept_takeTrace (s : State) (feature : Nat) : ∀ t, takeTrace s feature = some t → t.part = s.part ∧ t.pending = s.pending := by
  intro t h; unfold takeTrace at h; repeat' (first | split at h | dsimp only at h)
  all_goals first | (cases h; done) | (rw [← Option.some.inj h]; constructor <;> (repeat' (first | with_reducible rfl | (simp only [kept_takeRes]; done) | split)))

theorem kept_traceOwned (s : State) : (traceOwned s).part = s.part ∧ (traceOwned s).pending = s.pending := by
  unfold traceOwned; constructor <;> simp only [kept_log]

theorem kept_freeTrace (s : State) (feature : Nat) : (freeTrace s feature).part = s.part ∧ (freeTrace s feature).pending = s.pending := by
  unfold freeTrace; constructor <;> (repeat' (first | with_reducible rfl | (simp only [kept_dropRes]; done) | split))

theorem kept_recStart (s : State) : (recStart s).part = s.part ∧ (recStart s).pending = s.pending := by
  unfold recStart; constructor <;> simp only [kept_setRegFld, kept_debugMeasure]

theorem kept_debugBusy (s : State) : (debugBusy s).part = s.part ∧ (debugBusy s).pending = s.pending := by
  unfold debugBusy; constructor <;> simp only [kept_log]

theorem kept_recEnable (s : State) : (recEnable s).part = s.part ∧ (recEnable s).pending = s.pending := by
  unfold recEnable; constructor <;> (repeat' (first | with_reducible assumption | (simp only [kept_setRegFld, kept_traceOwned, kept_recStart, kept_debugBusy]; done) | (simp only [kept_setRegFld, kept_traceOwned, kept_recStart, kept_debugBusy, *]; done) | (have hk := kept_takeTrace _ _ _ (by assumption); simp only [hk, kept_setRegFld, kept_traceOwned, kept_recStart, kept_debugBusy]; done) | split | simp only [kept_setRegFld, kept_traceOwned, kept_recStart, kept_debugBusy] | simp only [kept_setRegFld, kept_traceOwned, kept_recStart, kept_debugBusy, *] | dsimp only))

theorem kept_recDisable (s : State) : (recDisable s).part = s.part ∧ (recDisable s).pending = s.pending := by
  unfold recDisable; constructor <;> (repeat' (first | with_reducible rfl | (simp only [kept_setRegFld, kept_recStop, kept_freeTrace]; done) | split))

theorem kept_execRecEn (fn : Fin 18) (s : State) : ∀ t, execRecEn fn s = .next t → t.part = s.part ∧ t.pending = s.pending := by
  intro t h; unfold execRecEn at h; repeat' (first | split at h | dsimp only at h)
  all_goals (rw [← Host.Outcome.next.inj h]; constructor <;> (repeat' (first | with_reducible rfl | (simp only [kept_recEnable]; done) | split)))

theorem kept_recArmSet (s : State) : (recArmSet s).part = s.part ∧ (recArmSet s).pending = s.pending := by
  unfold recArmSet; constructor <;> (repeat' (first | with_reducible rfl | (simp only [kept_setRegFld]; done) | split))

theorem kept_execRecArm (fn : Fin 18) (s : State) : ∀ t, execRecArm fn s = .next t → t.part = s.part ∧ t.pending = s.pending := by
  intro t h; unfold execRecArm at h; repeat' (first | split at h | dsimp only at h)
  all_goals (rw [← Host.Outcome.next.inj h]; constructor <;> (repeat' (first | with_reducible rfl | (simp only [kept_recArmSet]; done) | split)))

theorem kept_recHalt (s : State) : (recHalt s).part = s.part ∧ (recHalt s).pending = s.pending := by
  unfold recHalt; constructor <;> (repeat' (first | with_reducible rfl | (simp only [kept_setRegFld, kept_recStop]; done) | split))

theorem kept_execRecStop (fn : Fin 18) (s : State) : ∀ t, execRecStop fn s = .next t → t.part = s.part ∧ t.pending = s.pending := by
  intro t h; unfold execRecStop at h; repeat' (first | split at h | dsimp only at h)
  all_goals (rw [← Host.Outcome.next.inj h]; constructor <;> (repeat' (first | with_reducible rfl | (simp only [kept_recHalt]; done) | split)))

theorem kept_execGpx0Edge (s : State) : ∀ t, execGpx0Edge s = .next t → t.part = s.part ∧ t.pending = s.pending := by
  intro t h; unfold execGpx0Edge at h; dsimp only at h; repeat' (split at h)
  all_goals (rw [← Host.Outcome.next.inj h]; try (constructor <;> simp only [kept_epochPulse, kept_recStart]))

theorem kept_replayStart (s : State) : (replayStart s).part = s.part ∧ (replayStart s).pending = s.pending := by
  unfold replayStart; constructor <;> (repeat' (first | with_reducible assumption | (simp only [kept_setRegFld, kept_secLog, kept_portTrain, kept_debugMeasure, kept_traceOwned, kept_debugBusy]; done) | (simp only [kept_setRegFld, kept_secLog, kept_portTrain, kept_debugMeasure, kept_traceOwned, kept_debugBusy, *]; done) | (have hk := kept_takeTrace _ _ _ (by assumption); simp only [hk, kept_setRegFld, kept_secLog, kept_portTrain, kept_debugMeasure, kept_traceOwned, kept_debugBusy]; done) | (with_reducible refine (kept_eachPort _ _ ?_).1.trans ?_ <;> intros) | (with_reducible refine (kept_eachPort _ _ ?_).2.trans ?_ <;> intros) | (with_reducible refine (kept_eachPort _ _ ?_).1 <;> intros) | (with_reducible refine (kept_eachPort _ _ ?_).2 <;> intros) | (refine ⟨?_, ?_⟩) | split | simp only [kept_setRegFld, kept_secLog, kept_portTrain, kept_debugMeasure, kept_traceOwned, kept_debugBusy] | simp only [kept_setRegFld, kept_secLog, kept_portTrain, kept_debugMeasure, kept_traceOwned, kept_debugBusy, *] | (with_reducible refine foldl_part _ _ _ ?_; intros) | (with_reducible refine (foldl_part _ _ _ ?_).trans ?_; intros) | (with_reducible refine foldl_pending _ _ _ ?_; intros) | (with_reducible refine (foldl_pending _ _ _ ?_).trans ?_; intros) | (with_reducible refine foldl2_part _ _ _ ?_; intros) | (with_reducible refine (foldl2_part _ _ _ ?_).trans ?_; intros) | (with_reducible refine foldl2_pending _ _ _ ?_; intros) | (with_reducible refine (foldl2_pending _ _ _ ?_).trans ?_; intros) | (with_reducible refine foldl3_part _ _ _ ?_; intros) | (with_reducible refine (foldl3_part _ _ _ ?_).trans ?_; intros) | (with_reducible refine foldl3_pending _ _ _ ?_; intros) | (with_reducible refine (foldl3_pending _ _ _ ?_).trans ?_; intros) | dsimp only))

theorem kept_execReplayEn (fn : Fin 18) (s : State) : ∀ t, execReplayEn fn s = .next t → t.part = s.part ∧ t.pending = s.pending := by
  intro t h; unfold execReplayEn at h; repeat' (first | split at h | dsimp only at h)
  all_goals (rw [← Host.Outcome.next.inj h]; constructor <;> (repeat' (first | with_reducible rfl | (simp only [kept_replayStart]; done) | split)))

theorem kept_replayEnd (s : State) (st code : Nat) : (replayEnd s st code).part = s.part ∧ (replayEnd s st code).pending = s.pending := by
  unfold replayEnd; constructor <;> (repeat' (first | with_reducible assumption | (simp only [kept_setRegFld, kept_log, kept_portTrain, kept_freeTrace]; done) | (simp only [kept_setRegFld, kept_log, kept_portTrain, kept_freeTrace, *]; done) | (with_reducible refine (kept_eachPort _ _ ?_).1.trans ?_ <;> intros) | (with_reducible refine (kept_eachPort _ _ ?_).2.trans ?_ <;> intros) | (with_reducible refine (kept_eachPort _ _ ?_).1 <;> intros) | (with_reducible refine (kept_eachPort _ _ ?_).2 <;> intros) | (refine ⟨?_, ?_⟩) | split | simp only [kept_setRegFld, kept_log, kept_portTrain, kept_freeTrace] | simp only [kept_setRegFld, kept_log, kept_portTrain, kept_freeTrace, *] | (with_reducible refine foldl_part _ _ _ ?_; intros) | (with_reducible refine (foldl_part _ _ _ ?_).trans ?_; intros) | (with_reducible refine foldl_pending _ _ _ ?_; intros) | (with_reducible refine (foldl_pending _ _ _ ?_).trans ?_; intros) | (with_reducible refine foldl2_part _ _ _ ?_; intros) | (with_reducible refine (foldl2_part _ _ _ ?_).trans ?_; intros) | (with_reducible refine foldl2_pending _ _ _ ?_; intros) | (with_reducible refine (foldl2_pending _ _ _ ?_).trans ?_; intros) | (with_reducible refine foldl3_part _ _ _ ?_; intros) | (with_reducible refine (foldl3_part _ _ _ ?_).trans ?_; intros) | (with_reducible refine foldl3_pending _ _ _ ?_; intros) | (with_reducible refine (foldl3_pending _ _ _ ?_).trans ?_; intros) | dsimp only))

theorem kept_replayClear (s : State) : (replayClear s).part = s.part ∧ (replayClear s).pending = s.pending := by
  unfold replayClear; constructor <;> (repeat' (first | with_reducible rfl | (simp only [kept_setRegFld, kept_replayEnd]; done) | split))

theorem rises_replayCmd (s : State) (p : Nat) (b bulk : List Byte) : Rises s (replayCmd s p b bulk) := by
  unfold replayCmd; dsimp only
  repeat' split
  · exact rises_mailbox _ _ _ _ (fun y => rises_mbAny _ _ _)
  all_goals first | exact .of_kept (kept_stmCmdGo _ _ _ _ _) | exact .of_kept (kept_recoverGo _ _) | exact .of_kept (kept_progGo _ _ _ _ _) | exact .of_kept ⟨rfl, rfl⟩

theorem kept_replayResult (s : State) (idx : Nat) (b : List Byte) : ∀ t, replayResult s idx b = some t → t.part = s.part ∧ t.pending = s.pending := by
  intro t h; unfold replayResult at h; repeat' (first | with_reducible (split at h) | dsimp only at h | split at h)
  all_goals first | (cases h; done) | (rw [← Option.some.inj h]; constructor <;> (repeat' (first | with_reducible assumption | (simp only [kept_modGrp, kept_scalePut, kept_engineProduce, kept_grpEnd]; done) | (simp only [kept_modGrp, kept_scalePut, kept_engineProduce, kept_grpEnd, *]; done) | split | simp only [kept_modGrp, kept_scalePut, kept_engineProduce, kept_grpEnd] | simp only [kept_modGrp, kept_scalePut, kept_engineProduce, kept_grpEnd, *] | (with_reducible refine foldl_part _ _ _ ?_; intros) | (with_reducible refine (foldl_part _ _ _ ?_).trans ?_; intros) | (with_reducible refine foldl_pending _ _ _ ?_; intros) | (with_reducible refine (foldl_pending _ _ _ ?_).trans ?_; intros) | (with_reducible refine foldl2_part _ _ _ ?_; intros) | (with_reducible refine (foldl2_part _ _ _ ?_).trans ?_; intros) | (with_reducible refine foldl2_pending _ _ _ ?_; intros) | (with_reducible refine (foldl2_pending _ _ _ ?_).trans ?_; intros) | (with_reducible refine foldl3_part _ _ _ ?_; intros) | (with_reducible refine (foldl3_part _ _ _ ?_).trans ?_; intros) | (with_reducible refine foldl3_pending _ _ _ ?_; intros) | (with_reducible refine (foldl3_pending _ _ _ ?_).trans ?_; intros) | dsimp only)))

theorem kept_replaySeal (s : State) (p : Nat) (b : List Byte) : ∀ t, replaySeal s p b = some t → t.part = s.part ∧ t.pending = s.pending := by
  intro t h; unfold replaySeal at h; repeat' (first | split at h | dsimp only at h)
  all_goals first | (cases h; done) | (rw [← Option.some.inj h]; constructor <;> (repeat' (first | with_reducible rfl | (simp only [kept_applySeal, kept_applyAbort]; done) | split)))

theorem rises_replayApply (s : State) (typ p src key : Nat) (b bulk : List Byte) : ∀ t, replayApply s typ p src key b bulk = some t → Rises s t := by
  intro t h; unfold replayApply at h
  repeat' split at h
  all_goals first
    | (cases h; done)
    | exact .of_kept (kept_replayResult _ _ _ _ h)
    | exact .of_kept (kept_replaySeal _ _ _ _ h)
    | (obtain ⟨s1, h1, h2⟩ := Option.map_eq_some_iff.mp h
       rw [← h2]; have hk := kept_ctxUse _ _ _ h1
       exact .of_kept (by simp only [kept_wakeStep, kept_acceptGo, hk, and_self]))
    | (rw [← Option.some.inj h]; exact rises_replayCmd _ _ _ _)
    | (rw [← Option.some.inj h]; exact .of_kept ⟨rfl, rfl⟩)
    | (rw [← Option.some.inj h]
       exact .of_kept (by first | simp only [kept_bell, and_self] | simp only [kept_moveIn, and_self] | simp only [kept_deliverUnit, and_self] | simp only [kept_loadTuning, and_self]))

theorem kept_replayWaits (s : State) : (replayWaits s).part = s.part ∧ (replayWaits s).pending = s.pending := by
  unfold replayWaits; constructor <;> (repeat' (first | with_reducible rfl | (simp only []; done) | split))

theorem kept_replayNext (s : State) (n : Nat) : (replayNext s n).part = s.part ∧ (replayNext s n).pending = s.pending := by
  unfold replayNext; constructor <;> (repeat' (first | with_reducible assumption | (simp only [kept_setReg, kept_replayEnd]; done) | (simp only [kept_setReg, kept_replayEnd, *]; done) | split | simp only [kept_setReg, kept_replayEnd] | simp only [kept_setReg, kept_replayEnd, *] | dsimp only))

theorem rises_execReplayEntry (entry bulk : List Byte) (s : State) : ∀ t, execReplayEntry entry bulk s = .next t → Rises s t := by
  intro t h; unfold execReplayEntry at h; dsimp only at h
  repeat' split at h
  all_goals (rw [← Host.Outcome.next.inj h])
  all_goals first
    | exact .of_kept ⟨rfl, rfl⟩
    | (rename_i hk; exact (rises_replayApply _ _ _ _ _ _ _ _ hk).trans (.of_kept (kept_replayNext _ _)))
    | exact .of_kept (by first | simp only [kept_replayWaits, and_self] | simp only [kept_replayEnd, and_self] | simp only [kept_replayNext, and_self])

theorem kept_execReplayDiverged (s : State) : ∀ t, execReplayDiverged s = .next t → t.part = s.part ∧ t.pending = s.pending := by
  intro t h; unfold execReplayDiverged at h; repeat' (first | split at h | dsimp only at h)
  all_goals (rw [← Host.Outcome.next.inj h]; constructor <;> (repeat' (first | with_reducible rfl | (simp only [kept_replayEnd]; done) | split)))

theorem kept_traceStart (s : State) : (traceStart s).part = s.part ∧ (traceStart s).pending = s.pending := by
  unfold traceStart; constructor <;> (repeat' (first | with_reducible rfl | (simp only [kept_setRegFld, kept_secLog, kept_debugMeasure, kept_traceOwned]; done) | (have hk := kept_takeTrace _ _ _ (by assumption); simp only [hk, kept_setRegFld, kept_secLog, kept_debugMeasure, kept_traceOwned]; done) | split))

theorem kept_traceStop (s : State) : (traceStop s).part = s.part ∧ (traceStop s).pending = s.pending := by
  unfold traceStop; constructor <;> simp only [kept_setRegFld, kept_freeTrace]

theorem kept_execTraceEn (fn : Fin 18) (v : W64) (s : State) : ∀ t, execTraceEn fn v s = .next t → t.part = s.part ∧ t.pending = s.pending := by
  intro t h; unfold execTraceEn at h; repeat' (first | split at h | dsimp only at h)
  all_goals (rw [← Host.Outcome.next.inj h]; constructor <;> (repeat' (first | with_reducible rfl | (simp only [kept_traceStart, kept_traceStop]; done) | split)))

theorem kept_traceDump (s : State) : (traceDump s).part = s.part ∧ (traceDump s).pending = s.pending := by
  unfold traceDump; constructor <;> (repeat' (first | with_reducible rfl | (simp only [kept_hostWrite]; done) | split))

theorem kept_execDump (fn : Fin 18) (s : State) : ∀ t, execDump fn s = .next t → t.part = s.part ∧ t.pending = s.pending := by
  intro t h; unfold execDump at h; repeat' (first | split at h | dsimp only at h)
  all_goals (rw [← Host.Outcome.next.inj h]; constructor <;> (repeat' (first | with_reducible rfl | (simp only [kept_traceDump]; done) | split)))

/-! ## Strings -/

theorem kept_bowRefuse (s : State) (c : Nat) (u : UnitId) (n code : Nat) : (bowRefuse s c u n code).part = s.part ∧ (bowRefuse s c u n code).pending = s.pending := by
  unfold bowRefuse; constructor <;> simp only [kept_coreFaultAt, kept_flagString]

theorem kept_execBow (c : Fin 256) (a : Fin 2) (desc : Opnd) (st : Fin 16) (s : State) : ∀ t, execBow c a desc st s = .next t → t.part = s.part ∧ t.pending = s.pending := by
  exact kept_onUnit _ _ _ _ _ (fun s => by (try dsimp only); constructor <;> (repeat' (first | with_reducible rfl | (simp only [kept_modStr, kept_modCore, kept_traceEv, kept_retire, kept_coreFaultAt, kept_coreFault, kept_bowRefuse]; done) | (with_reducible refine (kept_checked _ _ _ _ _ ⟨?_, ?_⟩).1.trans ?_) | (with_reducible refine (kept_checked _ _ _ _ _ ⟨?_, ?_⟩).2.trans ?_) | split)))

theorem kept_enterFrets (s : State) (d b : Nat) (a0 : List (Nat × Nat)) : (enterFrets s d b a0).1.part = s.part ∧ (enterFrets s d b a0).1.pending = s.pending := by
  induction a0 generalizing s d b
  all_goals (unfold enterFrets; constructor <;> (repeat' (first | with_reducible assumption | (simp only [kept_setArr]; done) | (simp only [kept_setArr, *]; done) | split | simp only [kept_setArr] | simp only [kept_setArr, *] | dsimp only)))

theorem kept_applySlices (s : State) (n d b j : Nat) (sl : List (List Byte)) : (applySlices s n d b j sl).part = s.part ∧ (applySlices s n d b j sl).pending = s.pending := by
  unfold applySlices; constructor <;> (repeat' (first | with_reducible rfl | (simp only [kept_modArr]; done) | split | (with_reducible refine foldl_part _ _ _ ?_; intros) | (with_reducible refine (foldl_part _ _ _ ?_).trans ?_; intros) | (with_reducible refine foldl_pending _ _ _ ?_; intros) | (with_reducible refine (foldl_pending _ _ _ ?_).trans ?_; intros)))

theorem kept_countTile (s : State) (n g : Nat) : (countTile s n g).part = s.part ∧ (countTile s n g).pending = s.pending := by
  unfold countTile; constructor <;> (repeat' (first | with_reducible rfl | (simp only [kept_modArr]; done) | split | (with_reducible refine foldl_part _ _ _ ?_; intros) | (with_reducible refine (foldl_part _ _ _ ?_).trans ?_; intros) | (with_reducible refine foldl_pending _ _ _ ?_; intros) | (with_reducible refine (foldl_pending _ _ _ ?_).trans ?_; intros)))

theorem kept_bowIssued (s : State) (n : Nat) (c : CurBow) : (bowIssued s n c).part = s.part ∧ (bowIssued s n c).pending = s.pending := by
  unfold bowIssued; constructor <;> (repeat' (first | with_reducible assumption | (simp only [kept_modArr, kept_modStr, kept_strSettle, kept_countTile]; done) | (simp only [kept_modArr, kept_modStr, kept_strSettle, kept_countTile, *]; done) | split | simp only [kept_modArr, kept_modStr, kept_strSettle, kept_countTile] | simp only [kept_modArr, kept_modStr, kept_strSettle, kept_countTile, *] | (with_reducible refine foldl_part _ _ _ ?_; intros) | (with_reducible refine (foldl_part _ _ _ ?_).trans ?_; intros) | (with_reducible refine foldl_pending _ _ _ ?_; intros) | (with_reducible refine (foldl_pending _ _ _ ?_).trans ?_; intros) | (with_reducible refine foldl2_part _ _ _ ?_; intros) | (with_reducible refine (foldl2_part _ _ _ ?_).trans ?_; intros) | (with_reducible refine foldl2_pending _ _ _ ?_; intros) | (with_reducible refine (foldl2_pending _ _ _ ?_).trans ?_; intros) | (with_reducible refine foldl3_part _ _ _ ?_; intros) | (with_reducible refine (foldl3_part _ _ _ ?_).trans ?_; intros) | (with_reducible refine foldl3_pending _ _ _ ?_; intros) | (with_reducible refine (foldl3_pending _ _ _ ?_).trans ?_; intros) | dsimp only))

theorem kept_nutStalled (s : State) (n : Nat) : (nutStalled s n).part = s.part ∧ (nutStalled s n).pending = s.pending := by
  unfold nutStalled; constructor <;> simp only [kept_modReg]

theorem kept_nutWait (s : State) (n cause : Nat) : (nutWait s n cause).part = s.part ∧ (nutWait s n cause).pending = s.pending := by
  unfold nutWait; constructor <;> simp only [kept_modStr, kept_nutStalled]

theorem kept_issueSlices (s : State) (n : Nat) (c : CurBow) : (issueSlices s n c).part = s.part ∧ (issueSlices s n c).pending = s.pending := by
  unfold issueSlices; constructor <;> (repeat' (first | with_reducible assumption | (simp only [kept_modReg, kept_modStr, kept_fqTake, kept_applySlices, kept_bowIssued, kept_nutStalled]; done) | (simp only [kept_modReg, kept_modStr, kept_fqTake, kept_applySlices, kept_bowIssued, kept_nutStalled, *]; done) | split | simp only [kept_modReg, kept_modStr, kept_fqTake, kept_applySlices, kept_bowIssued, kept_nutStalled] | simp only [kept_modReg, kept_modStr, kept_fqTake, kept_applySlices, kept_bowIssued, kept_nutStalled, *] | dsimp only))

theorem kept_startBow (s : State) (n : Nat) (c : CurBow) (go : State → CurBow → State) (hgo : ∀ y0 y1, (go y0 y1).part = y0.part ∧ (go y0 y1).pending = y0.pending) : (startBow s n c go).part = s.part ∧ (startBow s n c go).pending = s.pending := by
  unfold startBow; constructor <;> (repeat' (first | with_reducible assumption | (simp only [kept_modStr, kept_strFault, kept_enterFrets, hgo]; done) | (simp only [kept_modStr, kept_strFault, kept_enterFrets, hgo, *]; done) | split | simp only [kept_modStr, kept_strFault, kept_enterFrets, hgo] | simp only [kept_modStr, kept_strFault, kept_enterFrets, hgo, *] | dsimp only))

theorem kept_nutStart (s : State) (n : Nat) (e : BowEnt) : (nutStart s n e).part = s.part ∧ (nutStart s n e).pending = s.pending := by
  unfold nutStart; constructor <;> (repeat' (first | with_reducible rfl | (simp only [kept_modReg, kept_modStr, kept_strFault, kept_nutWait, kept_issueSlices]; done) | (with_reducible refine (kept_startBow _ _ _ _ ?_).1.trans ?_ <;> intros) | (with_reducible refine (kept_startBow _ _ _ _ ?_).2.trans ?_ <;> intros) | (with_reducible refine (kept_startBow _ _ _ _ ?_).1 <;> intros) | (with_reducible refine (kept_startBow _ _ _ _ ?_).2 <;> intros) | (refine ⟨?_, ?_⟩) | split))

theorem kept_execNutIssue (n : Fin 128) (s : State) : ∀ t, execNutIssue n s = .next t → t.part = s.part ∧ t.pending = s.pending := by
  intro t h; unfold execNutIssue at h; repeat' (first | split at h | dsimp only at h)
  all_goals (rw [← Host.Outcome.next.inj h]; constructor <;> (repeat' (first | with_reducible rfl | (simp only [kept_issueSlices, kept_nutStart]; done) | split)))

theorem kept_execWrapBowStart (n : Fin 128) (s : State) : ∀ t, execWrapBowStart n s = .next t → t.part = s.part ∧ t.pending = s.pending := by
  intro t h; unfold execWrapBowStart at h; repeat' (first | split at h | dsimp only at h)
  all_goals (rw [← Host.Outcome.next.inj h]; constructor <;> (repeat' (first | with_reducible rfl | (simp only [kept_modReg, kept_modStr, kept_strFault, kept_applySlices, kept_bowIssued, kept_nutWait]; done) | (with_reducible refine (kept_startBow _ _ _ _ ?_).1.trans ?_ <;> intros) | (with_reducible refine (kept_startBow _ _ _ _ ?_).2.trans ?_ <;> intros) | (with_reducible refine (kept_startBow _ _ _ _ ?_).1 <;> intros) | (with_reducible refine (kept_startBow _ _ _ _ ?_).2 <;> intros) | (refine ⟨?_, ?_⟩) | split)))

theorem kept_execGroupDone (arr : Fin 512) (g : Fin 8) (s : State) : ∀ t, execGroupDone arr g s = .next t → t.part = s.part ∧ t.pending = s.pending := by
  intro t h; unfold execGroupDone at h; dsimp only at h; repeat' (split at h)
  all_goals (rw [← Host.Outcome.next.inj h]; try (constructor <;> simp only [kept_modArr, kept_strSettle]))

theorem kept_sumPassed (s : State) (n g : Nat) : (sumPassed s n g).part = s.part ∧ (sumPassed s n g).pending = s.pending := by
  unfold sumPassed; constructor <;> (repeat' (first | with_reducible assumption | (simp only [kept_modArr, kept_modStr, kept_strSettle]; done) | (simp only [kept_modArr, kept_modStr, kept_strSettle, *]; done) | split | simp only [kept_modArr, kept_modStr, kept_strSettle] | simp only [kept_modArr, kept_modStr, kept_strSettle, *] | (with_reducible refine foldl_part _ _ _ ?_; intros) | (with_reducible refine (foldl_part _ _ _ ?_).trans ?_; intros) | (with_reducible refine foldl_pending _ _ _ ?_; intros) | (with_reducible refine (foldl_pending _ _ _ ?_).trans ?_; intros) | (with_reducible refine foldl2_part _ _ _ ?_; intros) | (with_reducible refine (foldl2_part _ _ _ ?_).trans ?_; intros) | (with_reducible refine foldl2_pending _ _ _ ?_; intros) | (with_reducible refine (foldl2_pending _ _ _ ?_).trans ?_; intros) | (with_reducible refine foldl3_part _ _ _ ?_; intros) | (with_reducible refine (foldl3_part _ _ _ ?_).trans ?_; intros) | (with_reducible refine foldl3_pending _ _ _ ?_; intros) | (with_reducible refine (foldl3_pending _ _ _ ?_).trans ?_; intros) | dsimp only))

theorem kept_execSumBowDone (n : Fin 128) (grad : Option Nat) (s : State) : ∀ t, execSumBowDone n grad s = .next t → t.part = s.part ∧ t.pending = s.pending := by
  intro t h; unfold execSumBowDone at h; repeat' (first | with_reducible (split at h) | dsimp only at h | split at h)
  all_goals (rw [← Host.Outcome.next.inj h]; constructor <;> (repeat' (first | with_reducible assumption | (simp only [kept_modStr, kept_modCore, kept_trapIf, kept_gradStats, kept_pushUnnamed, kept_nutStalled, kept_sumPassed]; done) | (simp only [kept_modStr, kept_modCore, kept_trapIf, kept_gradStats, kept_pushUnnamed, kept_nutStalled, kept_sumPassed, *]; done) | split | simp only [kept_modStr, kept_modCore, kept_trapIf, kept_gradStats, kept_pushUnnamed, kept_nutStalled, kept_sumPassed] | simp only [kept_modStr, kept_modCore, kept_trapIf, kept_gradStats, kept_pushUnnamed, kept_nutStalled, kept_sumPassed, *] | dsimp only)))

theorem kept_execArrayFault (arr : Fin 512) (s : State) : ∀ t, execArrayFault arr s = .next t → t.part = s.part ∧ t.pending = s.pending := by
  intro t h; unfold execArrayFault at h; repeat' (first | split at h | dsimp only at h)
  all_goals (rw [← Host.Outcome.next.inj h]; constructor <;> (repeat' (first | with_reducible rfl | (simp only [kept_strFault]; done) | split)))

theorem kept_execStringFaultClear (fn : Fin 18) (n : Fin 128) (v ev : W64) (s : State) : ∀ t, execStringFaultClear fn n v s ev = .next t → t.part = s.part ∧ t.pending = s.pending := by
  intro t h; unfold execStringFaultClear at h; dsimp only at h; repeat' (split at h)
  all_goals (rw [← Host.Outcome.next.inj h]; try (constructor <;> simp only [kept_modReg, kept_modStr]))

/-! ## Regs -/

theorem kept_readReg (s : State) (fn off : Nat) : (readReg s fn off).2.part = s.part ∧ (readReg s fn off).2.pending = s.pending := by
  unfold readReg; constructor <;> (repeat' (first | with_reducible assumption | (simp only [kept_freshWord]; done) | (simp only [kept_freshWord, *]; done) | split | simp only [kept_freshWord] | simp only [kept_freshWord, *] | dsimp only))

theorem kept_clearRead (s : State) (fn off lo hi : Nat) (ev : W64) : (clearRead s fn off lo hi ev).part = s.part ∧ (clearRead s fn off lo hi ev).pending = s.pending := by
  unfold clearRead; constructor <;> (repeat' (first | with_reducible assumption | (simp only [kept_modReg]; done) | (simp only [kept_modReg, *]; done) | split | simp only [kept_modReg] | simp only [kept_modReg, *] | dsimp only))

theorem kept_readAny (s : State) (fn off width : Nat) (ev : W64) : (readAny s fn off width ev).2.part = s.part ∧ (readAny s fn off width ev).2.pending = s.pending := by
  unfold readAny; constructor <;> (repeat' (first | with_reducible rfl | (simp only [kept_readReg, kept_clearRead]; done) | split))

theorem kept_execReadClear (fn : Fin 18) (off width : Nat) (ev : W64) (s : State) : ∀ t, execReadClear fn off width ev s = .next t → t.part = s.part ∧ t.pending = s.pending := by
  intro t h; unfold execReadClear at h; dsimp only at h; repeat' (split at h)
  all_goals (rw [← Host.Outcome.next.inj h]; try (constructor <;> simp only [kept_emit, kept_readAny]))

theorem kept_outState (s : State) (r : Res) (h : ∀ t, r = .next t → t.part = s.part ∧ t.pending = s.pending) :
    (outState s r).part = s.part ∧ (outState s r).pending = s.pending := by
  cases r with
  | next t => exact h t rfl
  | fault _ => exact ⟨rfl, rfl⟩
  | refused _ => exact ⟨rfl, rfl⟩

theorem kept_writeMsix (s : State) (fn off : Nat) (v : W64) : (writeMsix s fn off v).part = s.part ∧ (writeMsix s fn off v).pending = s.pending := by
  unfold writeMsix; constructor <;> (repeat' (first | with_reducible assumption | (simp only [kept_modMsix, kept_unmaskVec]; done) | (simp only [kept_modMsix, kept_unmaskVec, *]; done) | split | simp only [kept_modMsix, kept_unmaskVec] | simp only [kept_modMsix, kept_unmaskVec, *] | dsimp only))

theorem kept_writePlain (s : State) (fn off : Nat) (v ev : W64) : (writePlain s fn off v ev).part = s.part ∧ (writePlain s fn off v ev).pending = s.pending := by
  unfold writePlain; constructor <;> (repeat' (first | with_reducible rfl | (simp only [kept_modReg]; done) | split))

theorem kept_writeTelem (s : State) (v : W64) : (writeTelem s v).part = s.part ∧ (writeTelem s v).pending = s.pending := by
  unfold writeTelem; constructor <;> (repeat' (first | with_reducible assumption | (simp only [kept_setRegFld, kept_log, kept_takeRes, kept_dropRes, kept_writePlain]; done) | (simp only [kept_setRegFld, kept_log, kept_takeRes, kept_dropRes, kept_writePlain, *]; done) | split | simp only [kept_setRegFld, kept_log, kept_takeRes, kept_dropRes, kept_writePlain] | simp only [kept_setRegFld, kept_log, kept_takeRes, kept_dropRes, kept_writePlain, *] | (with_reducible refine foldl_part _ _ _ ?_; intros) | (with_reducible refine (foldl_part _ _ _ ?_).trans ?_; intros) | (with_reducible refine foldl_pending _ _ _ ?_; intros) | (with_reducible refine (foldl_pending _ _ _ ?_).trans ?_; intros) | (with_reducible refine foldl2_part _ _ _ ?_; intros) | (with_reducible refine (foldl2_part _ _ _ ?_).trans ?_; intros) | (with_reducible refine foldl2_pending _ _ _ ?_; intros) | (with_reducible refine (foldl2_pending _ _ _ ?_).trans ?_; intros) | (with_reducible refine foldl3_part _ _ _ ?_; intros) | (with_reducible refine (foldl3_part _ _ _ ?_).trans ?_; intros) | (with_reducible refine foldl3_pending _ _ _ ?_; intros) | (with_reducible refine (foldl3_pending _ _ _ ?_).trans ?_; intros) | dsimp only))

theorem kept_writeDebug (s : State) (v : W64) : (writeDebug s v).part = s.part ∧ (writeDebug s v).pending = s.pending := by
  unfold writeDebug; extract_lets c s1 s2 s3 s4 s5 s6
  have h1 : s1.part = s.part ∧ s1.pending = s.pending := by simp only [s1, kept_setRegFld, and_self]
  have h2 : s2.part = s.part ∧ s2.pending = s.pending := by unfold s2; (repeat' split) <;> simp only [kept_recArmSet, kept_setRegFld, h1, and_self]
  have h3 : s3.part = s.part ∧ s3.pending = s.pending := by unfold s3; (repeat' split) <;> simp only [kept_recEnable, kept_recDisable, h2, and_self]
  have h4 : s4.part = s.part ∧ s4.pending = s.pending := by unfold s4; (repeat' split) <;> simp only [kept_recHalt, h3, and_self]
  have h5 : s5.part = s.part ∧ s5.pending = s.pending := by unfold s5; (repeat' split) <;> simp only [kept_replayStart, kept_replayClear, h4, and_self]
  have h6 : s6.part = s.part ∧ s6.pending = s.pending := by unfold s6; (repeat' split) <;> simp only [kept_traceStart, kept_traceStop, h5, and_self]
  split <;> simp only [kept_traceDump, h6, and_self]

theorem kept_writeReset (s : State) (fn : Fin 18) (v : W64) : (writeReset s fn v).part = s.part ∧ (writeReset s fn v).pending = s.pending := by
  unfold writeReset; split
  all_goals first | exact ⟨rfl, rfl⟩ | with_reducible exact kept_outState _ _ (kept_execWarmReset _ _ _) | with_reducible exact kept_outState _ _ (kept_execColdReset _ _ _) | with_reducible exact kept_outState _ _ (kept_execCoreReset _ _ _) | with_reducible exact kept_outState _ _ (kept_execPortReset _ _ _) | with_reducible exact kept_outState _ _ (kept_execShutdown _ _ _)

theorem kept_writeMod (s : State) (fn : Fin 18) (off : Nat) (v ev : W64) : ∀ t, writeMod s fn off v ev = some t → t.part = s.part ∧ t.pending = s.pending := by
  intro t h; unfold writeMod at h
  (try dsimp only at h)
  repeat' (with_reducible split at h)
  all_goals first
    | (cases h; done)
    | (rw [← Option.some.inj h]; exact ⟨rfl, rfl⟩)
    | (rw [← Option.some.inj h]; first | (simp only [and_self]; done) | (with_reducible exact kept_outState _ _ (kept_execModIntCauseClear _ _ _ _)) | (with_reducible exact kept_outState _ _ (kept_execModIntMaskWrite _ _ _)) | (split <;> first | exact ⟨rfl, rfl⟩ | (simp only [and_self]; done) | (with_reducible exact kept_outState _ _ (kept_execModIntCauseClear _ _ _ _)) | (with_reducible exact kept_outState _ _ (kept_execModIntMaskWrite _ _ _))))

theorem kept_writeClk (s : State) (fn : Fin 18) (off : Nat) (v : W64) : ∀ t, writeClk s fn off v = some t → t.part = s.part ∧ t.pending = s.pending := by
  intro t h; unfold writeClk at h
  (try dsimp only at h)
  repeat' (with_reducible split at h)
  all_goals first
    | (cases h; done)
    | (rw [← Option.some.inj h]; exact ⟨rfl, rfl⟩)
    | (rw [← Option.some.inj h]; first | (simp only [and_self]; done) | (with_reducible exact kept_outState _ _ (kept_execClkTimeSeedWrite _ _ _)) | (with_reducible exact kept_outState _ _ (kept_execRelock _ _ _)) | (split <;> first | exact ⟨rfl, rfl⟩ | (simp only [and_self]; done) | (with_reducible exact kept_outState _ _ (kept_execClkTimeSeedWrite _ _ _)) | (with_reducible exact kept_outState _ _ (kept_execRelock _ _ _))))

theorem rises_outState (s : State) (r : Res) (h : ∀ t, r = .next t → Rises s t) : Rises s (outState s r) := by
  cases r with
  | next t => exact h t rfl
  | fault _ => exact .of_kept ⟨rfl, rfl⟩
  | refused _ => exact .of_kept ⟨rfl, rfl⟩

theorem rises_writePwr (s : State) (fn : Fin 18) (off : Nat) (v : W64) : ∀ t, writePwr s fn off v = some t → Rises s t := by
  intro t h; unfold writePwr at h
  split at h
  · rw [← Option.some.inj h]; exact .of_kept (by simp only [kept_writeTelem, and_self])
  · split at h
    · rw [← Option.some.inj h]; split
      · exact rises_outState _ _ (rises_execReplan _ _)
      · exact .of_kept ⟨rfl, rfl⟩
    · cases h

theorem kept_writeStm (s : State) (fn : Fin 18) (off : Nat) (v : W64) : ∀ t, writeStm s fn off v = some t → t.part = s.part ∧ t.pending = s.pending := by
  intro t h; unfold writeStm at h
  (try dsimp only at h)
  repeat' (with_reducible split at h)
  all_goals first
    | (cases h; done)
    | (rw [← Option.some.inj h]; exact ⟨rfl, rfl⟩)
    | (rw [← Option.some.inj h]; first | (simp only [kept_stmCmd, and_self]; done) | (with_reducible exact kept_outState _ _ (kept_execStmRecover _ _ _)) | (with_reducible exact kept_outState _ _ (kept_execPartTableWrite _ _ _ _)) | (split <;> first | exact ⟨rfl, rfl⟩ | (simp only [kept_stmCmd, and_self]; done) | (with_reducible exact kept_outState _ _ (kept_execStmRecover _ _ _)) | (with_reducible exact kept_outState _ _ (kept_execPartTableWrite _ _ _ _))))

theorem kept_writeGrx (s : State) (fn : Fin 18) (off : Nat) (v : W64) : ∀ t, writeGrx s fn off v = some t → t.part = s.part ∧ t.pending = s.pending := by
  intro t h; unfold writeGrx at h
  (try dsimp only at h)
  repeat' (with_reducible split at h)
  all_goals first
    | (cases h; done)
    | (rw [← Option.some.inj h]; exact ⟨rfl, rfl⟩)
    | (rw [← Option.some.inj h]; first | (simp only [and_self]; done) | (with_reducible exact kept_outState _ _ (kept_execGrxPartBlocksWrite _ _ _ _)) | (split <;> first | exact ⟨rfl, rfl⟩ | (simp only [and_self]; done) | (with_reducible exact kept_outState _ _ (kept_execGrxPartBlocksWrite _ _ _ _))))

theorem kept_writeFab (s : State) (fn : Fin 18) (off : Nat) (v : W64) : ∀ t, writeFab s fn off v = some t → t.part = s.part ∧ t.pending = s.pending := by
  intro t h; unfold writeFab at h
  (try dsimp only at h)
  repeat' (with_reducible split at h)
  all_goals first
    | (cases h; done)
    | (rw [← Option.some.inj h]; exact ⟨rfl, rfl⟩)
    | (rw [← Option.some.inj h]; first | (simp only [and_self]; done) | (with_reducible exact kept_outState _ _ (kept_execPortDisable _ _ _ _)) | (with_reducible exact kept_outState _ _ (kept_execFabModAddrWrite _ _ _)) | (split <;> first | exact ⟨rfl, rfl⟩ | (simp only [and_self]; done) | (with_reducible exact kept_outState _ _ (kept_execPortDisable _ _ _ _)) | (with_reducible exact kept_outState _ _ (kept_execFabModAddrWrite _ _ _))))

theorem kept_writeStk (s : State) (fn : Fin 18) (off : Nat) (v : W64) : ∀ t, writeStk s fn off v = some t → t.part = s.part ∧ t.pending = s.pending := by
  intro t h; unfold writeStk at h
  (try dsimp only at h)
  repeat' (with_reducible split at h)
  all_goals first
    | (cases h; done)
    | (rw [← Option.some.inj h]; exact ⟨rfl, rfl⟩)
    | (rw [← Option.some.inj h]; first | (simp only [and_self]; done) | (with_reducible exact kept_outState _ _ (kept_execScFlush _ _ _)) | (split <;> first | exact ⟨rfl, rfl⟩ | (simp only [and_self]; done) | (with_reducible exact kept_outState _ _ (kept_execScFlush _ _ _))))

theorem kept_writeRing (s : State) (fn off : Nat) (v : W64) : (writeRing s fn off v).part = s.part ∧ (writeRing s fn off v).pending = s.pending := by
  unfold writeRing; constructor <;> simp only [kept_drainRing, kept_writePlain]

theorem kept_writeQuar (s : State) (fn : Fin 18) (v : W64) : (writeQuar s fn v).part = s.part ∧ (writeQuar s fn v).pending = s.pending := by
  have h1 := kept_outState _ _ (kept_execQuarantineAdd fn v s)
  have h2 := kept_outState _ _ (kept_execQuarantineRemove fn v (outState s (execQuarantineAdd fn v s)))
  exact ⟨h2.1.trans h1.1, h2.2.trans h1.2⟩

theorem kept_writeDbg (s : State) (fn : Fin 18) (off : Nat) (v : W64) : ∀ t, writeDbg s fn off v = some t → t.part = s.part ∧ t.pending = s.pending := by
  intro t h; unfold writeDbg at h
  (try dsimp only at h)
  repeat' (with_reducible split at h)
  all_goals first
    | (cases h; done)
    | (rw [← Option.some.inj h]; exact ⟨rfl, rfl⟩)
    | (rw [← Option.some.inj h]; first | (simp only [kept_writeDebug, kept_writeRing, kept_writeQuar, and_self]; done) | (with_reducible exact kept_outState _ _ (kept_execFaultRingDrain _ _ _)) | (split <;> first | exact ⟨rfl, rfl⟩ | (simp only [kept_writeDebug, kept_writeRing, kept_writeQuar, and_self]; done) | (with_reducible exact kept_outState _ _ (kept_execFaultRingDrain _ _ _))))

theorem kept_writeStr (s : State) (fn : Fin 18) (off : Nat) (v ev : W64) : ∀ t, writeStr s fn off v ev = some t → t.part = s.part ∧ t.pending = s.pending := by
  intro t h; unfold writeStr at h
  (try dsimp only at h)
  repeat' (with_reducible split at h)
  all_goals first
    | (cases h; done)
    | (rw [← Option.some.inj h]; exact ⟨rfl, rfl⟩)
    | (rw [← Option.some.inj h]; first | (simp only [and_self]; done) | (with_reducible exact kept_outState _ _ (kept_execStringFaultClear _ _ _ _ _)) | (split <;> first | exact ⟨rfl, rfl⟩ | (simp only [and_self]; done) | (with_reducible exact kept_outState _ _ (kept_execStringFaultClear _ _ _ _ _))))

theorem kept_writeCor (s : State) (fn : Fin 18) (off : Nat) (v : W64) : ∀ t, writeCor s fn off v = some t → t.part = s.part ∧ t.pending = s.pending := by
  intro t h; unfold writeCor at h
  (try dsimp only at h)
  repeat' (with_reducible split at h)
  all_goals first
    | (cases h; done)
    | (rw [← Option.some.inj h]; exact ⟨rfl, rfl⟩)
    | (rw [← Option.some.inj h]; first | (simp only [kept_progCtrl, and_self]; done) | (split <;> first | exact ⟨rfl, rfl⟩ | (simp only [kept_progCtrl, and_self]; done)))

theorem rises_writeOwn (s : State) (fn : Fin 18) (off : Nat) (v ev : W64) : ∀ t, writeOwn s fn off v ev = some t → Rises s t := by
  intro t h; unfold writeOwn at h
  repeat' (with_reducible split at h)
  all_goals first
    | (cases h; done)
    | exact rises_writePwr _ _ _ _ _ h
    | exact .of_kept (kept_writeMod _ _ _ _ _ _ h) | exact .of_kept (kept_writeClk _ _ _ _ _ h)
    | exact .of_kept (kept_writeStm _ _ _ _ _ h) | exact .of_kept (kept_writeGrx _ _ _ _ _ h) | exact .of_kept (kept_writeFab _ _ _ _ _ h)
    | exact .of_kept (kept_writeStk _ _ _ _ _ h) | exact .of_kept (kept_writeDbg _ _ _ _ _ h) | exact .of_kept (kept_writeStr _ _ _ _ _ _ h)
    | exact .of_kept (kept_writeCor _ _ _ _ _ h)

theorem rises_writeReg (s : State) (fn : Fin 18) (off : Nat) (v ev : W64) : Rises s (writeReg s fn off v ev) := by
  unfold writeReg; repeat' split
  all_goals first
    | exact .of_kept ⟨rfl, rfl⟩
    | (rename_i h; exact rises_writeOwn _ _ _ _ _ _ h)
    | exact .of_kept (by simp only [kept_writeReset, and_self])
    | exact .of_kept (by simp only [kept_writeMsix, and_self])
    | exact .of_kept (by simp only [kept_writePlain, and_self])

theorem rises_execRegisterWrite (fn : Fin 18) (off width : Nat) (v ev : W64) (s : State) : ∀ t, execRegisterWrite fn off width v s ev = .next t → Rises s t := by
  intro t h; unfold execRegisterWrite at h
  split at h <;> rw [← Host.Outcome.next.inj h]
  · exact .of_kept ⟨rfl, rfl⟩
  · exact rises_writeReg _ _ _ _ _

theorem kept_execMeshRegRead (pk : Packet) (ev : W64) (s : State) : ∀ t, execMeshRegRead pk s ev = .next t → t.part = s.part ∧ t.pending = s.pending := by
  intro t h; unfold execMeshRegRead at h; dsimp only at h; repeat' (split at h)
  all_goals (rw [← Host.Outcome.next.inj h]; try (constructor <;> simp only [kept_emit, kept_readAny]))

theorem rises_execMeshRegWrite (pk : Packet) (ev : W64) (s : State) : ∀ t, execMeshRegWrite pk s ev = .next t → Rises s t := by
  intro t h; unfold execMeshRegWrite at h
  split at h <;> rw [← Host.Outcome.next.inj h]
  · exact .of_kept ⟨rfl, rfl⟩
  · refine Rises.trans ?_ (.of_kept (kept_emit _ _))
    split
    · exact rises_writeReg _ _ _ _ _
    · exact .of_kept ⟨rfl, rfl⟩

/-! ## Mgmt -/

theorem kept_answer (s : State) (status : Nat) (data : List Byte) : (answer s status data).part = s.part ∧ (answer s status data).pending = s.pending := by
  unfold answer; constructor <;> simp only [kept_emit]

theorem kept_execRegRead (off : Nat) (ev : W64) (s : State) : ∀ t, execRegRead off s ev = .next t → t.part = s.part ∧ t.pending = s.pending := by
  intro t h; unfold execRegRead at h; dsimp only at h; repeat' (split at h)
  all_goals (rw [← Host.Outcome.next.inj h]; try (constructor <;> simp only [kept_readAny, kept_answer]))

theorem rises_execRegWrite (off : Nat) (v ev : W64) (s : State) : ∀ t, execRegWrite off v s ev = .next t → Rises s t := by
  intro t h; unfold execRegWrite at h
  repeat' split at h
  all_goals rw [← Host.Outcome.next.inj h]
  · exact .of_kept ⟨rfl, rfl⟩
  · exact (Rises.of_kept (by simp only [kept_answer, and_self])).trans (rises_writeReg _ _ _ _ _)
  · exact .of_kept (by simp only [kept_answer, and_self])

theorem kept_execBufWrite (buf off : Nat) (data : List Byte) (s : State) : ∀ t, execBufWrite buf off data s = .next t → t.part = s.part ∧ t.pending = s.pending := by
  intro t h; unfold execBufWrite at h; dsimp only at h; repeat' (split at h)
  all_goals (rw [← Host.Outcome.next.inj h]; try (constructor <;> simp only [kept_answer]))

theorem kept_execTunLoad (checkOnly : Bool) (len : Nat) (s : State) : ∀ t, execTunLoad checkOnly len s = .next t → t.part = s.part ∧ t.pending = s.pending := by
  intro t h; unfold execTunLoad at h; repeat' (first | split at h | dsimp only at h)
  all_goals (rw [← Host.Outcome.next.inj h]; constructor <;> (repeat' (first | with_reducible rfl | (simp only [kept_offerLoad, kept_answer]; done) | split)))

theorem kept_execTunReport (i : Nat) (s : State) : ∀ t, execTunReport i s = .next t → t.part = s.part ∧ t.pending = s.pending := by
  intro t h; unfold execTunReport at h; repeat' (first | split at h | dsimp only at h)
  all_goals (rw [← Host.Outcome.next.inj h]; constructor <;> (repeat' (first | with_reducible rfl | (simp only [kept_answer]; done) | split)))

theorem rises_execSecGo (len : Nat) (s : State) : ∀ t, execSecGo len s = .next t → Rises s t := by
  intro t h; unfold execSecGo at h; dsimp only at h
  have m (r : List Byte) (st : Nat) : Rises s (answer (mailbox s 17 r (fun s => mbAny s 17 r)) st []) :=
    (rises_mailbox s 17 r (fun s => mbAny s 17 r) (fun y => rises_mbAny _ _ _)).trans (.of_kept (by simp only [kept_answer, and_self]))
  have a (st : Nat) : Rises s (answer s st []) := .of_kept (by simp only [kept_answer, and_self])
  rcases of_ite h with h | h
  · cases h; exact .of_kept ⟨rfl, rfl⟩
  · rcases of_ite h with h | h
    · cases h; exact a _
    · rcases of_ite h with h | h
      · cases h; exact a _
      · rcases of_ite h with h | h <;> (rw [← Host.Outcome.next.inj h]; exact m _ _)

theorem kept_execBufRead (off len : Nat) (s : State) : ∀ t, execBufRead off len s = .next t → t.part = s.part ∧ t.pending = s.pending := by
  intro t h; unfold execBufRead at h; repeat' (first | split at h | dsimp only at h)
  all_goals (rw [← Host.Outcome.next.inj h]; constructor <;> (repeat' (first | with_reducible rfl | (simp only [kept_answer]; done) | split)))

theorem kept_execPldmDiscovery (cmd : Nat) (s : State) : ∀ t, execPldmDiscovery cmd s = .next t → t.part = s.part ∧ t.pending = s.pending := by
  intro t h; unfold execPldmDiscovery at h; repeat' (first | split at h | dsimp only at h)
  all_goals (rw [← Host.Outcome.next.inj h]; constructor <;> (repeat' (first | with_reducible rfl | (simp only [kept_answer]; done) | split | (with_reducible refine foldl_part _ _ _ ?_; intros) | (with_reducible refine (foldl_part _ _ _ ?_).trans ?_; intros) | (with_reducible refine foldl_pending _ _ _ ?_; intros) | (with_reducible refine (foldl_pending _ _ _ ?_).trans ?_; intros))))

theorem kept_execPldmMonitor (sensor : Nat) (s : State) : ∀ t, execPldmMonitor sensor s = .next t → t.part = s.part ∧ t.pending = s.pending := by
  intro t h; unfold execPldmMonitor at h; repeat' (first | split at h | dsimp only at h)
  all_goals (rw [← Host.Outcome.next.inj h]; constructor <;> (repeat' (first | with_reducible rfl | (simp only [kept_answer]; done) | split)))

theorem kept_execPldmFru (s : State) : ∀ t, execPldmFru s = .next t → t.part = s.part ∧ t.pending = s.pending := by
  intro t h; unfold execPldmFru at h; repeat' (first | split at h | dsimp only at h)
  all_goals (rw [← Host.Outcome.next.inj h]; constructor <;> (repeat' (first | with_reducible rfl | (simp only [kept_answer]; done) | split)))

theorem kept_execExtest (s : State) : ∀ t, execExtest s = .next t → t.part = s.part ∧ t.pending = s.pending := by
  intro t h; unfold execExtest at h; repeat' (first | split at h | dsimp only at h)
  all_goals (rw [← Host.Outcome.next.inj h]; constructor <;> (repeat' (first | with_reducible rfl | (simp only [kept_emit, kept_debugMeasure]; done) | split)))

end Sys2Proof.Machine
end

