-- ==== Sys2Proof/Laws/Log.lean ====
section
/-! SUPPORT. What logging an event and raising an interrupt can do, said once. -/

namespace Sys2Proof.Machine

theorem OnlyLog.refl (s : State) : OnlyLog s s := ⟨fun _ _ => rfl, rfl⟩

theorem OnlyLog.trans {s t r : State} (h : OnlyLog s t) (h' : OnlyLog t r) : OnlyLog s r :=
  ⟨fun k hk => (h'.1 k hk).trans (h.1 k hk), by rw [h'.2, h.2]⟩

theorem onlyLog_setReg (s : State) {k : Nat} (v : W64) (h : logReg k) : OnlyLog s (setReg s k v) :=
  ⟨fun _ hj => getReg_setReg_ne s v (fun e => hj (e ▸ h)), rfl⟩

theorem onlyLog_raiseVec (s : State) (v : Nat) : OnlyLog s (raiseVec s v) := by
  unfold raiseVec hostEmit emit modMsix
  split
  · exact .refl s
  · dsimp only; split
    · split <;> exact ⟨fun _ _ => rfl, rfl⟩
    · exact ⟨fun _ _ => rfl, rfl⟩

@[simp] theorem raiseVec_flog (s : State) (v : Nat) : (raiseVec s v).flog = s.flog := by unfold raiseVec hostEmit; dsimp only; (repeat' split) <;> rfl
@[simp] theorem raiseVec_regs (s : State) (v : Nat) : (raiseVec s v).regs = s.regs := by unfold raiseVec hostEmit; dsimp only; (repeat' split) <;> rfl
@[simp] theorem getReg_raiseVec (s : State) (v k : Nat) : getReg (raiseVec s v) k = getReg s k := by unfold getReg; rw [raiseVec_regs]

theorem onlyLog_raiseCause (s : State) (f b : Nat) : OnlyLog s (raiseCause s f b) := by
  have h : OnlyLog s (setReg s (fnKey f R.MOD_INT_CAUSE) (getReg s (fnKey f R.MOD_INT_CAUSE) ||| at_ 1 b)) :=
    onlyLog_setReg s _ (.inr (.inr (.inr (.inr ⟨f, rfl⟩))))
  unfold raiseCause; dsimp only; split
  · exact h.trans (onlyLog_raiseVec _ _)
  · exact h

@[simp] theorem raiseCause_flog (s : State) (f b : Nat) : (raiseCause s f b).flog = s.flog := by
  unfold raiseCause; dsimp only; split <;> simp

/-- A cause register takes its bit, whoever is interrupted; no other register changes. -/
theorem getReg_raiseCause (s : State) (f b k : Nat) : getReg (raiseCause s f b) k =
    if k = fnKey f R.MOD_INT_CAUSE then getReg s k ||| at_ 1 b else getReg s k := by
  unfold raiseCause; dsimp only
  split <;> (try rw [getReg_raiseVec]) <;> split <;> rename_i h <;> first | (subst h; simp) | exact getReg_setReg_ne _ _ h

/-- Copying records to the host's ring logs nothing new. -/
theorem onlyLog_drainRing (n : Nat) (s : State) : OnlyLog s (drainRing n s) ∧ (drainRing n s).flog.seq = s.flog.seq ∧
    getReg (drainRing n s) R.MOD_FAULT_SUM = getReg s R.MOD_FAULT_SUM := by
  induction n generalizing s with
  | zero => exact ⟨.refl s, rfl, rfl⟩
  | succ n ih =>
    unfold drainRing
    split
    · exact ⟨.refl s, rfl, rfl⟩
    · split
      · exact ⟨.refl s, rfl, rfl⟩
      · next r rs hr hc =>
        dsimp only
        have hw : ∀ a b, OnlyLog s (hostWrite s 0 a b) ∧ (hostWrite s 0 a b).flog = s.flog := by
          intro a b; unfold hostWrite hostEmit emit; split <;> exact ⟨⟨fun _ _ => rfl, rfl⟩, rfl⟩
        obtain ⟨h1, h2, h3⟩ := ih { (setReg (hostWrite s 0 ((getReg s R.DBG_FLOG_ADDR).toNat + 64 * ((getReg s R.DBG_FLOG_HEAD).toNat % 2 ^ ((getReg s R.DBG_FLOG_SIZE).toNat % 16 + 6))) (recBytes r)) R.DBG_FLOG_HEAD (BitVec.ofNat 64 ((getReg s R.DBG_FLOG_HEAD).toNat + 1))) with flog := { (setReg (hostWrite s 0 ((getReg s R.DBG_FLOG_ADDR).toNat + 64 * ((getReg s R.DBG_FLOG_HEAD).toNat % 2 ^ ((getReg s R.DBG_FLOG_SIZE).toNat % 16 + 6))) (recBytes r)) R.DBG_FLOG_HEAD (BitVec.ofNat 64 ((getReg s R.DBG_FLOG_HEAD).toNat + 1))).flog with onDie := rs } }
        have hx := hw ((getReg s R.DBG_FLOG_ADDR).toNat + 64 * ((getReg s R.DBG_FLOG_HEAD).toNat % 2 ^ ((getReg s R.DBG_FLOG_SIZE).toNat % 16 + 6))) (recBytes r)
        refine ⟨(hx.1.trans (onlyLog_setReg _ _ (.inr (.inl rfl)))).trans (.trans ⟨fun _ _ => rfl, rfl⟩ h1), h2.trans ?_, h3.trans ?_⟩
        · have hs := congrArg FaultLog.seq hx.2
          exact hs
        · refine Eq.trans (b := getReg (hostWrite s 0 _ _) R.MOD_FAULT_SUM) (getReg_setReg_ne _ _ (by decide)) ?_
          unfold hostWrite hostEmit emit; split <;> rfl

/-! ## A stored record -/

/-- A field written last is what a read finds. -/
theorem fld_setFld_code (w : W64) (c : Nat) (h : c < 65536) : fld (setFld w 63 48 c) 63 48 = c := by
  apply Nat.eq_of_testBit_eq
  intro i
  simp only [fld, bits, Nat.testBit_mod_two_pow, Nat.testBit_shiftRight, BitVec.testBit_toNat, setFld, fmask]
  by_cases hi : i < 16
  · simp only [BitVec.getLsbD_or, BitVec.getLsbD_and, BitVec.getLsbD_not, BitVec.getLsbD_ofNat, Nat.testBit_shiftLeft,
      Nat.testBit_two_pow_sub_one]
    have a : decide (48 + i < 64) = true := by simp; omega
    have b : decide (48 + i ≥ 48) = true := by simp
    simp [a, hi]
  · have : c.testBit i = false := Nat.testBit_lt_two_pow (Nat.lt_of_lt_of_le h (Nat.pow_le_pow_right (n := 2) (by decide) (Nat.le_of_not_lt hi : 16 ≤ i)))
    simp [this]; omega

/-- Bits below 48 do not reach the field above them. -/
theorem fld_or_low (w x : W64) (h : ∀ i, 48 ≤ i → x.getLsbD i = false) : fld (w ||| x) 63 48 = fld w 63 48 := by
  apply Nat.eq_of_testBit_eq
  intro i
  simp only [fld, bits, Nat.testBit_mod_two_pow, Nat.testBit_shiftRight, BitVec.testBit_toNat, BitVec.getLsbD_or, h (48 + i) (by omega), Bool.or_false]

/-- Nor does a lower field. -/
theorem fld_setFld_low (w : W64) (v : Nat) : fld (setFld w 47 32 v) 63 48 = fld w 63 48 := by
  apply Nat.eq_of_testBit_eq
  intro i
  simp only [fld, bits, Nat.testBit_mod_two_pow, Nat.testBit_shiftRight, BitVec.testBit_toNat, setFld, fmask]
  by_cases hi : i < 16
  · simp only [BitVec.getLsbD_or, BitVec.getLsbD_and, BitVec.getLsbD_not, BitVec.getLsbD_ofNat, Nat.testBit_shiftLeft,
      Nat.testBit_two_pow_sub_one]
    have a : decide (48 + i < 64) = true := by simp; omega
    have b : decide (48 + i - 32 < 47 + 1 - 32) = false := by simp; omega
    simp [a, b]
  · simp [hi]

theorem sumAfter_code (w : W64) (r : FaultRec) (lost fl : Bool) (h : r.code < 0x3000) : fld (sumAfter w r lost fl) 63 48 = r.code := by
  have hb : ∀ i, 48 ≤ i → (at_ 1 (r.code / 256)).getLsbD i = false := by
    intro i hi
    simp only [at_, BitVec.getLsbD_ofNat, Nat.testBit_shiftLeft, Bool.and_eq_false_iff]
    right
    by_cases hj : i ≥ r.code / 256
    · right; apply Nat.testBit_lt_two_pow; have : 1 ≤ i - r.code / 256 := by omega
      exact Nat.lt_of_lt_of_le (by decide : 1 < 2 ^ 1) (Nat.pow_le_pow_right (by decide) this)
    · left; simp; omega
  have h1 : ∀ i, 48 ≤ i → (1 : W64).getLsbD i = false := by
    intro i hi
    show (BitVec.ofNat 64 1).getLsbD i = false
    rw [BitVec.getLsbD_ofNat, Nat.testBit_lt_two_pow (Nat.lt_of_lt_of_le (by decide : 1 < 2 ^ 48) (Nat.pow_le_pow_right (by decide) hi)), Bool.and_false]
  unfold sumAfter
  dsimp only
  (repeat' split) <;> (try rw [fld_or_low _ _ h1]) <;> (try rw [fld_or_low _ _ hb]) <;> (try rw [fld_setFld_low]) <;> exact fld_setFld_code _ _ (by omega)

/-- Storing a record takes the next SEQ and shows its code in MOD_FAULT_SUM. -/
theorem storeRec_spec (s : State) (r : FaultRec) (fl : Bool) (h : r.code < 0x3000) :
    (storeRec s r fl).flog.seq = s.flog.seq + 1 ∧ fld (getReg (storeRec s r fl) R.MOD_FAULT_SUM) 63 48 = r.code ∧
    OnlyLog s (storeRec s r fl) := by
  have hk : ∀ f, R.MOD_FAULT_SUM ≠ fnKey f R.MOD_INT_CAUSE := by
    intro f; unfold fnKey; simp only [R.MOD_FAULT_SUM, R.MOD_INT_CAUSE]; omega
  have fin : ∀ (s3 : State) (f : Nat), s3.flog.seq = s.flog.seq + 1 → fld (getReg s3 R.MOD_FAULT_SUM) 63 48 = r.code → OnlyLog s s3 →
      ∀ n, (drainRing n (raiseCause s3 f 0)).flog.seq = s.flog.seq + 1 ∧
      fld (getReg (drainRing n (raiseCause s3 f 0)) R.MOD_FAULT_SUM) 63 48 = r.code ∧ OnlyLog s (drainRing n (raiseCause s3 f 0)) := by
    intro s3 f h1 h2 h3 n
    obtain ⟨a, b, c⟩ := onlyLog_drainRing n (raiseCause s3 f 0)
    refine ⟨b.trans (by simpa using h1), ?_, (h3.trans (onlyLog_raiseCause _ _ _)).trans a⟩
    rw [c, getReg_raiseCause, if_neg (hk f)]; exact h2
  have base : ∀ (s2 : State) (g : W64 → W64), s2.flog.seq = s.flog.seq + 1 → OnlyLog s s2 → (∀ w, fld (g w) 63 48 = r.code) →
      ∀ (b : Bool) n, (drainRing n (if b then raiseCause (modReg s2 R.MOD_FAULT_SUM g) (r.part + 1) 0 else raiseCause (modReg s2 R.MOD_FAULT_SUM g) 0 0)).flog.seq = s.flog.seq + 1 ∧
      fld (getReg (drainRing n (if b then raiseCause (modReg s2 R.MOD_FAULT_SUM g) (r.part + 1) 0 else raiseCause (modReg s2 R.MOD_FAULT_SUM g) 0 0)) R.MOD_FAULT_SUM) 63 48 = r.code ∧
      OnlyLog s (drainRing n (if b then raiseCause (modReg s2 R.MOD_FAULT_SUM g) (r.part + 1) 0 else raiseCause (modReg s2 R.MOD_FAULT_SUM g) 0 0)) := by
    intro s2 g h1 h2 h3 b n
    have x1 : (modReg s2 R.MOD_FAULT_SUM g).flog.seq = s.flog.seq + 1 := by simpa using h1
    have x2 : fld (getReg (modReg s2 R.MOD_FAULT_SUM g) R.MOD_FAULT_SUM) 63 48 = r.code := by rw [getReg_modReg_same]; exact h3 _
    have x3 : OnlyLog s (modReg s2 R.MOD_FAULT_SUM g) := h2.trans (onlyLog_setReg _ _ (.inl rfl))
    cases b
    · exact fin _ _ x1 x2 x3 n
    · exact fin _ _ x1 x2 x3 n
  have ite : ∀ a b : State, (if r.part < 16 then a else b) = (if decide (r.part < 16) = true then a else b) := by intros; simp
  unfold storeRec
  dsimp only
  rw [ite]
  refine base _ _ ?_ ?_ (fun w => sumAfter_code w { r with seq := s.flog.seq } _ _ h) (decide (r.part < 16)) _
  · split <;> rfl
  · split <;> exact ⟨fun _ _ => rfl, rfl⟩

/-- Logging an event: one record, its code on show, and nothing else but a first-fault register. -/
theorem log_spec (s : State) (e : Ev) (h : e.code < 0x3000) : Logged s (log s e) e.code := by
  have step : ∀ s2 : State, s2.flog.seq = s.flog.seq → OnlyLog s s2 → Logged s (storeRec s2 (evRec s e) e.flash) e.code := by
    intro s2 h1 h2
    obtain ⟨a, b, c⟩ := storeRec_spec s2 (evRec s e) e.flash h
    exact ⟨by rw [a, h1], b, h2.trans c⟩
  have first : ∀ s1 : State, s1.flog.seq = s.flog.seq → OnlyLog s s1 →
      Logged s (storeRec (if codeBlock e.code = 9 then setRegFld s1 R.DBG_STATUS 47 32 e.code else s1) (evRec s e) e.flash) e.code := by
    intro s1 h1 h2
    refine step _ ?_ ?_
    · split <;> exact h1
    · split
      · exact h2.trans (onlyLog_setReg _ _ (.inr (.inr (.inl rfl))))
      · exact h2
  cases hk : faultReg e with
  | none => unfold log; rw [hk]; exact first s rfl (.refl s)
  | some k =>
    unfold log; rw [hk]
    refine first (firstFault s k e.code e.payload) ?_ ?_
    · unfold firstFault; split <;> rfl
    · unfold firstFault; split
      · exact .refl s
      · exact onlyLog_setReg _ _ (.inr (.inr (.inr (.inl ⟨e, hk⟩))))

theorem onlyLog_storeRec (s : State) (r : FaultRec) (fl : Bool) (h : r.code < 0x3000) : OnlyLog s (storeRec s r fl) :=
  (storeRec_spec s r fl h).2.2

end Sys2Proof.Machine
end

