-- ==== Sys2Proof/Laws/Mesh.lean ====
section
/-! SUPPORT. What sending a mesh request can do, said once. -/

namespace Sys2Proof.Machine

theorem length_tput {α : Type} (t : Tbl α) (k : Nat) (v : α) (h : ∀ e ∈ t, e.1 ≠ k) : (tput t k v).length = t.length + 1 := by
  induction t with
  | nil => rfl
  | cons e t ih =>
    obtain ⟨j, w⟩ := e
    have hj : j ≠ k := h (j, w) (by simp)
    unfold tput
    split
    · simp
    · rw [if_neg (Ne.symm hj)]
      simp [ih (fun e he => h e (by simp [he]))]

/-- A free tag names no outstanding request. -/
theorem freeTag_fresh {s : State} {c t : Nat} (h : freeTag s c = some t) : ∀ e ∈ s.mesh, e.1 ≠ tagKey c t := by
  unfold freeTag at h
  split at h
  · rename_i u hu
    split at h
    · cases h
      have := List.find?_some hu
      intro e he hk
      simp only [Bool.not_eq_true', List.any_eq_false, decide_eq_true_eq] at this
      exact this e he hk
    · cases h
  · cases h

/-- A request enters the mesh under a fresh tag, as one packet. -/
theorem meshGo_spec {s t : State} {c : Nat} {pk : Packet} {m : MeshReq} (h : meshGo s c pk m = some t) : ∃ tag m',
    t = { s with mesh := tput s.mesh (tagKey c tag) m', out := s.out ++ [.mesh { pk with tag := tag }] } ∧
    (tput s.mesh (tagKey c tag) m').length = s.mesh.length + 1 := by
  unfold meshGo at h
  split at h
  · obtain ⟨tag, ht, rfl⟩ := Option.map_eq_some_iff.mp h
    exact ⟨tag, _, rfl, length_tput _ _ _ (freeTag_fresh ht)⟩
  · cases h

/-- Sending a request: one packet leaves under a fresh tag, or the request waits at the core. -/
theorem meshSend_spec (s : State) (c : Nat) (pk : Packet) (m : MeshReq) :
    (∃ t m', meshSend s c pk m = { s with mesh := tput s.mesh (tagKey c t) m', out := s.out ++ [.mesh { pk with tag := t }] } ∧
      (tput s.mesh (tagKey c t) m').length = s.mesh.length + 1) ∨
    meshSend s c pk m = modCore s c (fun k => { k with mwait := k.mwait ++ [(pk, m)] }) := by
  unfold meshSend
  split
  · rename_i s1 h
    split at h
    · cases h
    · obtain ⟨tag, m', e, l⟩ := meshGo_spec h
      exact .inl ⟨tag, m', e, l⟩
  · exact .inr rfl

end Sys2Proof.Machine
end

