-- ==== Sys2Proof/Laws/PerInstr.lean ====
section
/-! SUPPORT. One lemma per command, about the command as syntax. -/

namespace Sys2Proof.Laws

/-- No word spells the command: the table of the manual's commands gives no row any bits, so a command comes to the queue whole. -/
def NoWord.Statement (i : Instr) : Prop := ∀ nbits w, decodeTableWord nbits w ≠ some i

/-- Nothing is decoded. -/
theorem NoWord.of_none (i : Instr) : NoWord.Statement i := fun _ _ h => nomatch h

theorem NoWord.tuningLoad (fn : Fin 18) (image : List Byte) : NoWord.Statement (.tuningLoad fn image) := NoWord.of_none _
theorem NoWord.tuningCheckOnly (fn : Fin 18) (image : List Byte) : NoWord.Statement (.tuningCheckOnly fn image) := NoWord.of_none _
theorem NoWord.tuningZeroiseDone : NoWord.Statement (.tuningZeroiseDone) := NoWord.of_none _
theorem NoWord.featureEnable (feature res part : Nat) : NoWord.Statement (.featureEnable feature res part) := NoWord.of_none _
theorem NoWord.featureDisable (feature res : Nat) : NoWord.Statement (.featureDisable feature res) := NoWord.of_none _
theorem NoWord.lds (c : Fin 256) (a : Fin 2) (src : Src) (depth : Nat) (fmt : Fmt) (mask base : Opnd) (groups : Nat) (cont : Bool) : NoWord.Statement (.lds c a src depth fmt mask base groups cont) := NoWord.of_none _
theorem NoWord.shadowLoadDone (c : Fin 256) (a : Fin 2) : NoWord.Statement (.shadowLoadDone c a) := NoWord.of_none _
theorem NoWord.swap (c : Fin 256) (a : Fin 2) : NoWord.Statement (.swap c a) := NoWord.of_none _
theorem NoWord.col (c : Fin 256) (a : Fin 2) (group : Fin 8) (src : Src) (slices first : Nat) (fmt : Fmt) (opn cls : Bool) : NoWord.Statement (.col c a group src slices first fmt opn cls) := NoWord.of_none _
theorem NoWord.pre (c : Fin 256) (a : Fin 2) (group : Fin 8) (src : Src) (n : Nat) (fmt : Fmt) : NoWord.Statement (.pre c a group src n fmt) := NoWord.of_none _
theorem NoWord.preloadDone (c : Fin 256) (a : Fin 2) : NoWord.Statement (.preloadDone c a) := NoWord.of_none _
theorem NoWord.wb (c : Fin 256) (a : Fin 2) (group : Fin 8) (dst : WbDst) (fmt : Fmt) (st : Fin 16) (grad : Option Nat) : NoWord.Statement (.wb c a group dst fmt st grad) := NoWord.of_none _
theorem NoWord.writebackDone (c : Fin 256) (a : Fin 2) : NoWord.Statement (.writebackDone c a) := NoWord.of_none _
theorem NoWord.spl (c : Fin 256) (a : Fin 2) (code : Nat) : NoWord.Statement (.spl c a code) := NoWord.of_none _
theorem NoWord.bow (c : Fin 256) (a : Fin 2) (desc : Opnd) (st : Fin 16) : NoWord.Statement (.bow c a desc st) := NoWord.of_none _
theorem NoWord.nutIssue (n : Fin 128) : NoWord.Statement (.nutIssue n) := NoWord.of_none _
theorem NoWord.wrapBowStart (n : Fin 128) : NoWord.Statement (.wrapBowStart n) := NoWord.of_none _
theorem NoWord.groupDone (arr : Fin 512) (g : Fin 8) : NoWord.Statement (.groupDone arr g) := NoWord.of_none _
theorem NoWord.sumBowDone (n : Fin 128) (grad : Option Nat) : NoWord.Statement (.sumBowDone n grad) := NoWord.of_none _
theorem NoWord.arrayFault (arr : Fin 512) : NoWord.Statement (.arrayFault arr) := NoWord.of_none _
theorem NoWord.stringFaultClear (fn : Fin 18) (n : Fin 128) (v : W64) (ev : W64) : NoWord.Statement (.stringFaultClear fn n v ev) := NoWord.of_none _
theorem NoWord.readClear (fn : Fin 18) (off : Nat) (width : Nat) (ev : W64) : NoWord.Statement (.readClear fn off width ev) := NoWord.of_none _
theorem NoWord.slotComplete (p : Fin 16) : NoWord.Statement (.slotComplete p) := NoWord.of_none _
theorem NoWord.stashDeadlock (p : Fin 16) : NoWord.Statement (.stashDeadlock p) := NoWord.of_none _
theorem NoWord.stepWatchdogExpired (p : Fin 16) : NoWord.Statement (.stepWatchdogExpired p) := NoWord.of_none _
theorem NoWord.readyReport (p : Fin 16) : NoWord.Statement (.readyReport p) := NoWord.of_none _
theorem NoWord.vadd (c : Fin 256) (fmt : VFmts) (d a b : Fin 16) : NoWord.Statement (.vadd c fmt d a b) := NoWord.of_none _
theorem NoWord.vmul (c : Fin 256) (fmt : VFmts) (d a b : Fin 16) : NoWord.Statement (.vmul c fmt d a b) := NoWord.of_none _
theorem NoWord.vfma (c : Fin 256) (fmt : VFmts) (d a b e : Fin 16) : NoWord.Statement (.vfma c fmt d a b e) := NoWord.of_none _
theorem NoWord.vmin (c : Fin 256) (fmt : VFmts) (d a b : Fin 16) : NoWord.Statement (.vmin c fmt d a b) := NoWord.of_none _
theorem NoWord.vmax (c : Fin 256) (fmt : VFmts) (d a b : Fin 16) : NoWord.Statement (.vmax c fmt d a b) := NoWord.of_none _
theorem NoWord.vcmp (c : Fin 256) (fmt : VFmts) (op : CmpOp) (d a b : Fin 16) : NoWord.Statement (.vcmp c fmt op d a b) := NoWord.of_none _
theorem NoWord.vsel (c : Fin 256) (fmt : VFmts) (d a b m : Fin 16) : NoWord.Statement (.vsel c fmt d a b m) := NoWord.of_none _
theorem NoWord.vsfn (c : Fin 256) (f : SFn) (d a b : Fin 16) : NoWord.Statement (.vsfn c f d a b) := NoWord.of_none _
theorem NoWord.vred (c : Fin 256) (fmt : VFmt) (op : RedOp) (d a : Fin 16) (count : Nat) : NoWord.Statement (.vred c fmt op d a count) := NoWord.of_none _
theorem NoWord.vld (c : Fin 256) (d : Fin 16) (addr scaleAddr : Opnd) (mode : VldMode) (toFmt : VFmt) : NoWord.Statement (.vld c d addr scaleAddr mode toFmt) := NoWord.of_none _
theorem NoWord.vst (c : Fin 256) (a : Fin 16) (addr scaleAddr : Opnd) (fmt : Fmt) (srcFmt : VFmt) (mode : VstMode) (grad : Option Nat) : NoWord.Statement (.vst c a addr scaleAddr fmt srcFmt mode grad) := NoWord.of_none _
theorem NoWord.vstat (c : Fin 256) (st : Fin 16) : NoWord.Statement (.vstat c st) := NoWord.of_none _
theorem NoWord.mv (c : Fin 256) (desc : Opnd) (st : Fin 16) (grad : Option Nat) : NoWord.Statement (.mv c desc st grad) := NoWord.of_none _
theorem NoWord.matvecDone (c : Fin 256) : NoWord.Statement (.matvecDone c) := NoWord.of_none _
theorem NoWord.bundleIssue (c : Fin 256) (slots : List Slot) : NoWord.Statement (.bundleIssue c slots) := NoWord.of_none _
theorem NoWord.slotEnd (c : Fin 256) : NoWord.Statement (.slotEnd c) := NoWord.of_none _
theorem NoWord.fetch (c : Fin 256) (q : Fin 16) (src : XEnd) (len : Opnd) : NoWord.Statement (.fetch c q src len) := NoWord.of_none _
theorem NoWord.fetchArrived (c : Fin 256) (q : Fin 16) : NoWord.Statement (.fetchArrived c q) := NoWord.of_none _
theorem NoWord.put (c : Fin 256) (q : Fin 16) (srcOff : Opnd) (dst : XEnd) (len : Opnd) : NoWord.Statement (.put c q srcOff dst len) := NoWord.of_none _
theorem NoWord.putComplete (c : Fin 256) (q : Fin 16) (i : Nat) (hostData : List Byte) : NoWord.Statement (.putComplete c q i hostData) := NoWord.of_none _
theorem NoWord.pop (c : Fin 256) (q : Fin 16) (k : Nat) : NoWord.Statement (.pop c q k) := NoWord.of_none _
theorem NoWord.lmove (c : Fin 256) (dst src : LPlace) (len : Nat) : NoWord.Statement (.lmove c dst src len) := NoWord.of_none _
theorem NoWord.wait (c : Fin 256) (q : Fin 16) (k : Nat) : NoWord.Statement (.wait c q k) := NoWord.of_none _
theorem NoWord.waitp (c : Fin 256) (q : Fin 16) (k : Nat) : NoWord.Statement (.waitp c q k) := NoWord.of_none _
theorem NoWord.qcfg (c : Fin 256) (isPut : Bool) (q : Fin 16) (base size mode : Nat) : NoWord.Statement (.qcfg c isPut q base size mode) := NoWord.of_none _
theorem NoWord.add (c : Fin 256) (d a : Fin 32) (b : AluSrc) : NoWord.Statement (.add c d a b) := NoWord.of_none _
theorem NoWord.sub (c : Fin 256) (d a : Fin 32) (b : AluSrc) : NoWord.Statement (.sub c d a b) := NoWord.of_none _
theorem NoWord.and (c : Fin 256) (d a : Fin 32) (b : AluSrc) : NoWord.Statement (.and c d a b) := NoWord.of_none _
theorem NoWord.or (c : Fin 256) (d a : Fin 32) (b : AluSrc) : NoWord.Statement (.or c d a b) := NoWord.of_none _
theorem NoWord.xor (c : Fin 256) (d a : Fin 32) (b : AluSrc) : NoWord.Statement (.xor c d a b) := NoWord.of_none _
theorem NoWord.shl (c : Fin 256) (d a : Fin 32) (b : AluSrc) : NoWord.Statement (.shl c d a b) := NoWord.of_none _
theorem NoWord.shr (c : Fin 256) (d a : Fin 32) (b : AluSrc) : NoWord.Statement (.shr c d a b) := NoWord.of_none _
theorem NoWord.movi (c : Fin 256) (d : Fin 32) (v : W64) : NoWord.Statement (.movi c d v) := NoWord.of_none _
theorem NoWord.br (c : Fin 256) (target : Nat) : NoWord.Statement (.br c target) := NoWord.of_none _
theorem NoWord.brc (c : Fin 256) (r : Fin 32) (target : Nat) : NoWord.Statement (.brc c r target) := NoWord.of_none _
theorem NoWord.loop (c : Fin 256) (lc : Fin 4) (init : Option Nat) (target : Nat) : NoWord.Statement (.loop c lc init target) := NoWord.of_none _
theorem NoWord.strd (c : Fin 256) (d : Fin 32) (st : Fin 16) : NoWord.Statement (.strd c d st) := NoWord.of_none _
theorem NoWord.timerd (c : Fin 256) (d : Fin 32) : NoWord.Statement (.timerd c d) := NoWord.of_none _
theorem NoWord.nop (c : Fin 256) : NoWord.Statement (.nop c) := NoWord.of_none _
theorem NoWord.atom (c : Fin 256) (op : AtomOp) (ty : AtomTy) (addr srcOff : Opnd) (len : Nat) (fq : Option (Fin 16)) : NoWord.Statement (.atom c op ty addr srcOff len fq) := NoWord.of_none _
theorem NoWord.foldSwap (p : Fin 16) (unit : Nat) : NoWord.Statement (.foldSwap p unit) := NoWord.of_none _
theorem NoWord.foldSwapDone (p : Fin 16) (unit : Nat) : NoWord.Statement (.foldSwapDone p unit) := NoWord.of_none _
theorem NoWord.programLoad (fn : Fin 18) (c : Fin 256) (v : W64) : NoWord.Statement (.programLoad fn c v) := NoWord.of_none _
theorem NoWord.programUnload (fn : Fin 18) (c : Fin 256) (v : W64) : NoWord.Statement (.programUnload fn c v) := NoWord.of_none _
theorem NoWord.programUnloadApply (p : Fin 16) (k : Fin 8) : NoWord.Statement (.programUnloadApply p k) := NoWord.of_none _
theorem NoWord.timeSliceSwap (p : Fin 16) : NoWord.Statement (.timeSliceSwap p) := NoWord.of_none _
theorem NoWord.meshRead (pk : Packet) (ecc : Ecc) : NoWord.Statement (.meshRead pk ecc) := NoWord.of_none _
theorem NoWord.meshWrite (pk : Packet) (ecc : Ecc) : NoWord.Statement (.meshWrite pk ecc) := NoWord.of_none _
theorem NoWord.meshAtom (pk : Packet) (spec : AtomSpec) (ecc : Ecc) : NoWord.Statement (.meshAtom pk spec ecc) := NoWord.of_none _
theorem NoWord.meshRegRead (pk : Packet) (ev : W64) : NoWord.Statement (.meshRegRead pk ev) := NoWord.of_none _
theorem NoWord.meshRegWrite (pk : Packet) (ev : W64) : NoWord.Statement (.meshRegWrite pk ev) := NoWord.of_none _
theorem NoWord.meshQueueData (pk : Packet) : NoWord.Statement (.meshQueueData pk) := NoWord.of_none _
theorem NoWord.meshInterrupt (pk : Packet) : NoWord.Statement (.meshInterrupt pk) := NoWord.of_none _
theorem NoWord.meshReadData (pk : Packet) : NoWord.Statement (.meshReadData pk) := NoWord.of_none _
theorem NoWord.meshWriteAck (pk : Packet) : NoWord.Statement (.meshWriteAck pk) := NoWord.of_none _
theorem NoWord.meshAtomData (pk : Packet) : NoWord.Statement (.meshAtomData pk) := NoWord.of_none _
theorem NoWord.meshRegData (pk : Packet) : NoWord.Statement (.meshRegData pk) := NoWord.of_none _
theorem NoWord.meshRegAck (pk : Packet) : NoWord.Statement (.meshRegAck pk) := NoWord.of_none _
theorem NoWord.meshBadPacket (pk : Packet) : NoWord.Statement (.meshBadPacket pk) := NoWord.of_none _
theorem NoWord.scFlush (fn : Fin 18) (v : W64) : NoWord.Statement (.scFlush fn v) := NoWord.of_none _
theorem NoWord.scFlushDone : NoWord.Statement (.scFlushDone) := NoWord.of_none _
theorem NoWord.laneTraining (col : Fin 64) : NoWord.Statement (.laneTraining col) := NoWord.of_none _
theorem NoWord.laneTrainingDone (col : Fin 64) (failed : List (Fin 4672)) : NoWord.Statement (.laneTrainingDone col failed) := NoWord.of_none _
theorem NoWord.columnFailed (col : Fin 64) : NoWord.Statement (.columnFailed col) := NoWord.of_none _
theorem NoWord.doorbell (fn : Fin 18) (page slot : Nat) (v : W64) (width : Nat) : NoWord.Statement (.doorbell fn page slot v width) := NoWord.of_none _
theorem NoWord.create (fn : Fin 18) (idx : Nat) (image : List Byte) : NoWord.Statement (.create fn idx image) := NoWord.of_none _
theorem NoWord.destroy (fn : Fin 18) (idx : Nat) : NoWord.Statement (.destroy fn idx) := NoWord.of_none _
theorem NoWord.rearm (fn : Fin 18) (idx : Nat) : NoWord.Statement (.rearm fn idx) := NoWord.of_none _
theorem NoWord.query (fn : Fin 18) (idx : Nat) : NoWord.Statement (.query fn idx) := NoWord.of_none _
theorem NoWord.evict (fn : Fin 18) (idx : Nat) : NoWord.Statement (.evict fn idx) := NoWord.of_none _
theorem NoWord.partTableWrite (fn : Fin 18) (off : Nat) (v : W64) : NoWord.Statement (.partTableWrite fn off v) := NoWord.of_none _
theorem NoWord.descriptorPrefetch (idx : Nat) (hostData : List Byte) : NoWord.Statement (.descriptorPrefetch idx hostData) := NoWord.of_none _
theorem NoWord.descriptorAccept (idx : Nat) (hostData : List Byte) (mapped : Bool) : NoWord.Statement (.descriptorAccept idx hostData mapped) := NoWord.of_none _
theorem NoWord.descriptorFinish (idx i status bytes : Nat) (hostData : List Byte) (ecc : Ecc) : NoWord.Statement (.descriptorFinish idx i status bytes hostData ecc) := NoWord.of_none _
theorem NoWord.msixMergeExpiry (vec : Nat) : NoWord.Statement (.msixMergeExpiry vec) := NoWord.of_none _
theorem NoWord.contextLoad (idx : Nat) (hostEntry : List Byte) : NoWord.Statement (.contextLoad idx hostEntry) := NoWord.of_none _
theorem NoWord.contextWritebackDone (idx : Nat) : NoWord.Statement (.contextWritebackDone idx) := NoWord.of_none _
theorem NoWord.linkSignalDetect (port : Fin 12) : NoWord.Statement (.linkSignalDetect port) := NoWord.of_none _
theorem NoWord.ident (port : Fin 12) (m : IdentMsg) : NoWord.Statement (.ident port m) := NoWord.of_none _
theorem NoWord.wiringNotice (port : Fin 12) (code : Nat) : NoWord.Statement (.wiringNotice port code) := NoWord.of_none _
theorem NoWord.portUp (port : Fin 12) (lanes propNs : Nat) : NoWord.Statement (.portUp port lanes propNs) := NoWord.of_none _
theorem NoWord.trainingAttemptFail (port : Fin 12) : NoWord.Statement (.trainingAttemptFail port) := NoWord.of_none _
theorem NoWord.partnerLost (port : Fin 12) : NoWord.Statement (.partnerLost port) := NoWord.of_none _
theorem NoWord.retrain (fn : Fin 18) (port : Fin 12) : NoWord.Statement (.retrain fn port) := NoWord.of_none _
theorem NoWord.portDisable (fn : Fin 18) (port : Fin 12) (v : W64) : NoWord.Statement (.portDisable fn port v) := NoWord.of_none _
theorem NoWord.fabModAddrWrite (fn : Fin 18) (v : W64) : NoWord.Statement (.fabModAddrWrite fn v) := NoWord.of_none _
theorem NoWord.dataUnit (port : Fin 12) (w : UnitWire) (fec : Nat × Nat) : NoWord.Statement (.dataUnit port w fec) := NoWord.of_none _
theorem NoWord.controlUnit (port : Fin 12) (w : UnitWire) (fec : Nat × Nat) : NoWord.Statement (.controlUnit port w fec) := NoWord.of_none _
theorem NoWord.idleUnit (port : Fin 12) (fec : Nat × Nat) : NoWord.Statement (.idleUnit port fec) := NoWord.of_none _
theorem NoWord.mcastUnit (port : Fin 12) (w : UnitWire) (fec : Nat × Nat) : NoWord.Statement (.mcastUnit port w fec) := NoWord.of_none _
theorem NoWord.controlUnitSend (port : Fin 12) : NoWord.Statement (.controlUnitSend port) := NoWord.of_none _
theorem NoWord.linkDown (port : Fin 12) (addr dim : Nat) (plus : Bool) : NoWord.Statement (.linkDown port addr dim plus) := NoWord.of_none _
theorem NoWord.linkUp (port : Fin 12) (addr dim : Nat) (plus : Bool) : NoWord.Statement (.linkUp port addr dim plus) := NoWord.of_none _
theorem NoWord.e2eAck (via : AckVia) (stream seq free : Nat) : NoWord.Statement (.e2eAck via stream seq free) := NoWord.of_none _
theorem NoWord.e2eAckSend (stream : Nat) : NoWord.Statement (.e2eAckSend stream) := NoWord.of_none _
theorem NoWord.fabE2eRetransmit (stream : Nat) : NoWord.Statement (.fabE2eRetransmit stream) := NoWord.of_none _
theorem NoWord.timeoutHoldEnd (kind idx : Nat) : NoWord.Statement (.timeoutHoldEnd kind idx) := NoWord.of_none _
theorem NoWord.reserve (port : Option (Fin 12)) (m : AdmMsg) : NoWord.Statement (.reserve port m) := NoWord.of_none _
theorem NoWord.grant (port : Option (Fin 12)) (m : AdmMsg) : NoWord.Statement (.grant port m) := NoWord.of_none _
theorem NoWord.refuse (port : Option (Fin 12)) (m : AdmMsg) : NoWord.Statement (.refuse port m) := NoWord.of_none _
theorem NoWord.release (port : Option (Fin 12)) (m : AdmMsg) : NoWord.Statement (.release port m) := NoWord.of_none _
theorem NoWord.admissionHoldTimeout (port : Fin 12) : NoWord.Statement (.admissionHoldTimeout port) := NoWord.of_none _
theorem NoWord.linkRekey (port : Fin 12) : NoWord.Statement (.linkRekey port) := NoWord.of_none _
theorem NoWord.timeMessage (port : Fin 12) (t1 : Nat) (t2 : Option Nat) (t3 prop : Nat) : NoWord.Statement (.timeMessage port t1 t2 t3 prop) := NoWord.of_none _
theorem NoWord.timeMessageSend : NoWord.Statement (.timeMessageSend) := NoWord.of_none _
theorem NoWord.feedWrite (g : Fin 16) : NoWord.Statement (.feedWrite g) := NoWord.of_none _
theorem NoWord.encRecord (g : Fin 16) : NoWord.Statement (.encRecord g) := NoWord.of_none _
theorem NoWord.g1Unit (port : Fin 12) (w : UnitWire) (fec : Nat × Nat) : NoWord.Statement (.g1Unit port w fec) := NoWord.of_none _
theorem NoWord.reduceScatterUnit (port : Fin 12) (w : UnitWire) (fec : Nat × Nat) : NoWord.Statement (.reduceScatterUnit port w fec) := NoWord.of_none _
theorem NoWord.allGatherUnit (port : Fin 12) (w : UnitWire) (fec : Nat × Nat) : NoWord.Statement (.allGatherUnit port w fec) := NoWord.of_none _
theorem NoWord.fingerprintUnit (port : Fin 12) (header : BitVec 80) (data : List Byte) (crc : BitVec 32) (fec : Nat × Nat) : NoWord.Statement (.fingerprintUnit port header data crc fec) := NoWord.of_none _
theorem NoWord.reductionCredit (port : Fin 12) (slot : Fin 16) (dim : Fin 4) (plus : Bool) (n : Nat) : NoWord.Statement (.reductionCredit port slot dim plus n) := NoWord.of_none _
theorem NoWord.grxPartBlocksWrite (fn : Fin 18) (p : Fin 16) (v : W64) : NoWord.Statement (.grxPartBlocksWrite fn p v) := NoWord.of_none _
theorem NoWord.ready (hop : SealHop) (child : Nat) (m : ReadyMsg) : NoWord.Statement (.ready hop child m) := NoWord.of_none _
theorem NoWord.sendReady (p : Fin 16) : NoWord.Statement (.sendReady p) := NoWord.of_none _
theorem NoWord.sealStep (hop : SealHop) (src step : Nat) : NoWord.Statement (.sealStep hop src step) := NoWord.of_none _
theorem NoWord.sealAck (hop : SealHop) (m : StepFrom) : NoWord.Statement (.sealAck hop m) := NoWord.of_none _
theorem NoWord.abort (hop : SealHop) (src : Nat) (m : AbortMsg) : NoWord.Statement (.abort hop src m) := NoWord.of_none _
theorem NoWord.decisionAck (hop : SealHop) (child step : Nat) : NoWord.Statement (.decisionAck hop child step) := NoWord.of_none _
theorem NoWord.decisionQuery (hop : SealHop) (src : Nat) (step : Option Nat) : NoWord.Statement (.decisionQuery hop src step) := NoWord.of_none _
theorem NoWord.decisionAnswer (hop : SealHop) (src step : Nat) (m : DecisionMsg) : NoWord.Statement (.decisionAnswer hop src step m) := NoWord.of_none _
theorem NoWord.rejoinCopyDone (p : Fin 16) (data : List Byte) : NoWord.Statement (.rejoinCopyDone p data) := NoWord.of_none _
theorem NoWord.stmRecover (fn : Fin 18) (v : W64) : NoWord.Statement (.stmRecover fn v) := NoWord.of_none _
theorem NoWord.recoveryScan (descs : List (Nat × Nat × List Byte)) : NoWord.Statement (.recoveryScan descs) := NoWord.of_none _
theorem NoWord.journalWriteDone (idx : Nat) : NoWord.Statement (.journalWriteDone idx) := NoWord.of_none _
theorem NoWord.zoneStretch (z : Fin 16) (monitor code : Nat) : NoWord.Statement (.zoneStretch z monitor code) := NoWord.of_none _
theorem NoWord.slowLoop (z : Fin 16) : NoWord.Statement (.slowLoop z) := NoWord.of_none _
theorem NoWord.zoneSlewStep (z : Fin 16) : NoWord.Statement (.zoneSlewStep z) := NoWord.of_none _
theorem NoWord.zoneLockLost (z : Fin 16) : NoWord.Statement (.zoneLockLost z) := NoWord.of_none _
theorem NoWord.relock (fn : Fin 18) (z : Fin 16) : NoWord.Statement (.relock fn z) := NoWord.of_none _
theorem NoWord.refLost : NoWord.Statement (.refLost) := NoWord.of_none _
theorem NoWord.epochPulse : NoWord.Statement (.epochPulse) := NoWord.of_none _
theorem NoWord.clkTimeSeedWrite (fn : Fin 18) (v : W64) : NoWord.Statement (.clkTimeSeedWrite fn v) := NoWord.of_none _
theorem NoWord.clkSyncLost : NoWord.Statement (.clkSyncLost) := NoWord.of_none _
theorem NoWord.flushComplete (b : Nat) : NoWord.Statement (.flushComplete b) := NoWord.of_none _
theorem NoWord.supplyHigh (mv : Nat) : NoWord.Statement (.supplyHigh mv) := NoWord.of_none _
theorem NoWord.supplyThrottle (mv : Nat) : NoWord.Statement (.supplyThrottle mv) := NoWord.of_none _
theorem NoWord.supplyNormal (mv : Nat) : NoWord.Statement (.supplyNormal mv) := NoWord.of_none _
theorem NoWord.supplyStop (mv : Nat) : NoWord.Statement (.supplyStop mv) := NoWord.of_none _
theorem NoWord.retentionEnter : NoWord.Statement (.retentionEnter) := NoWord.of_none _
theorem NoWord.supplyRideThrough (mv : Nat) : NoWord.Statement (.supplyRideThrough mv) := NoWord.of_none _
theorem NoWord.holdupDepleted : NoWord.Statement (.holdupDepleted) := NoWord.of_none _
theorem NoWord.holdupCharged (mv : Nat) : NoWord.Statement (.holdupCharged mv) := NoWord.of_none _
theorem NoWord.inrushFault : NoWord.Statement (.inrushFault) := NoWord.of_none _
theorem NoWord.inrushRetry : NoWord.Statement (.inrushRetry) := NoWord.of_none _
theorem NoWord.gateEval (ramp : List Nat) (progW droneMax : Nat) : NoWord.Statement (.gateEval ramp progW droneMax) := NoWord.of_none _
theorem NoWord.capEval : NoWord.Statement (.capEval) := NoWord.of_none _
theorem NoWord.telemetrySample (mv watts board : Nat) (zones : List (Nat × Nat × Nat)) : NoWord.Statement (.telemetrySample mv watts board zones) := NoWord.of_none _
theorem NoWord.telemetryRecord : NoWord.Statement (.telemetryRecord) := NoWord.of_none _
theorem NoWord.poweredHour (slow : List Nat) : NoWord.Statement (.poweredHour slow) := NoWord.of_none _
theorem NoWord.replan (write : Option (Fin 18)) : NoWord.Statement (.replan write) := NoWord.of_none _
theorem NoWord.bootRom : NoWord.Statement (.bootRom) := NoWord.of_none _
theorem NoWord.getCerts (fn : Fin 18) (hostReq : List Byte) : NoWord.Statement (.getCerts fn hostReq) := NoWord.of_none _
theorem NoWord.attest (fn : Fin 18) (hostReq : List Byte) : NoWord.Statement (.attest fn hostReq) := NoWord.of_none _
theorem NoWord.logRead (fn : Fin 18) (hostReq : List Byte) : NoWord.Statement (.logRead fn hostReq) := NoWord.of_none _
theorem NoWord.lock (fn : Fin 18) (hostReq : List Byte) : NoWord.Statement (.lock fn hostReq) := NoWord.of_none _
theorem NoWord.unlock (fn : Fin 18) (hostReq : List Byte) : NoWord.Statement (.unlock fn hostReq) := NoWord.of_none _
theorem NoWord.keyAgree (fn : Fin 18) (hostReq : List Byte) : NoWord.Statement (.keyAgree fn hostReq) := NoWord.of_none _
theorem NoWord.keyImport (fn : Fin 18) (hostReq : List Byte) : NoWord.Statement (.keyImport fn hostReq) := NoWord.of_none _
theorem NoWord.keyDestroy (fn : Fin 18) (hostReq : List Byte) : NoWord.Statement (.keyDestroy fn hostReq) := NoWord.of_none _
theorem NoWord.svnCommit (fn : Fin 18) (hostReq : List Byte) : NoWord.Statement (.svnCommit fn hostReq) := NoWord.of_none _
theorem NoWord.firmwareUpdate (image : List Byte) : NoWord.Statement (.firmwareUpdate image) := NoWord.of_none _
theorem NoWord.ideKm (stream : Fin 17) : NoWord.Statement (.ideKm stream) := NoWord.of_none _
theorem NoWord.hostIdeError (stream : Fin 17) (hit : List Nat) : NoWord.Statement (.hostIdeError stream hit) := NoWord.of_none _
theorem NoWord.hostLinkChange (width rate half : Nat) : NoWord.Statement (.hostLinkChange width rate half) := NoWord.of_none _
theorem NoWord.hostLinkDown : NoWord.Statement (.hostLinkDown) := NoWord.of_none _
theorem NoWord.vfFlr (v : Fin 16) : NoWord.Statement (.vfFlr v) := NoWord.of_none _
theorem NoWord.pfFlr : NoWord.Statement (.pfFlr) := NoWord.of_none _
theorem NoWord.hotReset : NoWord.Statement (.hotReset) := NoWord.of_none _
theorem NoWord.perst : NoWord.Statement (.perst) := NoWord.of_none _
theorem NoWord.bar2Read (fn : Fin 18) (off len : Nat) (ecc : Ecc) : NoWord.Statement (.bar2Read fn off len ecc) := NoWord.of_none _
theorem NoWord.bar2Write (fn : Fin 18) (off : Nat) (data : List Byte) (ecc : Ecc) : NoWord.Statement (.bar2Write fn off data ecc) := NoWord.of_none _
theorem NoWord.modIntCauseClear (fn : Fin 18) (v : W64) (ev : W64) : NoWord.Statement (.modIntCauseClear fn v ev) := NoWord.of_none _
theorem NoWord.modIntMaskWrite (fn : Fin 18) (v : W64) : NoWord.Statement (.modIntMaskWrite fn v) := NoWord.of_none _
theorem NoWord.msixUnmask (vec : Nat) : NoWord.Statement (.msixUnmask vec) := NoWord.of_none _
theorem NoWord.faultMergeEnd (i : Nat) : NoWord.Statement (.faultMergeEnd i) := NoWord.of_none _
theorem NoWord.faultRingDrain (fn : Fin 18) (v : W64) : NoWord.Statement (.faultRingDrain fn v) := NoWord.of_none _
theorem NoWord.coreHwFault (c : Fin 256) (array : Option (Fin 2)) : NoWord.Statement (.coreHwFault c array) := NoWord.of_none _
theorem NoWord.quarantineAdd (fn : Fin 18) (v : W64) : NoWord.Statement (.quarantineAdd fn v) := NoWord.of_none _
theorem NoWord.quarantineRemove (fn : Fin 18) (v : W64) : NoWord.Statement (.quarantineRemove fn v) := NoWord.of_none _
theorem NoWord.recEn (fn : Fin 18) : NoWord.Statement (.recEn fn) := NoWord.of_none _
theorem NoWord.recArm (fn : Fin 18) : NoWord.Statement (.recArm fn) := NoWord.of_none _
theorem NoWord.gpx0Edge : NoWord.Statement (.gpx0Edge) := NoWord.of_none _
theorem NoWord.recStop (fn : Fin 18) : NoWord.Statement (.recStop fn) := NoWord.of_none _
theorem NoWord.replayEn (fn : Fin 18) : NoWord.Statement (.replayEn fn) := NoWord.of_none _
theorem NoWord.replayEntry (entry bulk : List Byte) : NoWord.Statement (.replayEntry entry bulk) := NoWord.of_none _
theorem NoWord.replayDiverged : NoWord.Statement (.replayDiverged) := NoWord.of_none _
theorem NoWord.traceEn (fn : Fin 18) (v : W64) : NoWord.Statement (.traceEn fn v) := NoWord.of_none _
theorem NoWord.dump (fn : Fin 18) : NoWord.Statement (.dump fn) := NoWord.of_none _
theorem NoWord.powerOn (mv : Nat) : NoWord.Statement (.powerOn mv) := NoWord.of_none _
theorem NoWord.warmReset (fn : Fin 18) (v : W64) : NoWord.Statement (.warmReset fn v) := NoWord.of_none _
theorem NoWord.warmResetRestart : NoWord.Statement (.warmResetRestart) := NoWord.of_none _
theorem NoWord.coldReset (fn : Fin 18) (v : W64) : NoWord.Statement (.coldReset fn v) := NoWord.of_none _
theorem NoWord.coreReset (fn : Fin 18) (v : W64) : NoWord.Statement (.coreReset fn v) := NoWord.of_none _
theorem NoWord.portReset (fn : Fin 18) (v : W64) : NoWord.Statement (.portReset fn v) := NoWord.of_none _
theorem NoWord.shutdown (fn : Fin 18) (v : W64) : NoWord.Statement (.shutdown fn v) := NoWord.of_none _
theorem NoWord.sealPulseEnd : NoWord.Statement (.sealPulseEnd) := NoWord.of_none _
theorem NoWord.regRead (off : Nat) (ev : W64) : NoWord.Statement (.regRead off ev) := NoWord.of_none _
theorem NoWord.regWrite (off : Nat) (v : W64) (ev : W64) : NoWord.Statement (.regWrite off v ev) := NoWord.of_none _
theorem NoWord.bufWrite (buf off : Nat) (data : List Byte) : NoWord.Statement (.bufWrite buf off data) := NoWord.of_none _
theorem NoWord.tunLoad (checkOnly : Bool) (len : Nat) : NoWord.Statement (.tunLoad checkOnly len) := NoWord.of_none _
theorem NoWord.tunReport (i : Nat) : NoWord.Statement (.tunReport i) := NoWord.of_none _
theorem NoWord.secGo (len : Nat) : NoWord.Statement (.secGo len) := NoWord.of_none _
theorem NoWord.bufRead (off len : Nat) : NoWord.Statement (.bufRead off len) := NoWord.of_none _
theorem NoWord.pldmDiscovery (cmd : Nat) : NoWord.Statement (.pldmDiscovery cmd) := NoWord.of_none _
theorem NoWord.pldmMonitor (sensor : Nat) : NoWord.Statement (.pldmMonitor sensor) := NoWord.of_none _
theorem NoWord.pldmFru : NoWord.Statement (.pldmFru) := NoWord.of_none _
theorem NoWord.extest : NoWord.Statement (.extest) := NoWord.of_none _
theorem NoWord.registerWrite (fn : Fin 18) (off width : Nat) (v : W64) (ev : W64) : NoWord.Statement (.registerWrite fn off width v ev) := NoWord.of_none _
theorem NoWord.columnPortSlot (row col : Fin 8) (write : Bool) : NoWord.Statement (.columnPortSlot row col write) := NoWord.of_none _
theorem NoWord.refPresent : NoWord.Statement (.refPresent) := NoWord.of_none _
theorem NoWord.bootRefTimeout : NoWord.Statement (.bootRefTimeout) := NoWord.of_none _
theorem NoWord.syncOutPulse : NoWord.Statement (.syncOutPulse) := NoWord.of_none _
theorem NoWord.syncInMissed : NoWord.Statement (.syncInMissed) := NoWord.of_none _
theorem NoWord.mailboxDone (fn : Fin 18) : NoWord.Statement (.mailboxDone fn) := NoWord.of_none _
theorem NoWord.programLoadDone (p : Fin 16) : NoWord.Statement (.programLoadDone p) := NoWord.of_none _
theorem NoWord.timeSliceSwapDone (p : Fin 16) : NoWord.Statement (.timeSliceSwapDone p) := NoWord.of_none _
theorem NoWord.functionPowerState (fn : Fin 18) (d3 : Bool) : NoWord.Statement (.functionPowerState fn d3) := NoWord.of_none _
theorem NoWord.busMasterEnable (v : Fin 16) : NoWord.Statement (.busMasterEnable v) := NoWord.of_none _

end Sys2Proof.Laws
end

