-- ==== Sys2Proof/Tests/Slice0.lean ====
section
/-! SUPPORT. Tests: words of the syntax that WellFormed refuses, single steps against values of the manual, and for each statement states
and operands that meet the hypotheses of its clauses (wit_<statement>; a statement that joins several parts has one witness for each part,
named after the part). -/

namespace Sys2Proof.Tests
open Sys2Proof Sys2Proof.Machine
set_option Elab.async false

/-! ## Small states -/

/-- One partition that holds every core and String. -/
def tuning0 : Tuning :=
  { cooling := 1, setpoint := List.replicate 16 850, droneFloor := 0, rampUp := 0, rampDown := 0, seamCut := 0, strLens := [2], partCount := 1,
    cores := [BitVec.allOnes 256], strings := [BitVec.allOnes 128], residue := 0, shared := 0, base := [0], size := [4], swap := [0],
    guarantee := [0], ceiling := [100], shape := 0, extents := 0, roles := List.replicate 12 0, own := [] }

/-- The String of arrays 0 and 1 of core 0. -/
def geom0 : StrGeom := { frets := [0, 1], nutPos := 0, bridgePos := 1, bypass := 0, zoneCross := 0, seam := false, efs := [] }

/-- A module that runs under that Tuning. -/
def up : State :=
  { State.reset with phase := .run, tun := { cur := tuning0, geom := [geom0], disabled := [], runtime := [], zeroising := [], oldRegions := [], oldCores := [], busBuf := [], busReport := [], busLoad := false, endCode := 0, imageId := 0, jobs := [] } }

/-- A core that runs a tenant of 64 KiB core store. -/
def core0 : Core := { run := .run, tens := [(0, some ⟨0, 0, 65536, 65536, 0, 0, 16⟩)] }

/-- Core 0 is `k`. -/
def withCore (k : Core) : State := { up with cores := [(0, k)] }

/-- Core 0 runs. -/
def running : State := withCore core0

/-- A program of one core with one segment of 64 KiB, and one slot of its schedule. -/
def slot0 : SlotEnt := { typ := 1, stage := 0, ctx := 0, variant := false, layerFirst := 0, layerCount := 0, entry := 0, blocks := 0, pair := 0, waitStream := none, waitCount := 0, alt := 0, tag := 0 }
def sched0 : Sched := { mainSlots := 1, slots := [slot0], layers := 0, stashBase := 131072, stashBlocks := 2, watchdogMs := 0, layerTable := 0, status := 0 }
def vcore0 : VCore := { code := 0, bundles := 16, unit := 0, trap := 0, size := 65536, live := 65536, initOff := 0, initLen := 0, phys := 0, tenant := 0, csBase := 0 }
def prog0 : Prog :=
  { addr := 0, len := 4096, hash := [], vcores := [vcore0], vstrs := [], segs := [⟨65536, 1, 2, 0⟩], sched := sched0, codeOff := 0, initOff := 0, hdr := none, groups := [], watchdog := false, epoch := 0, stepNo := 0, unloadReq := false }
def part0 : PartSt := { progs := [(0, some prog0)], cur := some 0 }
/-- Core 0 runs a program in partition 0. -/
def busyWith (p : PartSt) (k : Core) : State := { withCore k with parts := [(0, p)] }
def busy : State := busyWith part0 core0

/-- Partition 0 holds streams 0 to 15, and stream 0 is resident with entry `e` and run-time state `r`. -/
def withStream (s : State) (e : StrEnt) (r : StrRt) : State :=
  { s with regs := tput s.regs (R.STM_PART_RANGE 0) 0x400100000, stm := { s.stm with ctxs := [(0, some ⟨e, .valid, false, 0⟩)], rt := [(0, r)] } }

/-- An empty ring of 4 KiB, and one whose oldest request of 32 bytes is `r`. -/
def ring (l : List FReq) : FQ := { size := 4096, reqs := l, nextId := l.length, nextOff := 32 * l.length }
def req (got : Nat) (arrived : Bool) : FReq := { id := 0, off := 0, len := 32, got := got, taken := 0, arrived := arrived }
/-- Core 0 with fetch queue 0 as `f`, and with put queue 0 as `l`. -/
def fqCore (f : FQ) : Core := { core0 with fq := [(0, f)] }
def pqCore (l : List PReq) : Core := { core0 with pq := [(0, { nextId := l.length, reqs := l })] }
def preq (d : PutDst) (w : Bool) : PReq := ⟨0, 32, d, w, List.replicate 32 1⟩
/-- A core whose unit `u` has `op` at the head of its queue. -/
def headCore (u : UnitId) (op : SlotOp) (k : Core) : Core := { k with uq := [(slotNo u, [⟨1, 0, op⟩])] }
/-- Core 0 runs with `op` at the head of unit `u`. -/
def head (u : UnitId) (op : SlotOp) : State := withCore (headCore u op core0)
/-- A range of the scoreboard that an asynchronous operation still writes. -/
def hazCore : Core := { core0 with ranges := [⟨0, 64, true, 0⟩] }
/-- As `busy`, with a shared region of 64 MiB and a segment of 64 KiB at its window. -/
def sharing (k : Core) : State :=
  let s := busyWith { part0 with progs := [(0, some { prog0 with segs := [⟨0x800000000, 1, 2, 0⟩] })] } k
  { s with tun := { s.tun with cur := { tuning0 with shared := 1 } } }
def out0 : StrEnt := { flags := 11, log2 := 4 }
def in0 : StrEnt := { flags := 17, log2 := 4 }
def inStream : State := withStream (withCore (fqCore (ring []))) in0 {}
def outStream (l : List PReq) : State := withStream (withCore (pqCore l)) out0 {}

/-! ## Witnesses: the hypotheses of the statements can be met -/

theorem wit_AluResult : Ready (head .c (.add 1 2 (.reg 3))) 0 .c (.add 1 2 (.reg 3)) ∧ Ready (head .c (.sub 0 31 (.imm 1))) 0 .c (.sub 0 31 (.imm 1)) ∧
    Ready (head .c (.and 1 2 (.reg 0))) 0 .c (.and 1 2 (.reg 0)) ∧ Ready (head .c (.or 1 2 (.reg 0))) 0 .c (.or 1 2 (.reg 0)) ∧
    Ready (head .c (.xor 1 2 (.reg 0))) 0 .c (.xor 1 2 (.reg 0)) ∧ Ready (head .c (.shl 1 2 (.imm 64))) 0 .c (.shl 1 2 (.imm 64)) ∧
    Ready (head .c (.shr 1 2 (.imm 63))) 0 .c (.shr 1 2 (.imm 63)) ∧ (aluVal core0 (.imm 63)).toNat < 64 ∧
    Ready (head .c (.movi 31 5)) 0 .c (.movi 31 5) := by
  unfold Ready; decide

/-- As a state, but with a replay of partition 0 under way. -/
def replayed (s : State) : State := { s with regs := tput (tput s.regs R.DBG_STATUS 4) R.DBG_REC_PARTS 1 }

theorem wit_SlotReads : Ready (head .c (.strd 31 15)) 0 .c (.strd 31 15) ∧ Ready (head .c .nop) 0 .c .nop ∧ Ready (head .c (.timerd 1)) 0 .c (.timerd 1) ∧
    replaying (head .c (.timerd 1)) ((partOfCore running 0).getD 16) = false ∧ recording (head .c (.timerd 1)) ((partOfCore running 0).getD 16) = false ∧
    (let s := replayed (head .c (.timerd 1))
     Ready s 0 .c (.timerd 1) ∧ replaying s ((partOfCore s 0).getD 16) = true ∧ s.dbg.waitData.find? (fun e => e.1 = timerdKey 0) = none ∧
     { s.dbg with waitData := [(timerdKey 0, [1])] }.waitData.find? (fun e => e.1 = timerdKey 0) = some (timerdKey 0, [1])) := by
  unfold Ready; decide +kernel

theorem wit_Branches : Ready (head .c (.br 5)) 0 .c (.br 5) ∧ Ready (head .c (.brc 31 5)) 0 .c (.brc 31 5) ∧
    Ready (head .c (.loop 3 (some 2) 5)) 0 .c (.loop 3 (some 2) 5) ∧ Ready (head .c (.loop 3 none 5)) 0 .c (.loop 3 none 5) ∧
    gr core0 31 = 0 ∧ gr { core0 with gr := [(31, 1)] } 31 ≠ 0 ∧ lcOf { core0 with lc := [(3, 1)] } 3 - 1 = 0 := by
  unfold Ready; decide

/-- A bundle whose C slot alone is valid, and its one slot. -/
def wordC : Nat := 2 ^ 253
def atBundle (w : Nat) (k : Core) : State := withCore { k with istore := [(0, BitVec.ofNat 256 w)] }
def slotC (op : SlotOp) : List Slot := [⟨.c, some op⟩]

theorem wit_BundlesIssueWhole : coreRuns up 0 = false ∧ { core0 with ended := true }.ended = true ∧ slotsMatch wordC [] = false ∧
    (let s := atBundle wordC core0
     coreRuns s 0 = true ∧ bundleWord (getCore s 0) = wordC ∧ slotsMatch wordC (slotC .nop) = true) ∧
    (slotC (.wait 0 65)).any waitOver = true ∧ (slotC (.wait 0 64)).any waitOver = false ∧ nbit (wordC + 2 ^ 255) 255 = true ∧
    bundleIllegal (wordC + 1) (slotC .nop) = true ∧ bundleIllegal wordC [⟨.c, none⟩] = true ∧ bundleIllegal wordC (slotC .nop) = false ∧
    writesClash ([⟨.c, some (.add 1 2 (.imm 3))⟩, ⟨.x, some (.lmove (.gr 1) (.store ⟨0, 0, 0⟩) 8)⟩].flatMap slotWrites) = true ∧
    (slotC (.wait 0 1)).any (waitFalse core0) = true ∧ (slotC .nop).any (waitFalse core0) = false ∧
    unitFull { core0 with uq := [(5, List.replicate 8 ⟨0, 0, .nop⟩)] } (slotC .nop) = true ∧
    unitFull { core0 with uq := [(5, List.replicate 7 ⟨0, 0, .nop⟩)] } (slotC .nop) = false ∧ core0.branching = false ∧
    (slotC (.brc 1 0)).any (branchPending (headCore .c (.add 1 2 (.imm 3)) core0)) = true ∧ (slotC (.brc 1 0)).any (branchPending core0) = false ∧
    rangesFull { core0 with ranges := List.replicate 63 ⟨0, 0, true, 0⟩ } [⟨.m, some (.mv ⟨0, 0, 0⟩ 0)⟩] = true ∧
    rangesFull { core0 with ranges := List.replicate 62 ⟨0, 0, true, 0⟩ } [⟨.m, some (.mv ⟨0, 0, 0⟩ 0)⟩] = false := by
  decide +kernel

theorem wit_QueueWaits : Ready (head .c (.wait 0 65)) 0 .c (.wait 0 65) ∧ Ready (head .c (.wait 0 64)) 0 .c (.wait 0 64) ∧
    Ready (head .c (.waitp 0 0)) 0 .c (.waitp 0 0) ∧ Ready (head .c (.qcfg true 15 0 0 0)) 0 .c (.qcfg true 15 0 0 0) ∧
    Ready (head .c (.qcfg false 15 61440 4096 1)) 0 .c (.qcfg false 15 61440 4096 1) ∧
    fqReady core0 0 < 64 ∧ 1 ≤ fqReady (fqCore (ring [req 32 true])) 0 ∧
    0 < pqBusy (pqCore [preq .mesh false]) 0 ∧ pqBusy (pqCore [preq .mesh false]) 0 ≤ 1 ∧ (pqOf (pqCore [preq .mesh false]) 0).reqs ≠ [] ∧
    (pqOf core0 0).reqs = [] ∧ (fqOf (fqCore (ring [req 0 false])) 0).reqs ≠ [] ∧ (fqOf core0 15).reqs = [] ∧
    inFence core0 61440 8192 = false ∧ inFence core0 61440 4096 = true ∧ sameUnit busy 0 0 1 = false ∧ sameUnit busy 0 0 0 = true := by
  unfold Ready; decide

/-- Core 0 runs `k` in partition 0, whose program has a STASH segment and a slot that holds block 1. -/
def stashing (access : Nat) (k : Core) : State :=
  busyWith { part0 with progs := [(0, some { prog0 with segs := [⟨65536, 1, 2, 0⟩, ⟨0x100000, 1, access, 2⟩] })], step := { run := some (0, 0), held := [(0, [1])] } } k
def fetch32 (src : XEnd) : SlotOp := .fetch 0 src ⟨32, 0, 0⟩
def op0 (n : Nat) : Opnd := ⟨n, 0, 0⟩

theorem wit_FetchRequests : Ready (busyWith part0 (headCore .x (fetch32 (.mem (op0 65536))) (fqCore (ring [])))) 0 .x (fetch32 (.mem (op0 65536))) ∧
    Ready (stashing 2 (headCore .x (fetch32 (.stash 0 (op0 65504))) (fqCore (ring [])))) 0 .x (fetch32 (.stash 0 (op0 65504))) ∧
    Ready (withStream (withCore (headCore .x (fetch32 (.stream 0)) (fqCore (ring [])))) in0 {}) 0 .x (fetch32 (.stream 0)) ∧
    Ready (head .x (fetch32 (.remote 0 0))) 0 .x (fetch32 (.remote 0 0)) ∧
    opnd core0 (op0 32) = 32 ∧ fetchLen 31 = false ∧ fetchLen 32 = true ∧ fetchLen 65536 = true ∧
    (ring []).remote = none ∧ round32 32 ≤ (ring []).size ∧ { ring [] with remote := some 0 }.remote.isSome = true ∧ ({} : FQ).size < round32 32 ∧
    memEnd busy 0 65536 32 false = .sas [(65536, 32)] ∧ memEnd busy 0 131072 32 false = .fault 0xA03 ∧ stashForm (stashing 2 core0) 0 1 0 32 true = .fault 0xB04 ∧
    stashForm (stashing 1 core0) 0 0 65504 32 true = .fault 0xA03 ∧ (∃ l, stashForm (stashing 1 core0) 0 0 65504 32 false = .sas l) ∧
    fqRoom (ring []) 4096 = true ∧ fqRoom (ring [req 0 false]) 4096 = false ∧ fqRoom (ring [req 0 false]) 32 = true ∧
    coreStream inStream 0 0 false = true ∧ coreStream inStream 0 16 false = false ∧ (ctxUse inStream 0).isSome = true := by
  unfold Ready
  refine ⟨?_, ?_, ?_, ?_, ?_, ?_, ?_, ?_, ?_, ?_, ?_, ?_, ?_, ?_, ?_, ?_, ⟨_, rfl⟩, ?_, ?_, ?_, ?_, ?_, ?_⟩ <;> decide +kernel

/-- The one context is pinned by accepted work of another stream. -/
def noCtx : State :=
  { inStream with stm := { inStream.stm with capacity := 1, ctxs := [(1, some ⟨{ in0 with accepted := 1 }, .valid, false, 0⟩)] } }

theorem wit_FetchRequests_wait : ctxUse noCtx 0 = none := by decide +kernel

def put1 (n : Nat) (dst : XEnd) : SlotOp := .put 0 (op0 n) dst (op0 1)
/-- A producer that feeds queue 0 of its own core. -/
def fedBy (m : Option Nat) (size : Nat) : State := busyWith part0 { core0 with fq := [(0, { size := size, remote := m })] }
def twoUnits : State := busyWith { part0 with progs := [(0, some { prog0 with vcores := [vcore0, { vcore0 with unit := 1, phys := 1 }] })] } core0

theorem wit_PutRequests : Ready (busyWith part0 (headCore .x (put1 65535 (.mem (op0 131071))) core0)) 0 .x (put1 65535 (.mem (op0 131071))) ∧
    Ready (stashing 2 (headCore .x (put1 0 (.stash 0 (op0 65535))) core0)) 0 .x (put1 0 (.stash 0 (op0 65535))) ∧
    Ready (withStream (withCore (headCore .x (put1 0 (.stream 0)) core0)) out0 {}) 0 .x (put1 0 (.stream 0)) ∧
    putFault busy 0 0 2 (.mem (op0 131071)) = some 0xA03 ∧ putFault busy 0 0 1 (.mem (op0 131071)) = none ∧
    putFault (stashing 2 core0) 0 0 1 (.stash 1 (op0 0)) = some 0xB04 ∧ putFault (stashing 2 core0) 0 0 1 (.stash 0 (op0 65535)) = none ∧
    putFault (outStream []) 0 0 1 (.stream 0) = none ∧ putFault (outStream []) 0 0 1 (.stream 16) = some 0xA04 ∧
    putFault busy 0 0 1 (.remote 1 0) = some 0xA07 ∧ putFault twoUnits 0 0 1 (.remote 1 0) = some 0xA07 ∧
    putFault (fedBy none 32) 0 0 1 (.remote 0 0) = some 0xA04 ∧ putFault (fedBy (some 0) 0) 0 0 1 (.remote 0 0) = some 0xA04 ∧
    putFault (fedBy (some 0) 32) 0 0 32 (.remote 0 0) = none ∧
    chkAccs core0 .x [rd 65536 1] = .fault 0xA02 ∧ chkAccs hazCore .x [rd 0 32] = .stall ∧ chkAccs core0 .x [rd 65535 1] = .ok ∧
    64 ≤ (pqOf (pqCore (List.replicate 64 (preq .mesh false))) 0).reqs.length ∧ (pqOf (pqCore (List.replicate 63 (preq .mesh false))) 0).reqs.length < 64 ∧
    (∃ l, memEnd busy 0 131071 1 true = .sas l) ∧ (∃ l, stashForm (stashing 2 core0) 0 0 65535 1 true = .sas l) := by
  unfold Ready
  refine ⟨?_, ?_, ?_, ?_, ?_, ?_, ?_, ?_, ?_, ?_, ?_, ?_, ?_, ?_, ?_, ?_, ?_, ?_, ?_, ⟨_, rfl⟩, ⟨_, rfl⟩⟩ <;> decide +kernel

theorem wit_PopReleases : Ready (head .x (.pop 0 1)) 0 .x (.pop 0 1) ∧ ((ring [{ req 32 true with taken := 1 }]).reqs.take 1).any (fun r => r.taken != 0) = true ∧
    ((ring [req 32 true]).reqs.take 1).any (fun r => r.taken != 0) = false ∧ fqReady (fqCore (ring [req 32 true])) 0 < 2 ∧
    1 ≤ fqReady (fqCore (ring [req 32 true])) 0 ∧ (ring [req 32 true]).remote = none := by
  unfold Ready; decide

theorem wit_LightMoves : Ready (head .x (.lmove (.gr 31) (.store (op0 0)) 8)) 0 .x (.lmove (.gr 31) (.store (op0 0)) 8) ∧ lBad (.gr 31) 9 = true ∧ lBad (.gr 31) 8 = false ∧
    lBad (.store (op0 0)) 64 = false ∧ lBad (.vr 15 961) 64 = true ∧ lBad (.vr 15 960) 64 = false ∧
    chkAccs core0 .x [rd 65530 8] = .fault 0xA02 ∧ chkAccs hazCore .x [wr 0 8] = .stall ∧ chkAccs core0 .x [wr 65528 8] = .ok := by
  unfold Ready; decide +kernel

def atom4 (fq : Option (Fin 16)) : SlotOp := .atom .add .fp32 (op0 0x80000FFFC) (op0 65532) 4 fq

theorem wit_AtomRequests : Ready (sharing (headCore .x (atom4 none) core0)) 0 .x (atom4 none) ∧ Ready (sharing (headCore .x (atom4 (some 0)) (fqCore (ring [])))) 0 .x (atom4 (some 0)) ∧
    memEnd (sharing core0) 0 0x800010000 4 true = .fault 0xA03 ∧
    (∃ l, memEnd (sharing core0) 0 0x80000FFFC 4 true = .sas l) ∧ atomOk (sharing core0) 0 .add .bf16 0x80000FFFC 2 none = false ∧
    atomOk (sharing core0) 0 .add .fp32 0x80000FFFC 4 none = true ∧ atomOk (sharing core0) 0 .cas .word32 0x80000FFFC 4 (some 0) = true ∧
    chkAccs core0 .x [rd 65533 4] = .fault 0xA02 ∧ chkAccs hazCore .x [rd 60 4] = .stall ∧ chkAccs core0 .x [rd 65532 4] = .ok ∧
    ({} : FQ).size < round32 4 ∧ (ring []).remote = none ∧ round32 4 ≤ (ring []).size ∧ fqRoom (ring (List.replicate 64 (req 0 false))) 4 = false ∧
    fqRoom (ring []) 4 = true := by
  unfold Ready
  refine ⟨?_, ?_, ?_, ⟨_, rfl⟩, ?_, ?_, ?_, ?_, ?_, ?_, ?_, ?_, ?_, ?_, ?_⟩ <;> decide +kernel

def sreq : FReq := { req 0 false with stream := some 0 }
def landedIn (p : Bool) (j : Jrn) : State :=
  let s := withStream (withCore (fqCore (ring [sreq]))) in0 { flights := [{ idx := 0, desc := ⟨0, 0, 32, 0, 0, 0⟩, del := 32, landed := true }], jrn := j }
  { s with stack := { s.stack with poison := if p then [(0, true)] else [] } }

theorem wit_FetchesArrive : onDie running = true ∧ isFused running 0 = false ∧ coreFaulted (withCore { core0 with run := .fault }) 0 = true ∧ coreFaulted running 0 = false ∧
    (ring [req 31 false]).reqs.find? (fun x => !x.arrived) = some (req 31 false) ∧ (req 31 false).got ≠ (req 31 false).len ∧
    (req 32 false).got = (req 32 false).len ∧ (req 32 false).stream = none ∧ { req 32 false with poison := some 0x803 }.poison = some 0x803 ∧
    (getCtx (landedIn false {}) 0).isSome = true ∧ (fqOf (getCore (landedIn false {}) 0) 0).reqs.find? (fun x => !x.arrived) = some sreq ∧
    (getRt (landedIn false { writing := true }) 0).jrn.writing = true ∧ streamAvail inStream 0 < 32 ∧
    (getRt (landedIn false {}) 0).jrn.writing = false ∧ (0, 0, 0) ∉ (getRt (landedIn false {}) 0).cons ∧ 32 ≤ streamAvail (landedIn false {}) 0 ∧
    (streamTake (landedIn true {}) 0 32).2.1 = true ∧ (streamTake (landedIn false {}) 0 32).2.1 = false := by
  decide +kernel

theorem wit_PutsComplete : onDie running = true ∧ isFused running 0 = false ∧
    (pqOf (getCore (withCore (pqCore [preq .mesh true])) 0) 0).reqs[0]? = some (preq .mesh true) ∧ (preq .mesh true).waiting = true ∧
    putBusy { running with mesh := [(0, { core := 0, put := true, q := 0, id := 0, off := 0, len := 32 })] } 0 0 0 = true ∧ putBusy running 0 0 0 = false ∧
    (preq .mesh false).dst ≠ .unnamed ∧ (∀ idx, (preq .mesh false).dst ≠ .stream idx) ∧ (∀ idx, (preq .unnamed true).dst ≠ .stream idx) ∧
    (let s := outStream [preq (.stream 0) false]
     let e := entryOf s 0
     (pqOf (getCore s 0) 0).reqs[0]? = some (preq (.stream 0) false) ∧ ¬ 2 ^ e.log2 ≤ sub32 e.producer e.completed ∧ eClosed e = false ∧
     eEnabled e = true ∧ recBusy s = false ∧ firstPut s 0 0 0 = some (preq (.stream 0) false) ∧ (ctxUse s 0).isSome = true ∧
     (ringDesc s 0 e e.producer []).len < 32 ∧ 32 ≤ (ringDesc s 0 e e.producer (descBytes ⟨0, 0, 32, 0, 0, 0⟩)).len) ∧
    2 ^ 4 ≤ sub32 16 0 ∧ eClosed { out0 with flags := 139 } = true ∧ eEnabled { out0 with flags := 10 } = false ∧ ctxUse noCtx 0 = none := by
  refine ⟨?_, ?_, ?_, ?_, ?_, ?_, ?_, ?_, ?_, ?_, ?_, ?_, ?_, ?_⟩ <;> first | decide +kernel | (intro i h; cases h)

theorem wit_PendingRegistersHold : slotUse (.add 0 1 2 (.reg 3)) = some (0, .c, .add 1 2 (.reg 3)) ∧ coreRuns up 0 = false ∧
    atHead core0 .c (.add 1 2 (.reg 3)) = false ∧
    (let k := { headCore .c (.add 1 2 (.reg 3)) core0 with apend := [.gr 3] }
     coreRuns (withCore k) 0 = true ∧ atHead k .c (.add 1 2 (.reg 3)) = true ∧ regHaz k .c (.add 1 2 (.reg 3)) = true) := by
  refine ⟨rfl, ?_, ?_, ?_, ?_, ?_⟩ <;> decide +kernel

def f32 : VFmts := ⟨.fp32, .fp32, .fp32, .fp32⟩
/-- The V slot of core 0 has an instruction at its head. -/
def vHead (op : SlotOp) : State := head .v op

theorem wit_VectorLanes : Ready (vHead (.vadd f32 0 1 15)) 0 .v (.vadd f32 0 1 15) ∧ Ready (vHead (.vmul f32 0 1 15)) 0 .v (.vmul f32 0 1 15) ∧
    Ready (vHead (.vmin f32 0 1 15)) 0 .v (.vmin f32 0 1 15) ∧ Ready (vHead (.vmax f32 0 1 15)) 0 .v (.vmax f32 0 1 15) ∧
    Ready (vHead (.vcmp f32 .lt 0 1 15)) 0 .v (.vcmp f32 .lt 0 1 15) ∧ Ready (vHead (.vfma f32 0 1 2 15)) 0 .v (.vfma f32 0 1 2 15) ∧
    Ready (vHead (.vsel ⟨.bf16, .fp32, .fp16, .fp32⟩ 0 1 2 15)) 0 .v (.vsel ⟨.bf16, .fp32, .fp16, .fp32⟩ 0 1 2 15) ∧
    NoTrap running 0 [⟨0, true, false, false⟩] ∧ trapCode { core0 with trap := 1 }.trap (resFlags [⟨0, true, false, false⟩]) = some 0x401 := by
  unfold Ready; refine ⟨?_, ?_, ?_, ?_, ?_, ?_, ?_, rfl, rfl⟩ <;> decide +kernel

theorem wit_VectorFunctions : Ready (vHead (.vsfn .div 0 1 15)) 0 .v (.vsfn .div 0 1 15) ∧ Ready (vHead (.vred .fp32 .add 0 15 1)) 0 .v (.vred .fp32 .add 0 15 1) ∧
    16 < (15 : Fin 16).val + 2 ∧ (15 : Fin 16).val + 1 ≤ 16 ∧ NoTrap running 0 [⟨0, false, true, false⟩] ∧
    trapCode { core0 with trap := 2 }.trap (resFlags [⟨0, false, true, false⟩]) = some 0x402 ∧
    trapCode { core0 with trap := 16 }.trap (resFlags [⟨0, false, false, true⟩]) = some 0x405 := by
  unfold Ready; refine ⟨?_, ?_, ?_, ?_, rfl, rfl, rfl⟩ <;> decide +kernel

theorem wit_VectorMemory : Ready (vHead (.vld 15 (op0 65280) (op0 0) (.plain .bs8) .fp32)) 0 .v (.vld 15 (op0 65280) (op0 0) (.plain .bs8) .fp32) ∧
    Ready (vHead (.vld 15 (op0 0) (op0 0) .slope .fp32)) 0 .v (.vld 15 (op0 0) (op0 0) .slope .fp32) ∧
    Ready (vHead (.vst 15 (op0 65280) (op0 0) .bs8 .fp32 .plain)) 0 .v (.vst 15 (op0 65280) (op0 0) .bs8 .fp32 .plain) ∧
    Ready (vHead (.vst 15 (op0 0) (op0 0) .bs4 .fp32 .slopeSilu)) 0 .v (.vst 15 (op0 0) (op0 0) .bs4 .fp32 .slopeSilu) ∧
    Ready (vHead (.vstat 15)) 0 .v (.vstat 15) ∧ vldLegal .fp32 .fp16 = false ∧ vldLegal .bs8 .fp32 = true ∧
    chkAccs core0 .v (vldAccs core0 (op0 65281) (op0 0) (.plain .bs8) 256) = .fault 0xA02 ∧
    chkAccs hazCore .v (vldAccs hazCore (op0 0) (op0 64) (.plain .bs8) 256) = .stall ∧
    chkAccs core0 .v (vldAccs core0 (op0 65280) (op0 0) (.plain .bs8) 256) = .ok ∧ chkAccs core0 .v (vldAccs core0 (op0 0) (op0 0) .slope 256) = .ok ∧
    chkAccs core0 .v (vstAccs core0 (op0 65281) (op0 0) .bs8 .plain 256) = .fault 0xA02 ∧
    chkAccs hazCore .v (vstAccs hazCore (op0 0) (op0 0) .bs4 .slopeGelu 256) = .stall ∧
    chkAccs core0 .v (vstAccs core0 (op0 65408) (op0 0) .bs4 .slopeSilu 256) = .ok ∧ chkAccs core0 .v (vstAccs core0 (op0 65280) (op0 0) .bs8 .plain 256) = .ok := by
  unfold Ready; decide +kernel

/-- Core store that holds bytes from an offset on. -/
def storing (off : Nat) (bs : List Byte) (k : Core) : Core := { k with store := bs.zipIdx.filterMap (fun b => if b.1 = 0 then none else some (off + b.2, b.1)) }
/-- Bytes of a matrix-vector descriptor: one row of 64 E4M3 elements, one vector at `vec`, FP32 out at 4096. -/
def mvBs (mode depth vec : Nat) : List Byte :=
  natLe mode 1 ++ natLe 3 1 ++ natLe 1 1 ++ natLe 0 1 ++ natLe 1 1 ++ natLe 1 1 ++ natLe 8 1 ++ [0] ++ natLe 1 4 ++ natLe depth 4 ++ natLe 1024 4 ++ natLe 0 4 ++
    natLe vec 4 ++ natLe 0 4 ++ natLe 4096 4 ++ natLe 0 4 ++ natLe 0 8
def mvDesc (mode depth vec : Nat) : MvDesc := mvParse (mvBs mode depth vec)
def mvCore (mode depth vec : Nat) : Core := headCore .m (.mv (op0 8192) 15) (storing 8192 (mvBs mode depth vec) core0)
def mvOp (mode : Nat) (mat : List Byte) : MvOp := { desc := mvDesc mode 64 0, st := 0, grad := none, vecs := [List.replicate 64 0], mat := mat, bundle := 0 }

theorem wit_MatVecStarts : Ready (withCore (mvCore 0 64 0)) 0 .m (.mv (op0 8192) 15) ∧ Ready (withCore (mvCore 0 63 0)) 0 .m (.mv (op0 8192) 15) ∧
    Ready (withCore (mvCore 4 64 0)) 0 .m (.mv (op0 8192) 15) ∧
    chkAccs core0 .m [rd 65489 mvBytes] = .fault 0xA02 ∧ chkAccs hazCore .m [rd 0 mvBytes] = .stall ∧ chkAccs (mvCore 0 64 0) .m [rd 8192 mvBytes] = .ok ∧
    mvParse (csRead (mvCore 0 64 0) 8192 mvBytes) = mvDesc 0 64 0 ∧ mvLegal (mvDesc 0 63 0) = false ∧ mvLegal (mvDesc 0 64 0) = true ∧ mvLegal (mvDesc 4 64 0) = true ∧
    (getCore (withCore { core0 with mv := some (mvOp 0 []) }) 0).mv ≠ none ∧ (getCore running 0).mv = none ∧
    chkAccs core0 .m (mvAccs (mvDesc 0 64 65473)) = .fault 0xA02 ∧ chkAccs hazCore .m (mvAccs (mvDesc 0 64 0)) = .stall ∧
    chkAccs core0 .m (mvAccs (mvDesc 0 64 0)) = .ok ∧ chkAccs core0 .m (mvAccs (mvDesc 4 64 0)) = .ok := by
  unfold Ready; decide +kernel

theorem wit_MatVecEnds : onDie running = true ∧ (getCore running 0).mv = none ∧
    (getCore (withCore { core0 with run := .fault, mv := some (mvOp 0 []) }) 0).run = .fault ∧ core0.run ≠ .fault ∧
    (mvOp 4 []).desc.src = .queue 0 ∧ (mvOp 4 (List.replicate 63 0)).mat.length < mvMatBytes (mvOp 4 []).desc ∧
    mvMatBytes (mvOp 0 []).desc ≤ (mvOp 0 (List.replicate 64 0)).mat.length ∧ (mvOp 2 []).desc.cont = true ∧
    (mvOp 0 []).desc.cont = false ∧ trapCode core0.trap (wordFlags 15) = none ∧ trapCode 8 (wordFlags 15) = some 0x404 := by
  decide +kernel

def tile0 : Tile := { fmt := .e4m3, depth := 0, rows := [], scales := [], map := ⟨0, 1, [some (1, 0)]⟩ }
/-- Array 0 of core 0 is `x`, and `k` the core. -/
def withArr (x : Arr) (k : Core) : State := { withCore k with arrs := [(0, x)] }
def lds0 (src : Src) : SlotOp := .lds src 0 .e4m3 (op0 0) (op0 0) 1 false
/-- A core whose mask byte at offset 0 names one row of a group. -/
def maskCore : Core := storing 0 [1] core0

theorem wit_TilesLoadAndSwap : Ready (head .a0 (lds0 (.store (op0 64)))) 0 .a0 (lds0 (.store (op0 64))) ∧ Ready (head .a1 (lds0 (.queue 0))) 0 .a1 (lds0 (.queue 0)) ∧
    Ready (head .a0 .swap) 0 .a0 .swap ∧ ldsLegal 2 .bs4 1 = false ∧ ldsLegal 0 .fp32 1 = false ∧ ldsLegal 3 .e4m3 64 = true ∧
    (getArr (withArr { sh := .loaded } core0) (arrOf 0 0)).sh ≠ .free ∧ (getArr running (arrOf 0 0)).sh = .free ∧
    validGroups [1] = ([(1, 0)], none) ∧
    chkAccs core0 .a0 (rd 65536 1 :: ldsAccs 0 0 1 0 .e4m3 [0]) = .fault 0xA02 ∧
    chkAccs hazCore .a0 (rd 64 1 :: ldsAccs 0 0 1 0 .e4m3 [1]) = .stall ∧
    chkAccs maskCore .a0 (rd 0 1 :: ldsAccs 64 0 1 0 .e4m3 [1]) = .ok ∧ chkAccs core0 .a0 [rd 0 1] = .ok ∧
    fqAvail (fqOf core0 0) < 1 * 8 * (96 + 0) ∧ 1 * 8 * (96 + 0) ≤ fqAvail (ring [{ req 768 true with len := 768 }]) ∧
    onDie running = true ∧ (getArr (withArr { sh := .loading, shadow := some tile0 } core0) (arrOf 0 0)).sh = .loading ∧
    { core0 with run := .fault }.run = .fault ∧
    mapClash { shadow := some tile0, sh := .loaded, groups := [(7, { st := .open_, map := some ⟨8, 1, [some (1, 0)]⟩ })] } (some tile0) = true ∧
    mapClash { shadow := some tile0, sh := .loaded, groups := [(7, { st := .open_, map := some tile0.map })] } (some tile0) = false := by
  unfold Ready; decide +kernel

def col0 (src : Src) : SlotOp := .col 0 src 1 0 .e4m3 true false

theorem wit_ColumnTilesAndSplit : Ready (head .a0 (col0 (.store (op0 65344)))) 0 .a0 (col0 (.store (op0 65344))) ∧
    Ready (head .a1 (col0 (.queue 0))) 0 .a1 (col0 (.queue 0)) ∧ Ready (head .a0 (.spl 3)) 0 .a0 (.spl 3) ∧
    grpClosed {} 7 = true ∧ (getGroup {} 7).st ≠ .open_ ∧
    (getGroup { groups := [(7, { st := .open_ })] } 7).st = .open_ ∧ splitGroups 0 ≤ 1 ∧ ¬ splitGroups 3 ≤ 7 ∧
    splitEntries 0 < 1023 + 2 ∧ ¬ splitEntries 0 < 1022 + 2 ∧ colsPerCycle (activeTile {} .e4m3).fmt .e4m3 = 2 ∧
    (activeTile { active := some { tile0 with depth := 2 } } .bs8).depth = 2 ∧ fIsBlock .bs8 = true ∧ (activeTile {} .bs8).depth ≠ 2 ∧
    chkAccs core0 .a0 [rd 65345 (colBytes .e4m3 2)] = .fault 0xA02 ∧ chkAccs hazCore .a0 [rd 0 (colBytes .e4m3 2)] = .stall ∧
    chkAccs core0 .a0 [rd 65344 (colBytes .e4m3 2)] = .ok ∧
    fqAvail (fqOf core0 0) < colBytes .e4m3 2 ∧ colBytes .e4m3 2 ≤ fqAvail (ring [{ req 192 true with len := 192 }]) ∧
    grpClosed { groups := [(7, { st := .done })] } 7 = false ∧ (∀ h, h < 8 → grpClosed {} h = true) := by
  unfold Ready; decide +kernel

def pre1 (src : Src) : SlotOp := .pre 0 src 1 .fp32

theorem wit_Preloads : Ready (head .a0 (pre1 (.store (op0 65152)))) 0 .a0 (pre1 (.store (op0 65152))) ∧ Ready (head .a1 (pre1 (.queue 0))) 0 .a1 (pre1 (.queue 0)) ∧
    { ({} : Arr) with split := 1 }.split ≠ 0 ∧ grpClosed { groups := [(0, { st := .done })] } 0 = false ∧
    grpClosed {} 0 = true ∧ ({} : Arr).split = 0 ∧ (¬ ((Fmt.fp32 ≠ .fp32 ∧ Fmt.fp32 ≠ .bf16) ∨ 1 = 0 ∨ 1024 < 1 ∨ (0 : Fin 8) ≠ 0)) ∧
    ({ ({} : Arr) with wb := some ⟨0, .store 0, .fp32, 0, none, 0⟩ }).wb ≠ none ∧ ({} : Arr).wb = none ∧ ({} : Arr).pre = none ∧
    chkAccs core0 .a0 [rd 65153 (96 * rowBytes .fp32 1)] = .fault 0xA02 ∧ chkAccs hazCore .a0 [rd 0 (96 * rowBytes .fp32 1)] = .stall ∧
    chkAccs core0 .a0 [rd 65152 (96 * rowBytes .fp32 1)] = .ok ∧ fqAvail (fqOf core0 0) < 96 * rowBytes .fp32 1 ∧
    96 * rowBytes .fp32 1 ≤ fqAvail (ring [{ req 384 true with len := 384 }]) ∧ onDie running = true ∧
    { ({} : Arr) with pre := some ⟨0, [[]]⟩ }.pre = some ⟨0, [[]]⟩ ∧ { core0 with run := .fault }.run = .fault := by
  unfold Ready; decide +kernel

theorem wit_WriteBacks : Ready (head .a0 (.wb 0 (.store 31) .fp32 15)) 0 .a0 (.wb 0 (.store 31) .fp32 15) ∧
    Ready (head .a1 (.wb 0 (.queue 15) .fp32 0)) 0 .a1 (.wb 0 (.queue 15) .fp32 0) ∧ (getGroup {} 0).st ≠ .done ∧
    (let x : Arr := { groups := [(0, { st := .done, used := 1, map := some ⟨0, 1, some (1, 0) :: List.replicate 11 none⟩ })] }
     (getGroup x 0).st = .done ∧ x.wb = none ∧ x.pre = none ∧ chkAccs core0 .a0 (wbAccs (getGroup x 0) 65533 .fp32) = .fault 0xA02 ∧
     chkAccs hazCore .a0 (wbAccs (getGroup x 0) 0 .fp32) = .stall ∧ chkAccs core0 .a0 (wbAccs (getGroup x 0) 65532 .fp32) = .ok) ∧
    chkAccs core0 .a0 [] = .ok ∧ onDie running = true ∧ core0.run ≠ .fault ∧ trapCode core0.trap (wordFlags 1) = none ∧ trapCode 1 (wordFlags 1) = some 0x401 := by
  unfold Ready; decide +kernel

/-- A descriptor of one Bow of one slice over a tile of 96 by 96 E4M3, from fetch queue 0. -/
def bow0 : Nat := 2 ^ 88 + 2 ^ 84 + 2 ^ 83 + 2 ^ 82
/-- The same as a sum Bow of one row. -/
def sum0 : Nat := bow0 + 2 ^ 95 + 2 ^ 79 + 2 ^ 64
def bowCore (d : Nat) : Core := headCore .a0 (.bow (op0 0) 15) (storing 0 (natLe d 16) core0)

theorem wit_BowsEnterTheNut : Ready (withCore (bowCore bow0)) 0 .a0 (.bow (op0 0) 15) ∧ Ready (withCore (bowCore (bow0 + 2 ^ 127))) 0 .a0 (.bow (op0 0) 15) ∧
    chkAccs core0 .a0 [rd 65536 16] = .fault 0xA02 ∧ chkAccs hazCore .a0 [rd 48 16] = .stall ∧
    chkAccs core0 .a0 [rd 65520 16] = .ok ∧ fretOf running (arrOf 1 0) = none ∧ fretOf running (arrOf 0 0) = some (0, 0) ∧
    (∃ g, strGeom running 0 = some g ∧ g.frets.headD 512 / 2 = 0) ∧ partOfStr running 0 = partOfCore running 0 ∧
    ¬ (∃ g, strGeom { running with tun := { running.tun with geom := [{ geom0 with frets := [2, 0] }] } } 0 = some g ∧ g.frets.headD 512 / 2 = 0) ∧
    bowInvalid (bow0 + 2 ^ 127) = true ∧ bowInvalid bow0 = false ∧ bowInvalid sum0 = false ∧ leNat (csRead (bowCore bow0) 0 16) = bow0 := by
  unfold Ready
  refine ⟨?_, ?_, ?_, ?_, ?_, ?_, ?_, ⟨geom0, ?_⟩, ?_, ?_, ?_, ?_, ?_, ?_⟩ <;> first | decide +kernel | (rintro ⟨g, h, h'⟩; cases h; revert h'; decide +kernel)

def bowEnt (d : Nat) : BowEnt := ⟨d, 0, 0, 0, 0, 0⟩
def loadedArr : Arr := { shadow := some tile0, sh := .loaded }
def withStr (x : Str) (a : Arr) (f : FQ) : State := { withCore (fqCore f) with strs := [(0, x)], arrs := [(0, a), (1, a)] }
def slices (n : Nat) : FQ := ring [{ req n true with len := n }]
/-- Core 0 has been quarantined since the structure was laid. -/
def lostCore (s : State) : State := { s with flash := { s.flash with quarantine := [0] } }

theorem wit_BowsIssueSlices : onDie running = true ∧ halting running = false ∧ (strGeom running 0).isSome = true ∧ (getStr running 0).run ≠ .fault ∧
    (getStr running 0).cur = none ∧ (getStr running 0).waiting = [] ∧ bowSum bow0 = false ∧ bowSum sum0 = true ∧ 0 < bowSlices bow0 ∧
    bowCheck (withStr {} {} (ring [])) 0 bow0 [bowBase bow0 + 1] = .wait 1 ∧ bowCheck (withStr {} loadedArr (ring [])) 0 bow0 [bowBase bow0 + 1] = .go ∧
    bowCheck (withStr {} { loadedArr with split := 1 } (ring [])) 0 bow0 [bowBase bow0 + 1] = .fault 0 ∧
    (enterFrets (withStr {} loadedArr (ring [])) bow0 0 [(0, 0), (1, 1)]).2 = none ∧
    nutCheck (withStr {} { loadedArr with split := 1 } (ring [])) 0 bow0 = .fault 0 ∧ nutCheck (withStr {} {} (ring [])) 0 bow0 = .wait 1 ∧
    nutCheck (withStr {} loadedArr (ring [])) 0 bow0 = .go ∧ nutCheck (withStr {} {} (ring [])) 0 sum0 = .go ∧
    firstLost (withStr {} {} (ring [])) 0 = none ∧ firstLost (lostCore (withStr {} {} (ring []))) 0 = some 0 ∧
    (enterFrets (lostCore (withStr {} loadedArr (ring []))) bow0 0 [(0, 0), (1, 1)]).2 = some (0xA20, 0) ∧
    fqAvail (fqOf (getCore (withStr {} loadedArr (ring [])) 0) (bowFq bow0)) < bowSliceBytes bow0 ∧
    bowSliceBytes bow0 ≤ fqAvail (slices 192) := by
  decide +kernel

theorem wit_GroupsFinish : onDie running = true ∧ (getGroup {} 7).st ≠ .open_ ∧
    (getGroup { groups := [(7, { st := .open_, closing := true })] } 7).st = .open_ ∧ (getGroup { groups := [(7, { st := .open_, closing := true })] } 7).closing = true ∧
    (getStr (withStr { cur := some ⟨bowEnt sum0, 0, 0, true⟩ } {} (ring [])) 0).cur = some ⟨bowEnt sum0, 0, 0, true⟩ ∧
    (¬ ∀ a ∈ fretsOf running 0, (getGroup (getArr running a) 0).st = .done) ∧
    (∀ a ∈ fretsOf running 0, (getGroup (getArr (withStr {} { groups := [(0, { st := .done })] } (ring [])) a) 0).st = .done) ∧
    { core0 with run := .fault }.run = .fault ∧ trapCode core0.trap (wordFlags 2) = none ∧ core0.run ≠ .fault ∧ trapCode 2 (wordFlags 2) = some 0x402 := by
  decide +kernel

theorem wit_StringFaults : onDie running = true ∧ fretOf running 2 = none ∧ fretOf running 1 = some (0, 1) ∧ mayWrite running 0 (R.STR_FAULT 0) = true ∧
    (strGeom running 0).isSome = true := by
  decide +kernel

/-! ## Tuning, features and programs -/

/-- A Tuning image without records, and one that asks for a drone floor. -/
def img0 : List Byte := natLe 0x454E5554 4 ++ natLe 1 2 ++ natLe 64 2 ++ natLe 64 4 ++ natLe 0 52
def img1 : List Byte := natLe 0x454E5554 4 ++ natLe 1 2 ++ natLe 64 2 ++ natLe 80 4 ++ natLe 1 4 ++ natLe 0 48 ++ natLe 3 2 ++ natLe 1 2 ++ natLe 8 4 ++ natLe 20 8
def withLen (n : W64) (s : State) : State := { s with regs := tput s.regs R.TUN_IMAGE_LEN n }

theorem wit_TuningLoads : (16 : Fin 18) ≠ 0 ∧ mayWrite up 0 R.TUN_CTRL = true ∧ tunBusy { up with regs := [(R.TUN_STATUS, 3)] } = true ∧ tunBusy up = false ∧
    coreNow State.reset = false ∧ coreNow up = true ∧
    img0.take (min 1048576 (getReg (withLen 64 up) R.TUN_IMAGE_LEN).toNat) = img0 ∧ (parseImage []).bad = true ∧ (parseImage img0).bad = false ∧
    notIdle up (clampImage (clampEnv up) (parseImage img0).recs).1 = false ∧ notIdle busy (clampImage (clampEnv busy) (parseImage img0).recs).1 = true := by
  decide +kernel

theorem wit_TuningLoads_fence :
    let s := { up with stack := { up.stack with cols := [(63, { fenced := true })] } }
    anyFenced s = true ∧ (parseImage img1).bad = false ∧ (clampImage (clampEnv s) (parseImage img1).recs).1 ≠ defaultTuning s.part.grade (clampEnv s).disabled ∧
    anyFenced up = false ∧ changedParts 1 up.tun.cur (clampImage (clampEnv up) (parseImage img0).recs).1 ≠ [] ∧ changedParts 1 up.tun.cur up.tun.cur = [] := by
  decide +kernel

theorem wit_ZeroiseEnds : fld (getReg up R.TUN_STATUS) 1 0 ≠ 3 ∧ fld (getReg { up with regs := [(R.TUN_STATUS, 3)] } R.TUN_STATUS) 1 0 = 3 ∧ fwUp up = true ∧
    fwUp State.reset = false ∧ up.tun.jobs = [] := by
  decide +kernel

def claims (l : List Claim) : State := { up with tun := { up.tun with runtime := l } }

theorem wit_FeaturesClaim : fwUp up = true ∧ featCan 1 1 = false ∧ featCan 7 9 = true ∧ featPart 7 = true ∧ partCount up ≤ 1 ∧ 0 < partCount up ∧
    ownerOf (claims [⟨9, claimValue 7 9 0⟩]) 9 = some (claimValue 7 9 0, 2) ∧ claimFeat (claimValue 7 9 0) = 7 ∧ claimFeat (claimValue 8 9 0) ≠ 7 ∧
    ownerOf up 9 = none ∧ (∃ c ∈ (claims [⟨9, claimValue 7 9 0⟩]).tun.runtime, c.res = 9 ∧ claimFeat c.value = 7) ∧
    ¬ (∃ c ∈ up.tun.runtime, c.res = 9 ∧ claimFeat c.value = 7) := by
  decide +kernel

def endCore : Core := { core0 with ending := true }

theorem wit_ProgramsEnd : coreRuns (withCore endCore) 0 = true ∧ (getCore (withCore endCore) 0).ending = true ∧ (getCore (withCore endCore) 0).ended = false ∧
    core0.ending = false ∧ (¬ ∀ e ∈ (headCore .v (.vstat 0) endCore).uq, e.2 = []) ∧ (∀ e ∈ endCore.uq, e.2 = []) ∧
    queuesEmpty { fqCore (ring [req 0 false]) with ending := true } = false ∧ queuesEmpty endCore = true ∧
    coreAsync { withCore endCore with mesh := [(0, { core := 0, put := true, q := 0, id := 0, off := 0, len := 32 })] } 0 = true ∧
    coreAsync (withCore endCore) 0 = false ∧
    partOfCore { running with tun := { up.tun with cur := { tuning0 with cores := [1#256 <<< 1] } } } 0 = none ∧ partOfCore running 0 = some 0 ∧
    unitOfCore busy 0 0 = some 128 ∧ unitOfCore running 0 0 = none := by
  decide +kernel

def stepping (st : Step) : State := busyWith { part0 with step := st } core0
def step0 : Step := { active := true, run := some (0, 0) }

theorem wit_SlotsComplete : onDie busy = true ∧ curProg up 0 = none ∧ (getPart busy 0).step.run = none ∧ curProg busy 0 = some prog0 ∧
    (getPart (stepping step0) 0).step.run = some (0, 0) ∧ slotOver (stepping step0) 0 prog0 = false ∧
    slotOver (busyWith { part0 with step := step0, units := [(128, { finished := true })] } core0) 0 prog0 = true ∧
    slotEnt prog0 0 = some slot0 ∧ slot0.typ = 1 ∧ slotEnt { prog0 with sched := { sched0 with slots := [{ slot0 with typ := 3 }] } } 0 = some { slot0 with typ := 3 } := by
  decide +kernel

def watched : Prog := { prog0 with watchdog := true, sched := { sched0 with watchdogMs := 1 } }
def at_time (t : Nat) (p : PartSt) : State := { busyWith p core0 with clk := { up.clk with time := t } }

theorem wit_StepsEnd : onDie busy = true ∧
    (let st : Step := { active := true, deadT0 := some 0, waiting := some 0 }
     st.deadT0 = some 0 ∧ st.waiting = some 0 ∧ st.run = none ∧ (at_time 1999999 { part0 with step := st }).clk.time < 0 + 2000000 ∧
     0 + 2000000 ≤ (at_time 2001999 { part0 with step := st }).clk.time ∧ (at_time 2001999 { part0 with step := st }).clk.time < 0 + 2002000 ∧
     0 + 2002000 ≤ (at_time 2002000 { part0 with step := st }).clk.time ∧ stepOpen st = true) ∧
    watchEnd (at_time 0 { part0 with progs := [(0, some watched)], step := step0 }) 0 = some 1000000 ∧ stepOpen step0 = true ∧ watchEnd busy 0 = none ∧
    stepOpen {} = false ∧ curProg busy 0 = some prog0 ∧ stepDone (stepping step0) 0 prog0 = false ∧ stepDone (stepping { step0 with done := [0] }) 0 prog0 = true ∧
    ¬ (∃ e, watchEnd (stepping step0) 0 = some e ∧ e < 0) := by
  refine ⟨?_, ?_, ?_, ?_, ?_, ?_, ?_, ?_, ?_, ?_⟩ <;> first | decide +kernel | (rintro ⟨e, h, h'⟩; omega)

/-- Two tenants that fold on core 0. -/
def folding : Prog := { prog0 with vcores := [{ vcore0 with bundles := 4096 }, { vcore0 with bundles := 4096, tenant := 1 }] }
def folds (x : UnitRun) (k : Core) : State := busyWith { part0 with progs := [(0, some folding)], step := step0, units := [(128, x)] } k

theorem wit_FoldsSwap : onDie (folds {} core0) = true ∧ (getPart (folds {} core0) 0).cur = some 0 ∧ curProg (folds {} core0) 0 = some folding ∧
    (getPart (folds {} core0) 0).step.run ≠ none ∧ 128 ∈ progUnits folding ∧ roundEnded (folds {} { core0 with ended := true }) folding 128 0 = true ∧
    needSwap folding 128 0 = true ∧ ¬ 9 ∈ progUnits folding ∧ (getUnit (folds { swapping := true } core0) 0 128).swapping = true ∧
    0 ∈ unitPhys folding 128 ∧ coreFolds folding 0 = true ∧ (1 ∉ unitPhys folding 128) := by
  decide +kernel

def two : PartSt := { progs := [(0, some prog0), (7, some prog0)], order := [0, 7], cur := some 0 }

theorem wit_ProgramsTimeSlice : onDie busy = true ∧ (getPart (busyWith two core0) 0).cur = some 0 ∧ curProg (busyWith two core0) 0 = some prog0 ∧
    nextProg busy 0 0 = none ∧ two.step.active = false ∧ two.swapTo = none ∧ nextProg (busyWith two core0) 0 0 = some 7 ∧
    (∀ n : Fin 128, (strMask (busyWith two core0) 0).getLsbD n = true → (getStr (busyWith two core0) n).run = .idle ∧
      (getStr (busyWith two core0) n).waiting = [] ∧ strDrained (busyWith two core0) n = true) ∧
    (getPart (busyWith { two with swapTo := some 7 } core0) 0).swapTo = some 7 ∧ tget (fun _ => none) two.progs 7 = some prog0 ∧ halting busy = false ∧
    prog0.unloadReq = false ∧ (getSeal busy (sealKey 0 7)).noPeer = false ∧ (getSeal busy (sealKey 0 7)).copying = false := by
  refine ⟨?_, ?_, ?_, ?_, ?_, ?_, ?_, ?_, ?_, ?_, ?_, ?_, ?_, ?_⟩ <;> decide +kernel

/-- The image of a program of one virtual core with one bundle, no segment and a schedule of one slot. -/
def imgHead : List Byte :=
  natLe 0x47525059 4 ++ natLe 1 2 ++ natLe 0 2 ++ natLe 324 4 ++ natLe 1 2 ++ natLe 0 10 ++ natLe 1 4 ++ natLe 0 4
def imgSecs : List Byte :=
  [(128, 32), (0, 0), (160, 32), (0, 0), (0, 0), (192, 96), (288, 32), (0, 0), (0, 0), (320, 4), (0, 0), (0, 0)].flatMap (fun x => natLe x.1 4 ++ natLe x.2 4)
def imgCore : List Byte := natLe 0 4 ++ natLe 1 2 ++ natLe 0xFF 1 ++ natLe 0 1 ++ natLe 65536 4 ++ natLe 65536 4 ++ natLe 0 16
def imgSched : List Byte := natLe 0x48435354 4 ++ natLe 1 2 ++ natLe 1 1 ++ natLe 1 1 ++ natLe 1 2 ++ natLe 0 2 ++ natLe 1 2 ++ natLe 0 50
def imgSlot : List Byte := natLe 1 6 ++ natLe 1 2 ++ natLe 0 6 ++ natLe 0xFFFF 2 ++ natLe 0xFFFFFFFF 4 ++ natLe 0 4 ++ natLe 0xFFFF 2 ++ natLe 0 6
def imgLayer : List Byte := natLe 0 2 ++ natLe 1 30
def image : List Byte := imgHead ++ imgSecs ++ imgCore ++ natLe 0 32 ++ imgSched ++ imgSlot ++ imgLayer ++ natLe 0 4

/-- No power. -/
def dark : State := { State.reset with phase := .off }
def fence63 (s : State) : State := { s with stack := { s.stack with cols := [(63, { fenced := true })] } }
def okB {α : Type} (x : Except Nat α) : Bool := match x with | .ok _ => true | .error _ => false

theorem wit_ProgramCommands :
    partOfCore { up with tun := { up.tun with cur := { tuning0 with cores := [1] } } } 255 = none ∧ partOfCore up 255 = some 0 ∧
    mayWrite dark 0 0x1000100 = false ∧ mayWrite up 0 0x1FF0100 = true ∧ isFused up 255 = false ∧ fld (3 : W64) 1 0 = 3 ∧ replaying up 0 = false ∧
    progCount up 0 = 0 ∧ progCount busy 0 = 1 ∧ up.tun.zeroising = [] ∧
    (∀ q, q < 16 → (getPart up q).loading = none) ∧ (1 : W64).getLsbD 0 = true ∧ (2 : W64).getLsbD 0 = false ∧
    anyFenced up = false ∧ anyFenced (fence63 up) = true ∧ okB (checkImage up 0 0 324 image) = true ∧ okB (checkImage up 0 0 323 image) = false ∧
    tget (fun _ => none) (getPart up 0).progs 7 = none ∧ tget (fun _ => none) (getPart busy 0).progs 0 = some prog0 := by
  decide +kernel

def loading : PartSt := { loading := some (7, prog0) }
def leaving (cur : Option Nat) : PartSt := { progs := [(7, some { prog0 with unloadReq := true })], order := [7], cur := cur }

theorem wit_ProgramsComeAndGo : onDie busy = true ∧ (getPart busy 15).loading = none ∧
    (getPart (busyWith loading core0) 0).loading = some (7, prog0) ∧ loading.cur = none ∧ part0.cur = some 0 ∧
    tget (fun _ => none) part0.progs 7 = none ∧ tget (fun _ => none) part0.progs 0 = some prog0 ∧ prog0.unloadReq = false ∧
    { part0 with step := step0 }.step.active = true ∧ tget (fun _ => none) (leaving (some 7)).progs 7 = some { prog0 with unloadReq := true } ∧
    (leaving (some 7)).step.active = false ∧ (leaving (some 7)).swapTo ≠ some 7 ∧ (leaving none).cur ≠ some 7 ∧ { part0 with swapTo := some 7 }.swapTo = some 7 ∧
    (∀ j, j < 8 → j ≠ 7 → tget (fun _ => none) (leaving (some 7)).progs j = none) ∧ { prog0 with unloadReq := true }.vcores = [vcore0] ∧
    residOf (busyWith { part0 with resid := [(0, some 0)] } core0) 0 0 = some 0 := by
  refine ⟨?_, ?_, ?_, ?_, ?_, ?_, ?_, ?_, ?_, ?_, ?_, ?_, ?_, ?_, ?_, ?_, ?_⟩ <;> decide +kernel

/-! ## The mesh and the stack -/

/-- A request of one sector for partition 0, at `a`. -/
def pkt (typ a : Nat) : Packet := ⟨false, a, 0, 0, 31, typ, 0, 0, 1, 16, List.replicate 32 7⟩
/-- As `up`, with a shared region of 64 MiB. -/
def shares : State := { up with tun := { up.tun with cur := { tuning0 with shared := 1 } } }
def mreq (put : Bool) : MeshReq := { core := 0, put := put, q := 0, id := 0, off := 0, len := 32 }
/-- Two requests of one queue to line 0, whose earlier one has not been served. -/
def inLine : State := { up with mesh := [(tagKey 0 0, { mreq false with line := some 0 }), (tagKey 0 1, { mreq false with line := some 0, ord := 1 })] }
def fused (l : List Nat) (s : State) : State := { s with part := { s.part with fused := l } }
def corePkt (typ tag : Nat) : Packet := { pkt typ 0 with srcEp := 0, srcRouter := 0, tag := tag }
/-- A packet for core `c`. -/
def toCore (typ c : Nat) : Packet := { pkt typ 0 with dstEp := 0, dstRouter := c }

theorem wit_MeshReachesTheStack : onDie up = true ∧ pkLen (pkt 0 0) = 32 ∧ lineTurn inLine (corePkt 0 1) = false ∧ lineTurn inLine (corePkt 0 0) = true ∧
    lineTurn up (pkt 0 0) = true ∧ fusedPort (fused [255] up) (toCore 0 255) = true ∧ fusedPort up (toCore 0 255) = false ∧
    saAllowed up 0 (regionBase up 0 + regionSize up 0 - 31) 32 = false ∧
    saAllowed up 0 (regionBase up 0 + regionSize up 0 - 32) 32 = true ∧ saAllowed up 0 0 32 = true ∧
    saShared up 0 = false ∧ anyFenced up = false ∧ up.stack.errs = [] ∧ saShared shares (windowBase shares 0) = true := by
  decide +kernel

theorem wit_AtomicsUpdateTheSharedRegion : onDie shares = true ∧ lineTurn inLine (corePkt 5 1) = false ∧ lineTurn shares (pkt 5 0) = true ∧
    saAllowed up 0 0 4 = true ∧ saShared up 0 = false ∧
    saAllowed shares 0 (windowBase shares 0 + 252) 4 = true ∧ saShared shares (windowBase shares 0 + 252) = true ∧
    atomLen { pkt 5 0 with len := 3 } .add = 4 ∧ (windowBase shares 0 + 252) % 256 + 4 ≤ 256 ∧ (windowBase shares 0 + 253) % 256 + 4 > 256 ∧
    getLine shares (windowBase shares 0 / 256) = none := by
  decide +kernel

def meshed (m : MeshReq) (f : FQ) : State := { withCore (fqCore f) with mesh := [(tagKey 0 0, m)] }
def resp : Packet := toCore 8 0

theorem wit_ResponsesLand : onDie running = true ∧ resp.dstRouter = 0 ∧ { resp with dstEp := 5 }.dstEp ≠ 0 ∧ meshFind running 0 0 = none ∧
    meshFind (meshed (mreq false) (ring [req 0 false])) 0 0 = some (mreq false) ∧ resp.tag < 1024 ∧ hasCredit running 0 (3, 0) = true ∧
    (fqOf (getCore (meshed (mreq false) (ring [req 0 false])) 0) 0).reqs.find? (fun r => r.id = 0) = some (req 0 false) ∧
    meshFind (meshed (mreq true) (ring [])) 0 0 = some (mreq true) ∧ core0.mwait = [] ∧ { core0 with mwait := [(pkt 0 0, mreq true)] }.mwait = (pkt 0 0, mreq true) :: [] ∧
    coreFaulted (withCore { core0 with run := .fault }) 0 = true ∧ coreFaulted running 0 = false ∧
    fusedPort (fused [0] up) resp = true ∧ remoteReq core0 0 = none ∧ fusedPort running resp = false ∧
    (remoteReq (fqCore { ring [req 0 false] with remote := some 0 }) 31).isSome = true ∧ (remoteReq (fqCore { ring [req 0 false] with remote := some 0 }) 32).isSome = false := by
  decide +kernel

theorem wit_RegisterPackets : onDie up = true ∧ fusedPort (fused [255] up) (toCore 2 255) = true ∧ fusedPort up (toCore 2 255) = false ∧
    { pkt 3 8 with len := 7 }.len = 7 ∧ (pkt 3 8).addr % 8 = 0 ∧ (pkt 3 4).addr % 8 ≠ 0 ∧ (pkt 3 8).len ≠ 7 ∧
    fnLive up (fnOfVec 2047) = false ∧ fnLive up (fnOfVec 0) = true ∧ (getMsix up 0).unmasked = false ∧
    (getMsix { up with msix := [(0, { unmasked := true })] } 0).unmasked = true ∧
    hostUp { up with host := { up.host with width := 16 } } 0 = true ∧ hostUp { up with fns := [(0, { d3 := true })] } 0 = false ∧
    { pkt 11 0 with dstEp := 4 }.dstEp = 4 ∧ (pkt 11 0).dstEp ≠ 4 ∧ 13 ≤ (pkt 13 0).typ ∧ (pkt 12 0).typ < 13 ∧
    (getReg up R.STM_FAULT).getLsbD 47 = false := by
  decide +kernel

def flushing (w : W64) (ls : Tbl (Option Line)) (fl : List Nat) : State :=
  { up with regs := tput up.regs R.STK_SC_CTRL w, stack := { up.stack with lines := ls, flush := fl } }
def line0 : Line := { part := 15, dirty := true, data := List.replicate 256 9, lru := 0 }
def owing : State := { up with stack := { up.stack with owed := [(owedKey 63 true 0, 1)], wr := [(63, { guar := [(0, 100)], ceil := [(0, 100)] })] } }

theorem wit_FlushesAndGrants : mayWrite dark 0 R.STK_SC_CTRL = false ∧ mayWrite up 0 R.STK_SC_CTRL = true ∧
    (getReg up R.STK_SC_CTRL).getLsbD 63 = false ∧ (1 : W64).getLsbD 0 = true ∧
    (getReg (flushing 0x8000000000000F00 [(0, some line0)] [0]) R.STK_SC_CTRL).getLsbD 63 = true ∧
    fld (getReg (flushing 0x8000000000000F00 [(0, some line0)] [0]) R.STK_SC_CTRL) 11 8 = 15 ∧
    getLine (flushing 0x8000000000000F00 [(0, some line0)] [0]) 0 = some line0 ∧ line0.data.length ≤ 256 ∧ onDie up = true ∧
    onDie dark = false ∧ ceilOf (gainBuckets up {}) 0 = 100 ∧ guarOf (gainBuckets up {}) 0 = 0 ∧ 1 = partCount up ∧
    owedSlots owing 63 true 0 = 1 ∧ owedSlots owing 63 false 0 = 0 ∧ 100 ≤ guarOf (gainBuckets owing (tget (fun _ => {}) owing.stack.wr 63)) 0 ∧
    100 ≤ ceilOf (gainBuckets owing (tget (fun _ => {}) owing.stack.wr 63)) 0 := by
  decide +kernel

def training (x : Col) : State :=
  { up with phase := .training, stack := { up.stack with cols := (63, x) :: [] } }
def lastCol : State := { up with phase := .training, stack := { up.stack with cols := (List.range 64).map (fun c => (c, if c = 63 then { training := true } else { st := 1 })) } }
def worn : Col := { suspect := some 5, corrected := [(5, 1025)] }

theorem wit_ColumnsTrain : up.phase ≠ .training ∧ (training { st := 1 }).phase = .training ∧ (getCol (training { st := 1 }) 63).st ≠ 0 ∧
    (getCol (training { st := 1 }) 63).fenced = false ∧ (getCol (training {}) 63).st = 0 ∧ (getCol (training {}) 63).training = false ∧
    (getCol (training { st := 3, fenced := true }) 63).fenced = true ∧ ({} : Col).suspect = none ∧
    (getCol (training worn) 63).suspect = some 5 ∧ 1024 < tget (fun _ => 0) worn.corrected 5 ∧ laneUse 5 ≠ .spare ∧ repairOf (training worn) 63 = [] ∧
    railsOn dark = false ∧ railsOn up = true ∧
    (getCol { training { training := true } with phase := .run } 63).training = true ∧
    ((List.range 128).filter (fun k => !({} : Col).spares.any (fun e => e.1 = k))).length = 128 ∧
    ((List.range 128).filter (fun k => !(((List.range 128).map (fun k => (k, 0)) : Tbl Nat).any (fun e => e.1 = k)))).length = 0 ∧
    lastReset lastCol ≤ 1 ∧ (getCol lastCol 63).training = true ∧ (∀ j, j < 64 → j ≠ 63 → (getCol lastCol j).st ≠ 0 ∧ (getCol lastCol j).training = false) ∧
    onDie up = true ∧ onDie dark = false := by
  refine ⟨?_, ?_, ?_, ?_, ?_, ?_, ?_, ?_, ?_, ?_, ?_, ?_, ?_, ?_, ?_, ?_, ?_, ?_, ?_, ?_, ?_, ?_⟩ <;> decide +kernel

/-- A module whose repair map has `c` for its CRC. -/
def mapWith (c : Nat) : State := { up with flash := { up.flash with repairCrc := c } }
theorem mapWith_crc (c : Nat) : (mapWith c).flash.repairCrc = c := rfl
theorem mapWith_repair (c : Nat) : (mapWith c).flash.repair = up.flash.repair := rfl
theorem same_nat (x : Nat) : ∃ c, decide (x ≠ c) = false := ⟨x, decide_eq_false (fun h => h rfl)⟩
theorem other_nat (x : Nat) : ∃ c, decide (x ≠ c) = true := ⟨x + 1, decide_eq_true (Nat.ne_of_lt (Nat.lt_succ_self x))⟩
theorem wit_ColumnsTrain_map : (∃ c, mapBad (mapWith c) = false) ∧ ∃ c, mapBad (mapWith c) = true := by
  simp only [mapBad, mapWith_crc, mapWith_repair]
  exact ⟨same_nat _, other_nat _⟩

/-! ## Resets and the start -/

def phased (x : Phase) : State := { up with phase := x }
def hotTrip : State := { phased .tripped with pwr := { up.pwr with samples := [⟨54000, 0, 0, List.replicate 16 (0, 0, 90)⟩] } }
def bootable (v0 v1 : Bool) : State :=
  { phased .boot with clk := { up.clk with refOk := true }, flash := { up.flash with bank := 0, banks := [⟨v0, 64, [], []⟩, ⟨v1, 64, [], []⟩] } }
def trained (x : Phase) : State :=
  { phased x with stack := { up.stack with cols := (List.range 64).map (fun c => (c, { st := 1 })) }, began := 3 }

theorem wit_ModuleResets : ¬ scopeTaken up 0 0xC502 1 = true ∧ ¬ scopeTaken up 1 0xC501 1 = true ∧ ¬ scopeTaken up 0 0xC401 1 = true ∧
    scopeTaken up 0 0xC501 1 = true ∧ scopeTaken up 0 0xC502 2 = true ∧ scopeTaken up 0 0xC505 5 = true ∧ scopeTaken (phased .warm) 0 0xC501 1 = false ∧
    scopeTaken (phased .warm) 17 0xC502 2 = true ∧ coolEnough (phased .tripped) = true ∧
    coolEnough hotTrip = false ∧ coolEnough up = true ∧ (phased .tripped).phase = .tripped ∧ (phased .stopped).phase = .stopped ∧
    scopeTaken (phased .stopping) 0 0xC501 1 = true ∧ up.phase ≠ .stopping ∧ scopeNow up = 0 ∧ scopeNow (phased .warm) ≠ 0 ∧ railsOn up = true ∧
    ¬ (railsOn dark = true ∨ dark.phase = .stopped) ∧ (getRt up 0).jrn.writing = false := by
  decide +kernel

theorem wit_TheModuleStarts : up.phase ≠ .off ∧ dark.phase = .off ∧ (phased .charging).phase = .charging ∧ (39999 < 40000) ∧ (phased .bootHold).phase = .bootHold ∧
    (phased .bootHold).clk.refOk = false ∧ (bootable true true).clk.refOk = true ∧ (phased .boot).phase = .boot ∧
    (bankOk (bootable true false) 0).isSome = true ∧ bankOk (bootable false true) 0 = none ∧ (bankOk (bootable false true) 1).isSome = true ∧
    bankOk (bootable false false) 0 = none ∧ bankOk (bootable false false) 1 = none ∧ bankOk { bootable true true with part := { up.part with svnFuses := 65 } } 0 = none ∧
    lastReset (bootable true true) ≠ 3 ∧ (getZone up 15).bypass = false ∧ settled (phased .warm) = false ∧ settled (trained .warm) = true ∧
    (trained .training).phase = .training ∧ lastReset (trained .training) = 3 := by
  decide +kernel

def small (v : W64) : State := { up with regs := tput up.regs R.MOD_RESET_STATUS v }

theorem wit_SmallResets : smallReset up 0 4 3 = false ∧ smallReset (small 1) 0 3 3 = false ∧ smallReset up 0 0xFF0003 3 = true ∧ fld (0xFF0003 : W64) 23 16 = 255 ∧
    isFused up 255 = false ∧ isFused (fused [255] up) 255 = true ∧
    partOfCore { up with tun := { up.tun with cur := { tuning0 with cores := [1] } } } 255 = none ∧ fretOf up 510 = none ∧ fretOf up 511 = none ∧
    crossing up 255 = [] ∧ crossing { up with mesh := [(0, { mreq true with dst := (0, 255) })] } 255 ≠ [] ∧
    smallReset up 0 0x0B0004 4 = true ∧ fld (0x0B0004 : W64) 23 16 = 11 ∧ fld (0x0C0004 : W64) 23 16 = 12 ∧
    portUp (getPort up 11) = false := by
  decide +kernel

/-! ## Streams -/

/-- Page `page` rings from stream 0 of partition 0 on. -/
def paged (s : State) (page : Nat) : State := { s with regs := tput s.regs (R.STM_DB_PAGE page) 0x1000000000 }
def str0 : StrEnt := { flags := 1, log2 := 4, gen := 0xFFFF, producer := 0xFFFFFFFF, accepted := 0xFFFFFFFF, completed := 0xFFFFFFFF }
/-- Contexts for `n` streams. -/
def cached (n : Nat) (s : State) : State := { s with stm := { s.stm with capacity := n } }

theorem wit_DoorbellsMoveProducer :
    let s := paged (withStream up str0 {}) 1023
    let r := getReg s (R.STM_DB_PAGE 1023)
    onDie s = true ∧ (getFn s 0).d3 = false ∧ (0 : Fin 18) ≠ 17 ∧ r.getLsbD 36 = true ∧ fld r 35 32 = 0 ∧ fnLive s 1 = true ∧
    (getReg s (R.STM_DB_PAGE 0)).getLsbD 36 = false ∧ replaying s 0 = false ∧ recording s 0 = false ∧
    inRange (strRange s 0) 15 = true ∧ inRange (strRange s 0) 16 = false ∧ eEnabled (entryOf s 0) = true ∧ recBusy s = false ∧
    fld (0xFFFF00000000 : W64) 47 32 = (entryOf s 0).gen ∧ eClosed (entryOf s 0) = false ∧
    eClosed (entryOf (paged (withStream up { str0 with flags := 129 } {}) 1023) 0) = true ∧
    fld (0x1FFFF00000000 : W64) 63 48 ≠ 0 ∧ sub32 0xFFFFFFFF str0.producer = 0 ∧ sub32 0 str0.producer = 1 ∧ sub32 0x7FFFFFFE str0.producer = 2 ^ 31 - 1 ∧
    sub32 0x7FFFFFFF str0.producer = 2 ^ 31 ∧ sub32 15 str0.completed = 2 ^ str0.log2 ∧ 2 ^ str0.log2 < sub32 16 str0.completed ∧ (getCtx s 0).isSome = true ∧
    getCtx s 15 = none ∧ tabInStack s (strPart s 15) = false ∧ (partOfIdx s 15).isSome = true ∧ ctxFree (cached 2 s) = true ∧ ctxFree (cached 0 up) = false ∧
    lruCtx (cached 0 up) = none ∧
    mayWrite s 0 0x501F8 = true ∧ instNo 0x501F8 0x50100 16 = 15 ∧ partHasStream s 0 = true ∧ partHasStream s 15 = false ∧
    rangeLegal s 15 0x400100000 = false ∧ rangeLegal s 15 0x400100010 = true := by
  decide +kernel

def image0 (log2 : Nat) : List Byte := natLe 0 34 ++ natLe log2 1 ++ natLe 0 31 ++ natLe 255 2 ++ natLe 0 60
def hosting (s : State) : State := { s with host := { s.host with width := 16 } }

theorem wit_StreamCommands :
    let s := hosting (withStream up { str0 with gen := 0 } {})
    let st := fnKey 0 R.STM_CMD_STATUS
    mayWrite dark 0 R.STM_CMD = false ∧ mayWrite s 0 R.STM_CMD = true ∧ replaying s 0 = false ∧ (getReg s st).getLsbD 0 = false ∧
    (getReg { s with regs := tput s.regs st 1 } st).getLsbD 0 = true ∧ recording s 0 = false ∧ s.stm.cmd = none ∧ s.stm.cmdWait = [] ∧
    { s.stm with cmd := some ⟨1, 1, 0, []⟩ }.cmd ≠ none ∧ cmdPart s 0 16 = none ∧ cmdPart s 2 0 = none ∧ cmdPart s 0 15 = some 0 ∧ cmdPart s 1 0 = some 0 ∧
    (getCtx s 0).isSome = true ∧ tabInStack s 0 = false ∧ s.tun.zeroising.contains 0 = false ∧ isLocked s 0 = false ∧
    imageBad s 0 (image0 4) = false ∧ imageBad s 0 (image0 16) = false ∧ imageBad s 0 (image0 17) = true ∧
    eEnabled (entryOf (withStream up {} {}) 0) = false ∧ eSealed (entParse (image0 4)) = false ∧ (entParse (image0 4)).kind ≤ 3 ∧
    eJournal (entParse (image0 4)) = false ∧ eEnabled (entryOf s 0) = true ∧ (getRt s 0).pend = [] ∧ eSealed (entryOf s 0) = false ∧
    (entryOf (withStream up { str0 with producer := 0 } {}) 0).completed ≠ 0 ∧ (entryOf (withStream up { str0 with accepted := 0 } {}) 0).accepted ≠ str0.completed ∧
    eShadow (entryOf s 0) = false ∧ eShadow (entryOf (withStream up { str0 with flags := 65 } {}) 0) = true ∧ eJournal (entryOf s 0) = false ∧ hostUp s 1 = true ∧
    ctxPinned s 0 ⟨str0, .valid, false, 0⟩ = false ∧ ctxPinned s 0 ⟨{ str0 with accepted := 0 }, .valid, false, 0⟩ = true ∧ (∀ x ∈ s.stm.pending, x.2 = false) := by
  decide +kernel

/-- A descriptor of 16 bytes, and an output stream that offers it. -/
def desc0 : Desc := ⟨0x1000, 0, 16, 0, 0, 0⟩
def offers (r : StrRt) : State := hosting (withStream up { flags := 3, log2 := 4, producer := 1, prefetch := 1 } r)
def takes (r : StrRt) : State := hosting (withStream up { flags := 1, log2 := 4, producer := 1 } r)
def accepted : State := offers { pre := [(0, desc0)] }
def merged (t : Nat) (m : Bool) : State := { hosting up with msix := [(0, { unmasked := m, merge := true, lastSent := some 0, behind := 1 })], clk := { up.clk with time := t } }

theorem wit_DescriptorsMove : onDie (offers {}) = true ∧ (getCtx (offers {}) 0).isSome = true ∧ eEnabled (entryOf (offers {}) 0) = true ∧
    (getRt (offers {}) 0).pre.length < (entryOf (offers {}) 0).prefetch ∧ (getRt (offers {}) 0).pre.length < sub32 (entryOf (offers {}) 0).producer (nextIdx (offers {}) 0) ∧
    (getRt accepted 0).pre.length = (entryOf accepted 0).prefetch ∧ onDie dark = false ∧ eFabric (entryOf accepted 0) = false ∧ eRingStack (entryOf accepted 0) = false ∧
    nextIdx accepted 0 ≠ (entryOf accepted 0).producer ∧ nextIdx (withStream up str0 {}) 0 = str0.producer ∧ (ctxUse accepted 0).isSome = true ∧
    ctxUse (cached 0 up) 0 = none ∧
    nonceOut (entryOf (withStream up { str0 with cls := 1 } {}) 0) (nextIdx (withStream up str0 {}) 0) = true ∧ nonceOut (entryOf accepted 0) 0 = false ∧
    mayAccept accepted 0 desc0 = true ∧ mayAccept { accepted with phase := .stopping } 0 desc0 = false ∧ recording accepted (strPart accepted 0) = false ∧
    eJournal (entryOf accepted 0) = false ∧ descInvalid accepted (strPart accepted 0) (entryOf accepted 0) desc0 = false ∧ hostSide (entryOf accepted 0) = true := by
  decide +kernel

theorem wit_DescriptorsMove_finish :
    (getRt (offers { flights := [{ idx := 0, desc := desc0 }] }) 0).flights.find? (fun f => f.idx = 0 && !f.fin && !f.landed) = some { idx := 0, desc := desc0 } ∧
    (getRt accepted 0).flights = [] ∧ eEnabled (entryOf (latent accepted .ok) 0) = true ∧ eFabric (entryOf (latent accepted .ok) 0) = false ∧
    (entryOf (latent accepted .ok) 0).kind ≠ 2 ∧ hostUp accepted (strPart accepted 0 + 1) = true ∧ ideStops accepted 0 = false ∧
    engineStream accepted 0 = false ∧ replaying accepted (strPart accepted 0) = false ∧ eOut (entryOf accepted 0) = true ∧ eOut (entryOf (takes {}) 0) = false ∧
    eSealed (entryOf (takes {}) 0) = false ∧ nbit desc0.flags 2 = false := by
  decide +kernel

theorem wit_DescriptorsMove_merge : (getMsix up 0).merge = false ∧ (merged 999 true).clk.time < 0 + 1000 ∧ 0 + 1000 ≤ (merged 1000 true).clk.time ∧
    (getMsix (merged 1000 true) 0).lastSent = some 0 ∧ (getMsix (merged 1000 true) 0).merge = true ∧
    (getMsix (merged 1000 true) 0).unmasked = true ∧ (getMsix (merged 1000 false) 0).unmasked = false ∧ fnLive (merged 1000 true) (fnOfVec 0) = true ∧
    hostUp (merged 1000 true) (fnOfVec 0) = true ∧ (∀ w ∈ (merged 1000 true).host.wait, w.1 ≠ (getMsix (merged 1000 true) 0).behind) ∧
    (∃ w ∈ { up.host with wait := [(1, .msix 0 0 0)] }.wait, w.1 = (getMsix (merged 1000 true) 0).behind) := by
  decide +kernel

def evicts : State := { up with stm := { up.stm with ctxs := [(0, some ⟨str0, .evicting, true, 0⟩)] } }
def scans : State := { up with regs := tput up.regs R.STM_RECOVER_STATUS 1, stm := { up.stm with recParts := [15] } }
/-- A journal record of one acceptance, and a stream with its ring in host memory that has it at the start of partition 0's region. -/
def record0 : List Byte := let b := natLe 0 2 ++ natLe 1 2 ++ natLe 1 4 ++ natLe 0 32 ++ natLe 1 8 ++ natLe 0 12; b ++ natLe (crc32c b) 4
def lacking : State :=
  let s := rawWrite (withStream up { flags := 33, log2 := 4, producer := 1, accepted := 1 } {}) (relSa up 0 0) record0
  { s with regs := tput s.regs R.STM_RECOVER_STATUS 1, stm := { s.stm with recParts := [0] } }

theorem wit_ContextsJournalsRecovery : partOfIdx up 0 = none ∧ partOfIdx (withStream up str0 {}) 15 = some 0 ∧ onDie up = true ∧
    (getCtx (withStream up str0 {}) 0).isSome = true ∧ getCtx (withStream up str0 {}) 15 = none ∧ ctxFree (withStream up str0 {}) = true ∧
    ctxFree (cached 0 up) = false ∧ getCtx evicts 0 = some ⟨str0, .evicting, true, 0⟩ ∧ (∀ x ∈ evicts.stm.pending, x.2 = false) ∧ evicts.stm.noCtx = false ∧
    ((([(15, true)] : Tbl Bool).find? (fun x => x.2)).map Prod.fst = some 15) ∧
    (getRt (withStream up str0 { jrn := { writing := true, wCompleted := 0xFFFFFFFF } }) 0).jrn.writing = true ∧ up.phase ≠ .stopping ∧
    (getRt up 0).jrn.writing = false ∧ mayWrite up 0 R.STM_RECOVER = true ∧ mayWrite dark 0 R.STM_RECOVER = false ∧
    (∀ p, p < 16 → (0x8000 : W64).getLsbD p = true → replaying up p = false) ∧ recBusy up = false ∧ recBusy scans = true ∧ recording up 0xFF = false ∧
    (∀ b ∈ scans.clk.bounds, b.2 = false) ∧ scanLacks [] scans = [] ∧ scanLacks [] lacking = [(0, 0)] := by
  refine ⟨?_, ?_, ?_, ?_, ?_, ?_, ?_, ?_, ?_, ?_, ?_, ?_, ?_, ?_, ?_, ?_, ?_, ?_, ?_, ?_, ?_, ?_, ?_⟩ <;> decide +kernel

/-! ## Fabric -/

/-- Module `a` of a ring of two in dimension 0: port 0 leads up, port 1 down. -/
def ringed (a : W64) (ps : Tbl Port) : State :=
  { up with tun := { up.tun with cur := { tuning0 with extents := 1, roles := [2, 1] ++ List.replicate 10 0 } }
            regs := tput up.regs R.FAB_MOD_ADDR a, fab := { up.fab with ports := ps } }
def portOn : Port := { st := 2, lanes := 8, signal := true, identOk := true, timedOk := true, neighbour := 1 }
def linked (p : Port) : State := ringed 0 [(0, p)]
def hails : IdentMsg := ⟨1, 1, 0, 1, false, 1⟩

theorem wit_PortsTrain : onDie dark = false ∧ onDie (linked {}) = true ∧ (getPort (linked { st := 1, signal := true }) 0).st = 1 ∧
    (getPort (linked { st := 1 }) 0).signal = false ∧ identCode (linked { st := 1, signal := true }) 0 hails = 0 ∧
    identCode (linked { st := 1, signal := true }) 0 { hails with role := 2 } = 0x603 ∧ identCode (linked { st := 1, signal := true }) 0 { hails with crypt := true } = 0x605 ∧
    (getPort up 11).st ≠ 1 ∧ portUp (getPort up 11) = false ∧ portUp (getPort (linked portOn) 0) = true ∧ portUp { portOn with st := 3 } = true ∧ (0x603 < 0x3000) ∧
    { portOn with st := 1 }.identOk = true ∧ ({} : Port).identOk = false ∧ (5 ≠ 8 ∧ 5 ≠ 4) ∧ mayWrite dark 0 (R.FAB_PORT_CTRL 11) = false ∧
    mayWrite up 0 (R.FAB_PORT_CTRL 11) = true ∧
    (([] ++ [0] : List Nat).length < 3) ∧ 3 ≤ (([1, 1] : List Nat).filter (fun x => decide (1000000000 < x + 1000000000)) ++ [1000000000]).length ∧
    ((([0, 0] : List Nat).filter (fun x => decide (1000000000 < x + 1000000000)) ++ [1000000000]).length < 3) ∧
    (2 : W64).getLsbD 1 = true ∧ (0 : W64).getLsbD 0 = (getReg { up with regs := tput up.regs (R.FAB_PORT_CTRL 0) 0 } (R.FAB_PORT_CTRL 0)).getLsbD 0 ∧
    (1 : W64).getLsbD 0 ≠ (getReg { up with regs := tput up.regs (R.FAB_PORT_CTRL 0) 0 } (R.FAB_PORT_CTRL 0)).getLsbD 0 ∧
    roleOf (linked {}) 0 ≠ 0 ∧ fabHeld (linked {}) = false ∧ mayWrite dark 0 R.FAB_MOD_ADDR = false ∧ mayWrite up 0 R.FAB_MOD_ADDR = true ∧
    (∀ k, k < 12 → portUp (getPort up k) = false) := by
  refine ⟨?_, ?_, ?_, ?_, ?_, ?_, ?_, ?_, ?_, ?_, ?_, ?_, ?_, ?_, ?_, ?_, ?_, ?_, ?_, ?_, ?_, ?_, ?_, ?_, ?_, ?_, ?_, ?_⟩ <;> decide +kernel

def unit0 (vc lseq : Nat) : LinkUnit := ⟨vc, false, true, lseq, 0, 0, 0, List.replicate 32 0⟩
/-- What a link in clear carries of a unit, and a CONTROL unit. -/
def onWire (u : LinkUnit) : UnitWire := wireUnit portOn (unitHeader u) u.data
def ctrl0 (nak : Option (Nat × Nat)) : CtrlUnit := { ack := List.replicate 24 0, credit := List.replicate 24 1, nak := nak }
def ctrlWire (nak : Option (Nat × Nat)) : UnitWire := wireUnit portOn ctrlHeader (ctrlBytes (ctrl0 nak))
def spoilt : UnitWire := { onWire (unit0 16 0) with crc := (onWire (unit0 16 0)).crc ^^^ 1#32 }
/-- The unit that a header and a payload say. -/
def saysUnit (w : UnitWire) (d : List Byte) : LinkUnit := headerUnit w.header d
def phase0 (k : Nat) : LinkUnit := { unit0 15 0 with eseq := 2 ^ 14 * k }

theorem wit_UnitsCrossLinks : portLive up 11 = false ∧ portLive (linked portOn) 0 = true ∧ openUnit portOn spoilt = none ∧
    openUnit portOn (onWire (unit0 16 0)) = some (unit0 16 0).data ∧
    isData (onWire (unit0 21 0)) (saysUnit (onWire (unit0 21 0)) (unit0 21 0).data) = true ∧
    isData (onWire (unit0 15 0)) (saysUnit (onWire (unit0 15 0)) []) = false ∧
    (saysUnit (onWire { unit0 17 0 with mcast := true }) []).mcast = true ∧ (saysUnit (onWire { unit0 17 0 with mcast := true }) []).vc = 17 ∧
    isPhase (onWire (phase0 0)) (phase0 0) 0 = true ∧ isPhase (onWire (phase0 1)) (phase0 1) 1 = true ∧ isPhase (onWire (phase0 2)) (phase0 2) 2 = true ∧
    isPhase (onWire (phase0 3)) (phase0 3) 3 = true ∧ isPhase (onWire (phase0 3)) (phase0 3) 0 = false ∧
    (∀ v, v < 24 → (getVc (getPort (linked portOn) 0) v).txq = []) ∧ (linked portOn).fab.ports = [(0, portOn)] ∧ portOn.vcs = [] ∧
    (linked portOn).fab.mcastQ = [] ∧ ({ replays := 6 } : Vc).replays < 7 ∧ portOn.crypt = false ∧ { portOn with crypt := true }.crypt = true ∧
    portOn.txCtr < 2 ^ 40 ∧ 2 ^ 40 ≤ { portOn with txCtr := 0x10000000000 }.txCtr ∧
    fabHeld (linked portOn) = false ∧ (getVc portOn 23).txq = [] ∧ 0 < ({ credits := 1 } : Vc).credits ∧ replayBytes portOn + 270 ≤ 131072 := by
  refine ⟨?_, ?_, ?_, ?_, ?_, ?_, ?_, ?_, ?_, ?_, ?_, ?_, ?_, ?_, ?_, ?_, ?_, ?_, ?_, ?_, ?_, ?_, ?_, ?_, ?_, ?_⟩ <;> decide +kernel

theorem wit_UnitsCrossLinks_control : openUnit portOn (ctrlWire none) = some (ctrlBytes (ctrl0 none)) ∧ headerType (ctrlWire none).header = 1 ∧
    (ctrlBytes (ctrl0 none)).length = 64 ∧ (ctrlParse (ctrlBytes (ctrl0 none))).nak = none ∧ (ctrlParse (ctrlBytes (ctrl0 (some (19, 4095))))).nak = some (19, 4095) := by
  decide +kernel

/-- An output stream on the fabric that has sent one unit. -/
def sends0 (x : E2E) (t : Nat) : State :=
  { withStream up { str0 with flags := 3, kind := 1, vc := 16, txSeq := 1 } { e2e := x, held := [unit0 16 0] } with clk := { up.clk with time := t } }
/-- An input stream from the fabric, local receiver of multicast group 127. -/
def gets0 : State := withStream up { str0 with kind := 1, vc := 16, rxSeq := 1 } {}
def member : State := { gets0 with regs := tput gets0.regs (R.FAB_MCAST 127) 0x8000000000001000 }
def holds (h : Hold) (t : Nat) : State := { up with fab := { up.fab with holds := [(11, h)] }, clk := { up.clk with time := t } }
def adm0 : AdmMsg := ⟨0, 1, 0, 0, 0, 1, 0, 0, false⟩
def held0 : Hold := ⟨adm0, none, [0], 0, false, false⟩
def dead (held : Bool) (t : Nat) : State := at_time t { part0 with step := { active := true, deadT0 := some 0, dlHeld := held } }
def watch0 (held : Bool) (t : Nat) : State := at_time t { part0 with progs := [(0, some watched)], step := { step0 with wdHeld := held } }

theorem wit_NoticesAndAcknowledgements : portLive up 11 = false ∧ portLive (linked portOn) 0 = true ∧ onDie dark = false ∧
    eEnabled (entryOf up 0) = false ∧ eEnabled (entryOf (sends0 {} 0) 0) = true ∧ eFabric (entryOf (sends0 {} 0) 0) = true ∧ eOut (entryOf (sends0 {} 0) 0) = true ∧
    (getRt (sends0 {} 0) 0).flights = [] ∧ eOut (entryOf gets0 0) = false ∧ recovers gets0 0 = false ∧ localGroup member 0 = some 127 ∧ localGroup gets0 0 = none ∧
    mcastMin member 127 = 1 ∧ mcastMin up 127 = 0 ∧ (getRt (sends0 {} 0) 0).held ≠ [] ∧
    (sends0 { lastAdvance := some 0 } 9999).clk.time < 0 + e2eTimeout up ∧ 0 + e2eTimeout up ≤ (sends0 { lastAdvance := some 0 } (e2eTimeout up)).clk.time ∧
    (getRt (sends0 { lastAdvance := some 0 } 0) 0).e2e.lastAdvance = some 0 ∧ (getRt (sends0 { lastAdvance := some 0, held := some 0 } 0) 0).e2e.held.isSome = true ∧
    (getPart (dead true 2002000) 0).step.deadT0 = some 0 ∧ (getPart (dead true 2002000) 0).step.dlHeld = true ∧ 0 + 2002000 ≤ (dead true 2002000).clk.time ∧
    (dead true 2001999).clk.time < 0 + 2002000 ∧ (getPart (dead false 0) 0).step.dlHeld = false ∧
    watchEnd (watch0 true 1002000) 0 = some 1000000 ∧ stepOpen (getPart (watch0 true 1002000) 0).step = true ∧ (getPart (watch0 true 0) 0).step.wdHeld = true ∧
    1000000 + 2000 ≤ (watch0 true 1002000).clk.time ∧ (watch0 true 1001999).clk.time < 1000000 + 2000 ∧
    openHold (holds { held0 with due := true } 1002000) 11 = some (11, { held0 with due := true }) ∧ openHold (holds held0 0) 11 = some (11, held0) ∧
    0 + 1002000 ≤ (holds held0 1002000).clk.time ∧ (holds held0 1001999).clk.time < 0 + 1002000 := by
  refine ⟨?_, ?_, ?_, ?_, ?_, ?_, ?_, ?_, ?_, ?_, ?_, ?_, ?_, ?_, ?_, ?_, ?_, ?_, ?_, ?_, ?_, ?_, ?_, ?_, ?_, ?_, ?_, ?_, ?_, ?_, ?_, ?_, ?_⟩ <;> decide +kernel

/-- A timed stream that receives. -/
def timedIn : State := withStream up { str0 with kind := 4, vc := 20 } {}

theorem wit_TimedAdmission : onDie dark = false ∧ onDie timedIn = true ∧ adm0.dst = ownAddr timedIn ∧ recvTimed timedIn 0 = true ∧ recvTimed up 0 = false ∧
    { adm0 with dst := 1 }.dst ≠ ownAddr (linked portOn) ∧ 16 ≤ { adm0 with hops := 16 }.hops ∧ { adm0 with hops := 15 }.hops < 16 ∧
    slotPort (linked portOn) 1 4 = .inl 0 ∧ slotPort (linked portOn) 1 5 = .inr 1 ∧ slotPort (linked { portOn with timedOk := false }) 1 1 = .inr 2 ∧
    findHold up adm0 = none ∧ findHold (holds held0 0) adm0 = some (11, held0) ∧ adm0.src ≠ ownAddr (holds held0 0) ∧ { adm0 with src := 0 }.src = ownAddr up ∧
    findHold (holds { held0 with adm := { adm0 with src := 0 } } 0) { adm0 with src := 0 } = some (11, { held0 with adm := { adm0 with src := 0 } }) ∧
    openHold up 11 = none ∧ openHold (holds held0 999999) 11 = some (11, held0) ∧ (holds held0 999999).clk.time < 0 + 1000000 ∧
    0 + 1000000 ≤ (holds held0 1000000).clk.time ∧ (holds held0 1001999).clk.time < 0 + 1002000 ∧ 0 + 1002000 ≤ (holds held0 1002000).clk.time := by
  refine ⟨?_, ?_, ?_, ?_, ?_, ?_, ?_, ?_, ?_, ?_, ?_, ?_, ?_, ?_, ?_, ?_, ?_, ?_, ?_, ?_, ?_, ?_⟩ <;> decide +kernel

theorem wit_PortsTrain_addr : ∃ k, k < 12 ∧ portUp (getPort (linked portOn) k) = true := ⟨0, by decide⟩

/-- Port 0 is the one branch of multicast group 127, and has acknowledged `n` units. -/
def branch0 (n : Nat) : State :=
  let s := linked portOn
  { s with regs := tput s.regs (R.FAB_MCAST 127) 0x8000000000000001, fab := { s.fab with mcastAck := [(127 * 16, n)] } }
theorem wit_NoticesAndAcknowledgements_branch : mcastMin (branch0 0) 127 < mcastMin (branch0 5) 127 := by decide +kernel

/-! ## The exchange, the seal and time -/

/-- Group slot 15: the blocks 0 to 63 of partition 0, over dimension 0, with the partition's step running. -/
def grp0 : Grp := { part := 0, prog := 0, dims := 1, initScale := 0x7F7F, first := 0, blocks := 64, feed := 0, enc := 1, result := 2, policy := 0, step := 2047 }
def exch (g : Grp) (feed enc : StrEnt) (r : StrRt) : State :=
  let s := ringed 0 [(0, portOn), (1, portOn)]
  { s with regs := tput (tput s.regs (R.STM_PART_RANGE 0) 0x400100000) (R.GRX_PART_BLOCKS 0) 0x4000000000, parts := [(0, { part0 with step := step0 })]
           grx := { up.grx with grps := [(15, some g)] }
           stm := { up.stm with ctxs := [(0, some ⟨feed, .valid, false, 0⟩), (1, some ⟨enc, .valid, false, 0⟩)], rt := [(1, r)] } }
def exch0 (g : Grp) : State := exch g { flags := 1, log2 := 4, producer := 15 } { flags := 3, log2 := 4 } {}
/-- Its ENC stream holds a descriptor of two records, `used` bytes of which have been fetched. -/
def encRt (used : Nat) : StrRt := { flights := [{ idx := 0, desc := { desc0 with len := 288 }, used := used }] }
/-- A reduction unit of group slot 15's step: a G1 record at `block` for phase 0, a fingerprint for phase 3. -/
def gUnit0 (ph block step : Nat) (data : List Byte) : LinkUnit := ⟨15, false, true, 0, 0, gStream block, gSeq ph 0 step block, data⟩
def g1Unit0 : LinkUnit := gUnit0 0 16 2047 (List.replicate 24 0)
def fpUnit0 : LinkUnit := gUnit0 3 0 2047 (List.replicate 8 0)

theorem wit_ExchangeMoves : getGrp up 15 = none ∧ getGrp (exch0 grp0) 15 = some grp0 ∧ onDie (exch0 grp0) = true ∧ grpRuns (exch0 grp0) grp0 = true ∧
    grpRuns up grp0 = false ∧ { grp0 with feedNext := 64 }.feedNext = grp0.blocks ∧ engineRoom (exch0 grp0) 0 = true ∧
    engineRoom (exch grp0 { flags := 1, log2 := 4, producer := 16 } {} {}) 0 = false ∧ { grp0 with feedNext := 63 }.feedNext < grp0.blocks ∧
    (getRt (exch0 grp0) 1).flights.find? (fun f => !f.fin) = none ∧
    ((getRt (exch grp0 {} {} (encRt 0)) 1).flights.find? (fun f => !f.fin)).map Flight.used = some 0 ∧ { desc0 with len := 288 }.len % 144 = 0 ∧ 0 + 144 < 288 ∧ 144 + 144 = 288 ∧
    ((getRt (exch grp0 {} {} (encRt 144)) 1).flights.find? (fun f => !f.fin)).map Flight.used = some 144 ∧ grp0.encNext < grp0.blocks ∧
    mayWrite dark 0 (R.GRX_PART_BLOCKS 15) = false ∧ mayWrite up 0 (R.GRX_PART_BLOCKS 15) = true ∧ (∃ e ∈ (getPart busy 0).progs, e.2.isSome = true) ∧
    (getPart up 15).progs = [] ∧ (getPart up 15).loading.isSome = false ∧ blocksLegal (exch0 grp0) 15 0 64 = false ∧ blocksLegal (exch0 grp0) 15 0 0 = true := by
  refine ⟨?_, ?_, ?_, ?_, ?_, ?_, ?_, ?_, ?_, ?_, ?_, ?_, ?_, ?_, ?_, ?_, ?_, ?_, ?_, ?_, ?_, ?_, ?_⟩ <;> decide +kernel

theorem wit_ExchangeMoves_units :
    let s := exch0 grp0
    let w := onWire g1Unit0
    portLive up 11 = false ∧ portLive s 0 = true ∧ portLive s 1 = true ∧ openUnit portOn w = some g1Unit0.data ∧ headerUnit w.header g1Unit0.data = g1Unit0 ∧
    g1Unit0.lseq = (getVc portOn 15).rxSeq ∧ (getVc portOn 15).buf = [] ∧ isPhase w g1Unit0 0 = true ∧ isPhase (onWire (gUnit0 1 0 0 [0])) (gUnit0 1 0 0 [0]) 1 = true ∧
    isPhase (onWire (gUnit0 2 0 0 [0])) (gUnit0 2 0 0 [0]) 2 = true ∧ isPhase (onWire fpUnit0) fpUnit0 3 = true ∧
    bits g1Unit0.eseq 11 1 = grp0.step % 2048 ∧ bits (gUnit0 0 16 2046 []).eseq 11 1 ≠ grp0.step % 2048 ∧
    g1Unit0.dst = ownAddr s ∧ (grpDims grp0)[bits g1Unit0.eseq 13 12]? = some (roleDim (roleOf s 0)) ∧ { g1Unit0 with dst := 1 }.dst ≠ ownAddr s ∧
    fpUnit0.data.length = 8 ∧ rolePlus (roleOf s 1) = false ∧ rolePlus (roleOf s 0) = true ∧ fpExpects s grp0 0 = true ∧
    fpExpects s { grp0 with line := [(0, some 1)] } 0 = false ∧
    gParse (gUnit0 0 16 2047 [0]) = none ∧ (gParse g1Unit0).map GUnit.block = some 16 ∧ (gParse g1Unit0).map (fun q => q.recs.length) = some 1 ∧
    16 - blockOf s grp0 0 < grp0.blocks ∧ expects s grp0 0 0 16 false = true ∧ expects s grp0 0 0 15 false = false ∧ pathPos s grp0 0 16 false = 1 := by
  refine ⟨?_, ?_, ?_, ?_, ?_, ?_, ?_, ?_, ?_, ?_, ?_, ?_, ?_, ?_, ?_, ?_, ?_, ?_, ?_, ?_, ?_, ?_, ?_, ?_, ?_, ?_, ?_, ?_⟩ <;> decide +kernel

def seals (a : W64) (x : SealSt) : State :=
  { ringed a [(0, portOn)] with parts := [(0, { part0 with step := step0 })], grx := { up.grx with seals := [(0, x)] } }
def seal0 : SealSt := { recStep := 1, dims := 1 }
def msg0 (step : Nat) (bad : Bool) : ReadyMsg := ⟨step, 1, 0, bad, false, false, false, 0, 0, 0, 0, 0, 0⟩

theorem wit_StepsAreSealed : (getPart up 15).cur = none ∧ onDie dark = false ∧ (getPart (seals 0 seal0) 0).cur = some 0 ∧ onDie (seals 0 seal0) = true ∧
    getSeal (seals 0 seal0) (sealKey 0 0) = seal0 ∧ { seal0 with heard := [1] }.heard.contains 1 = true ∧ seal0.heard.contains 1 = false ∧
    seal0.recStep < (msg0 2 false).step ∧ (msg0 1 false).step ≤ seal0.recStep ∧ (getPart (seals 0 seal0) 0).step.active = true ∧ undecidedYet seal0 = true ∧
    undecidedYet { seal0 with st := .sealed } = false ∧ decides (seals 0 seal0) seal0 = true ∧ decides (seals 1 seal0) seal0 = false ∧
    (msg0 1 true).failed = true ∧ { seal0 with sent := true }.sent = true ∧ seal0.sent = false ∧ (msg0 1 false).failed = false ∧
    backupOf (seals 1 seal0) (sealDims 1) (ownAddr (seals 1 seal0)) = 1 ∧ ownAddr (seals 1 seal0) = 1 ∧ backupOf (seals 0 seal0) (sealDims 1) (ownAddr (seals 0 seal0)) = 1 ∧
    { seal0 with st := .readySent }.st = .readySent ∧ seal0.recBad = false ∧ { seal0 with waitBackup := true }.waitBackup = true ∧ seal0.waitBackup = false ∧
    0 = (if undecidedYet seal0 then seal0.recStep - 1 else seal0.recStep) ∧ 1 ≠ (if undecidedYet seal0 then seal0.recStep - 1 else seal0.recStep) ∧
    { seal0 with recBad := true }.recBad = true ∧ { seal0 with undecided := true }.undecided = true ∧ portLive up 11 = false ∧ portLive (seals 0 seal0) 0 = true ∧ (1 ≠ ownAddr (seals 0 seal0)) ∧
    { seal0 with st := .pendingSeal }.st = .pendingSeal ∧ rootOf (sealDims 1) (ownAddr (seals 1 seal0)) = 0 ∧ { seal0 with rejoin := true }.rejoin = true ∧ (Decision.aborted ≠ .undecided) ∧
    { seal0 with copying := true }.copying = true ∧ seal0.copying = false ∧ curProg (seals 0 { seal0 with copying := true }) 0 = some prog0 ∧ seal0.st = .none := by
  refine ⟨?_, ?_, ?_, ?_, ?_, ?_, ?_, ?_, ?_, ?_, ?_, ?_, ?_, ?_, ?_, ?_, ?_, ?_, ?_, ?_, ?_, ?_, ?_, ?_, ?_, ?_, ?_, ?_, ?_, ?_, ?_, ?_, ?_, ?_, ?_, ?_, ?_, ?_, ?_, ?_⟩ <;> decide +kernel

def zoned (x : ZoneSt) : State := { up with clk := { up.clk with zones := [(15, x)] } }

theorem wit_ZonesRun : onDie dark = false ∧ onDie up = true ∧ (getZone (zoned { bypass := true }) 15).bypass = true ∧ (getZone up 15).bypass = false ∧
    (getZone (zoned { alert := true }) 15).alert = true ∧ 80 * (getZone (zoned { applied := 300, stretched := 94 }) 15).applied < 256 * 94 ∧
    ¬ 80 * (getZone (zoned { applied := 300, stretched := 93 }) 15).applied < 256 * 93 ∧ 10 ≤ (getZone (zoned { good := 9 }) 15).good + 1 ∧
    (getZone (zoned { good := 8 }) 15).good + 1 < 10 ∧ target up 15 = 300 ∧ (getZone up 15).locked = false ∧ (getZone (zoned { locked := true }) 15).locked = true ∧
    mayWrite dark 0 (R.CLK_ZONE_CTRL 15) = false ∧ mayWrite up 0 (R.CLK_ZONE_CTRL 15) = true ∧ up.clk.refOk = false ∧ (bootable true true).clk.refOk = true ∧
    3 < fld (getReg { up with regs := tput up.regs (R.CLK_ZONE_MARGIN 15) 63 } (R.CLK_ZONE_MARGIN 15)) 5 0 := by
  decide +kernel

def timed (x : TimeSt) (t : Nat) (msg : Option Nat) : State := { up with clk := { up.clk with tst := x, time := t, lastMsg := msg, lastPulse := some 0 } }
/-- Module 1 takes its TIME from module 0. -/
def hearing (x : TimeSt) (big : Nat) : State :=
  let s := ringed 1 [(1, portOn)]
  { s with regs := tput s.regs R.CLK_TIME_CTRL 2, clk := { up.clk with tst := x, bigMsgs := big } }
def bounded (b : List Nat) : State := { up with clk := { up.clk with bounds := b.map (fun i => (i, true)) } }

theorem wit_TimeKeeps : onDie dark = false ∧ onDie up = true ∧ (timed .free 0 none).clk.tst = .free ∧ (timed .seeded 0 none).clk.tst = .seeded ∧
    msgsCurrent (timed .locked 1999999 (some 0)) = true ∧ msgsCurrent (timed .locked 2000000 (some 0)) = false ∧
    1000 < (pulseOffset (timed .locked 1001 (some 0))).natAbs ∧ (pulseOffset (timed .locked 1000 (some 0))).natAbs ≤ 1000 ∧
    (getReg { up with regs := tput up.regs R.CLK_TIME_CTRL 0 } R.CLK_TIME_CTRL).getLsbD 1 = false ∧ timeParent up = none ∧ (getReg (hearing .free 0) R.CLK_TIME_CTRL).getLsbD 1 = true ∧
    (timeParent (hearing .free 0)).isSome = true ∧ (timeParent (hearing .free 0)).map (fun d => (dirUp (hearing .free 0) d.1 d.2).head?) = some (some 1) ∧
    (timeParent { hearing .free 0 with fab := up.fab }).map (fun d => (dirUp { hearing .free 0 with fab := up.fab } d.1 d.2).head?) = some none ∧
    (0 + 10000000 ≤ (timed .locked 10000000 none).clk.time) ∧ ¬ (0 + 10000000 ≤ (timed .locked 9999999 none).clk.time) ∧
    mayWrite dark 0 R.CLK_TIME_SEED = false ∧ mayWrite up 0 R.CLK_TIME_SEED = true ∧ (timed .seeded 0 none).clk.tst ≠ .locked ∧
    portLive (hearing .free 0) 1 = true ∧ (hearing .locked 9).clk.bigMsgs + 1 = 10 ∧ 20 < (msgOffset 0 42 0 ⟨0, 0, 0⟩).natAbs ∧ (msgOffset 0 40 0 ⟨0, 0, 0⟩).natAbs = 20 ∧
    tget (fun _ => false) up.clk.bounds 256 = false ∧ tget (fun _ => false) (bounded [256]).clk.bounds 256 = true ∧ tget (fun _ => false) (bounded [267]).clk.bounds 267 = true ∧
    tget (fun _ => false) (bounded [255, 767]).clk.bounds (255 + 512) = true ∧ tget (fun _ => false) (bounded [255]).clk.bounds (255 + 512) = false ∧
    tget (fun _ => false) (bounded [512]).clk.bounds 512 = true ∧ tget (fun _ => false) (bounded [767]).clk.bounds (767 - 512) = false := by
  decide +kernel

/-! ## Power and security -/

def supply (x : Phase) (band : Nat) : State := { phased x with pwr := { up.pwr with band := band } }
def stopped0 (commanded : Bool) (held : Option Nat) : State := { phased .stopping with pwr := { up.pwr with commanded := commanded, held := held } }

theorem wit_SupplyBands : supplied (phased .off) = false ∧ supplied (phased .stopping) = false ∧ 2 < (supply .run 3).pwr.band ∧ supplied up = true ∧ (supply .run 2).pwr.band ≤ 2 ∧
    backToNormal 2 42000 = true ∧ backToNormal 2 41999 = false ∧ backToNormal 1 59000 = true ∧ backToNormal 1 59001 = false ∧ (59999 < 60000 ∧ 66000 < 66001) ∧ (60000 ≤ 66000 ∧ 66000 ≤ 66000) ∧ (36000 ≤ 36000 ∧ 39999 < 40000) ∧ (42000 ≤ 42000 ∧ 42000 ≤ 59000) ∧ (35999 < 36000) ∧
    (supply .run 1).pwr.band ≠ 2 ∧ (phased .retention).phase = .retention ∧ (phased .failed).phase = .failed ∧ (phased .inrushWait).phase = .inrushWait ∧
    (phased .stopping).phase = .stopping ∧ railsOn up = true ∧ up.phase ≠ .stopping ∧ (stopped0 false none).pwr.commanded = false ∧ (stopped0 true (some 5)).pwr.held = some 5 ∧
    (stopped0 true none).pwr.commanded = true ∧ (stopped0 true (some 1)).pwr.held = some 1 ∧ (stopped0 true (some 2)).pwr.held = some 2 ∧ up.pwr.held ≠ some 2 ∧
    (phased .charging).phase = .charging ∧ up.phase ≠ .charging ∧ up.phase ≠ .inrushWait ∧ up.phase ≠ .retention := by
  decide +kernel

def sampled (l : List PSample) : State := { up with pwr := { up.pwr with samples := l, watts := [1101] } }
def hot0 (t : Nat) : State := sampled [⟨54000, 0, 0, List.replicate 16 (0, 0, t)⟩]
def telem : State := { hosting (claims [⟨9, claimValue 8 9 0⟩]) with regs := tput up.regs R.PWR_TELEM_CTRL 1 }

def planned : State := { up with tun := { up.tun with jobs := [.plan 0] } }

theorem wit_PowerControl : railsOn dark = false ∧ railsOn up = true ∧ (phased .stopping).phase = .stopping ∧ (supply .run 2).pwr.band = 2 ∧ floorOn up = false ∧
    floorOn (busyWith { part0 with betweenSteps := true } core0) = true ∧ up.pwr.short = false ∧ { up.pwr with short := true }.short = true ∧
    115 < (hottest (hot0 116)).2 ∧ (hottest (hot0 115)).2 ≤ 115 ∧ classWatts (hot0 0).tun.cur.cooling = 2000 ∧ meanOf (hot0 0).pwr.watts = 1101 ∧
    classWatts { tuning0 with cooling := 0 }.cooling < meanOf (hot0 0).pwr.watts ∧
    100 < zoneTemp (hot0 101) 15 ∧ zoneTemp (hot0 94) 15 < 95 ∧ 95 ≤ zoneTemp (hot0 95) 15 ∧ zoneTemp (hot0 100) 15 ≤ 100 ∧ dark.phase ≠ .stopped ∧ dark.phase ≠ .tripped ∧
    (List.replicate 10 (0 : Nat)).length ≤ 10 ∧ (getReg up R.PWR_TELEM_CTRL).getLsbD 0 = false ∧ onDie telem = true ∧ (getReg telem R.PWR_TELEM_CTRL).getLsbD 0 = true ∧
    (∃ i, i < 8 ∧ ownedBy telem (i + 2) 8 = true) ∧ hostUp telem 0 = true ∧ dark.phase = .off ∧ up.phase ≠ .off ∧ up.phase ≠ .retention ∧ fwUp up = true ∧
    (499 + 1) % 500 = 0 ∧ mayWrite dark 0 R.PWR_AGE_CTRL = false ∧ mayWrite up 17 R.PWR_AGE_CTRL = true ∧ planNext up = false ∧ up.tun.jobs = [] ∧ planNext planned = true ∧ planned.tun.jobs = .plan 0 :: [] ∧ coreFree planned = true ∧ coreFree dark = false := by
  refine ⟨?_, ?_, ?_, ?_, ?_, ?_, ?_, ?_, ?_, ?_, ?_, ?_, ?_, ?_, ?_, ?_, ?_, ?_, ?_, ?_, ?_, ?_, ?_, ?_, ?_, ?_, ?_, ?_, ?_, ?_, ?_, ?_, ?_, ?_, ?_, ?_, ?_, ?_⟩ <;>
    first | decide +kernel | exact ⟨7, by decide +kernel⟩

/-- An owner whose public key is the base point, and its signature with nonce 1. -/
def owner : List Byte := [4] ++ natBe ecGx 48 ++ natBe ecGy 48
def signed (m : List Byte) : List Byte := m ++ natBe (ecGx % ecN) 48 ++ natBe ((beNat (sha384 m) + ecGx % ecN) % ecN) 48
def mbReq (op part flags len counter : Nat) (body : List Byte) : List Byte := natLe op 2 ++ natLe part 1 ++ natLe flags 1 ++ natLe len 4 ++ natLe counter 8 ++ body
/-- Partition 0 holds 16 streams in a table in its region; it is locked; slots 1 and 255 are installed. -/
def tabled : State := { up with regs := tput (tput up.regs (R.STM_PART_RANGE 0) 0x400100000) (R.STM_PART_TABLE 0) 1 }
def slotOn (k : Byte) : KeySlot := { used := true, part := 0, secret := [k], floor := 1 }
def lockedUp : State := { tabled with flash := { up.flash with locks := [(0, ⟨owner, 0, 0⟩)] }, sec := { up.sec with slots := [(1, slotOn 1), (255, slotOn 2)] } }
/-- A secret of 48 zero bytes for slot 0, wrapped under slot 255. -/
def wrapped : List Byte := natLe 13997569031596313823183648546561524605616327367608388030845209184265440463599901899584296512316542918119461963657644289607505156297347840633516539352362148369235635695182971464367747890944 78
/-- A mailbox whose request and response may be as long as 65,535 bytes. -/
def mailed (f : FnSt) : State := { up with regs := tput (tput up.regs (fnKey 0 R.SEC_MB_REQ_LEN) 0xFFFF) (fnKey 0 R.SEC_MB_RSP_CAP) 0xFFFF, fns := [(0, f)] }

theorem wit_MailboxCommands : (0 : Fin 18) ≠ 17 ∧ mayWrite dark 0 R.SEC_MB_CTRL = false ∧ mayWrite (mailed {}) 0 R.SEC_MB_CTRL = true ∧ fwUp (mailed {}) = true ∧
    (mbReq 9 0 0 0 0 []).take (fld (getReg (mailed {}) (fnKey 0 R.SEC_MB_REQ_LEN)) 15 0) = mbReq 9 0 0 0 0 [] ∧ replaying (mailed {}) 0 = false ∧
    (mbHdr (mbReq 9 0 0 0 0 [])).op = 9 ∧ (mbHdr (mbReq 1 0 0 0 0 [])).op = 1 ∧ (mbHdr (mbReq 1 0 0 0 0 [])).op ≠ 9 ∧ (getFn (mailed { mbBusy := true }) 0).mbBusy = true ∧
    (getFn (mailed {}) 0).mbBusy = false ∧ recording (mailed {}) 0xFF = false ∧ mbWhole (mbReq 1 0 0 0 0 []) = true ∧ mbWhole (mbReq 1 0 0 1 0 []) = false ∧
    (mbCerts (mailed {}) (mbReq 1 0 0 0 0 [])).2.1 = 0 ∧ 16 + (mbCerts (mailed {}) (mbReq 1 0 0 0 0 [])).2.2.length ≤ mbCap (mailed {}) 0 ∧
    (mbCerts (mailed {}) (mbReq 1 0 0 1 0 [0])).2.1 ≠ 0 ∧ (mbLog (mailed {}) (mbReq 3 0 0 12 0 (natLe 0 8 ++ natLe 512 4))).2.1 = 0 ∧
    (mbLog (mailed {}) (mbReq 3 0 0 12 0 (natLe 0 8 ++ natLe 513 4))).2.1 ≠ 0 ∧ (getFn (mailed { mbBusy := true, mbDiscard := true }) 0).mbDiscard = true ∧
    hostUp (hosting (mailed {})) 0 = true ∧ (getFn (mailed { mbBusy := true, mbRsp := [1] }) 0).mbRsp ≠ [] := by
  decide +kernel

theorem wit_SecurityEffects_lock : (mbHdr (mbReq 1 0 0 0 0 [])).len = 0 ∧ mbPart tabled 0 0 = true ∧ mbPart tabled 0 1 = false ∧ isLocked tabled 0 = false ∧
    (mbLock tabled 0 (mbReq 4 0 0 105 0 (owner ++ natLe 0 8))).2.1 = 0 ∧ (mbUnlock lockedUp 0 (signed (mbReq 5 0 1 0 1 []))).2.1 = 0 := by
  decide +kernel

theorem wit_SecurityEffects_keys : (mbDestroy lockedUp 0 (signed (mbReq 8 0 1 1 1 [255]))).2.1 = 0 ∧ (getSlot lockedUp 255).used = true ∧ (getSlot lockedUp 0).used = false ∧
    (mbHdr (mbReq 6 0 1 130 1 [])).len = 130 ∧ mbPart lockedUp 0 0 = true ∧ ownerCheck lockedUp 0 (signed (mbReq 6 0 1 130 1 (natLe 0 1 ++ owner ++ natLe 0 32))) true = 0 := by
  decide +kernel

theorem wit_SecurityEffects_import : (mbImport lockedUp 0 (signed (mbReq 7 0 1 78 1 wrapped))).2.1 = 0 := by decide +kernel

def secured (st : Nat) : State := { hosting up with sec := { up.sec with ide := [(16, st)] } }

theorem wit_SecurityEffects : (mbSvn up 0 (mbReq 9 0 0 0 0 [])).2.1 = 0 ∧ fwUp dark = false ∧ dark.phase ≠ .failed ∧ fwUp up = true ∧ (phased .failed).phase = .failed ∧
    onDie dark = false ∧ up.host.width = 0 ∧ (hosting up).host.width ≠ 0 ∧ tget (fun _ => 0) (secured 0).sec.ide 16 ≠ 1 ∧
    tget (fun _ => 0) (secured 1).sec.ide 16 = 1 ∧ onDie (secured 1) = true := by
  decide +kernel

/-! ## The host, faults -/

theorem wit_HostLink : up.phase = .run ∧ up.phase ≠ .stopping ∧ dark.phase ≠ .run ∧ (16 = 16 ∧ (7 : Nat) ≤ 7) ∧ railsOn dark = false ∧ railsOn up = true ∧ up.host.downLogged = false ∧
    { up.host with downLogged := true }.downLogged = true ∧ (hosting up).host.width ≠ 0 ∧ up.host.width = 0 ∧ (hosting up).host.width = 16 ∧ 16 ≠ up.host.width := by
  decide +kernel

theorem wit_FunctionResets : railsOn dark = false ∧ railsOn up = true ∧ fnLive up (0 + 1) = true ∧ fnLive up (15 + 1) = false ∧
    eEnabled (entryOf (withStream up str0 {}) 0) = true ∧ eJournal (entryOf (withStream up str0 {}) 0) = false ∧ (getCtx (withStream up str0 {}) 0).isSome = true ∧
    eEnabled (entryOf up 0) = false := by
  decide +kernel

theorem wit_FunctionsAndVectors : (16 : Fin 18) ≠ 17 ∧ railsOn dark = false ∧ railsOn up = true ∧ mayWrite dark 0 R.MOD_INT_CAUSE = false ∧ mayWrite up 1 R.MOD_INT_CAUSE = true ∧
    mayWrite dark 0 R.MOD_INT_MASK = false ∧ mayWrite up 1 R.MOD_INT_MASK = true ∧ fld (0x1FF : W64) 8 0 ≠ 0 ∧ fld (0x200 : W64) 8 0 = 0 ∧
    fnLive up (fnOfVec 367) = true ∧ fnOfVec 367 = 1 ∧ fnLive up (fnOfVec 368) = false ∧ (getFn up 1).d3 = false ∧
    (getMsix { up with msix := [(367, { pba := true })] } 367).pba = true ∧ (getMsix up 367).pba = false ∧ hostUp (hosting up) (fnOfVec 367) = true ∧
    hostUp up (fnOfVec 367) = false := by
  decide +kernel

theorem wit_BarTwoAccess : railsOn (hosting up) = true ∧ (hosting up).host.width ≠ 0 ∧ (0 : Fin 18) ≠ 17 ∧ (getFn (hosting up) 0).d3 = false ∧ up.host.width = 0 ∧
    fld (getReg up R.STK_BAR2_PART) 3 0 = 0 ∧ fnLive (hosting up) 0 = true ∧ isLocked up 0 = false ∧ isLocked lockedUp 0 = true ∧
    relMapped up 0 (regionSize up 0 - 32) 32 = true ∧ relMapped up 0 (regionSize up 0 - 31) 32 = false ∧ (relToSa up 0 (regionSize up 0 - 32)).isSome = true ∧
    saAllowed up 0 (regionBase up 0 + regionSize up 0 - 32) 32 = true ∧
    (let s := { up with tun := { up.tun with cur := { tuning0 with partCount := 2, cores := [1, 2], size := [4, 4], base := [0, 2], swap := [0, 0], shared := 1 } } }
     relMapped s 2 0 0 = false ∧ relToSa s 1 0 ≠ relToSa s 0 0) := by
  refine ⟨?_, ?_, ?_, ?_, ?_, ?_, ?_, ?_, ?_, ?_, ?_, ?_, ?_, ?_⟩ <;> decide +kernel

def rec0 : FaultRec := ⟨1, 0, 0x801, 0, 0, 0, 0, 0, 0, 0, 0, 2⟩
def opened : State := { up with flog := { up.flog with opens := [⟨rec0, 1000⟩] }, clk := { up.clk with time := 1000 } }
def flashed (q : List Nat) (h : Nat) : State := { up with flash := { up.flash with quarantine := q, hwErr := [(255, some 0)], hours := h } }

theorem wit_FaultsAndQuarantine : opened.flog.opens[0]? = some ⟨rec0, 1000⟩ ∧ 1000 ≤ opened.clk.time ∧ opened.flog.opens[1]? = none ∧ { opened.clk with time := 999 }.time < 1000 ∧
    mayWrite dark 0 R.DBG_FLOG_TAIL = false ∧ mayWrite up 0 R.DBG_FLOG_TAIL = true ∧ onDie dark = false ∧ isFused up 255 = false ∧ onDie up = true ∧
    lastHw (flashed [] 24) 255 = some 0 ∧ (flashed [] 24).flash.hours ≤ 0 + 24 ∧ ¬ (flashed [] 25).flash.hours ≤ 0 + 24 ∧ lastHw (flashed [] 24) 0 = none ∧
    (flashed [255] 0).flash.quarantine.contains 255 = true ∧ 16 ≤ (flashed (List.range 16) 0).flash.quarantine.length ∧ (flashed (List.range 15) 0).flash.quarantine.length < 16 ∧
    mayWrite dark 0 R.DBG_QUAR_CTRL = false ∧ mayWrite up 17 R.DBG_QUAR_CTRL = true ∧ (0x1FF : W64).getLsbD 8 = true ∧ (0x2FF : W64).getLsbD 9 = true ∧ fld (0x1FF : W64) 7 0 = 255 ∧
    (0x2FF : W64).getLsbD 8 = false ∧ (0x1FF : W64).getLsbD 9 = false ∧ fretOf up (arrOf 0 1) = some (0, 1) ∧ fretOf up (arrOf 1 0) = none := by
  decide +kernel

/-- A request waits in the management core's line. -/
def queued : State := { mailed { mbBusy := true, mbHeld := some [] } with tun := { up.tun with jobs := [.box 0] } }
theorem wit_MailboxCommands_line : coreNow (mailed {}) = true ∧ coreNow queued = false ∧ (getFn queued 0).mbHeld ≠ none ∧ (getFn queued 0).mbBusy = true := by decide +kernel

theorem wit_HostLink_was : up.host.was = (0, 0) ∧ { up.host with was := (16, 7) }.was ≠ (0, 0) ∧ { up.host with was := (16, 7) }.was = (16, 7) ∧
    backToNormal 0 40000 = true := by decide +kernel

/-! ## Debug, registers and the bus -/

def debugged (ctrl status : W64) (l : List Claim) : State :=
  let s := claims l
  { s with regs := tput (tput s.regs R.DBG_CTRL ctrl) R.DBG_STATUS status }
/-- Pin GPX0 is an input of feature `f`, taken at 0. -/
def pinned (f t : Nat) (aux : Bool) : State :=
  let s := debugged 1 1 [⟨0, claimValue f 0 0⟩]
  { s with gpx := [(0, { takenAt := some 0 })], clk := { s.clk with time := t, aux := aux } }

theorem wit_RecordMode : mayWrite dark 0 R.DBG_CTRL = false ∧ mayWrite up 0 R.DBG_CTRL = true ∧ (getReg (debugged 1 0 []) R.DBG_CTRL).getLsbD 0 = true ∧
    (getReg up R.DBG_CTRL).getLsbD 0 = false ∧ fld (getReg (debugged 0 4 []) R.DBG_STATUS) 3 2 = 1 ∧ fld (getReg up R.DBG_STATUS) 3 2 ≠ 1 ∧
    (ownerOf (debugged 0 0 [⟨10, claimValue 4 10 0⟩]) 10).map (fun o => claimFeat o.1) = some 4 ∧ ownerOf up 10 = none ∧
    (ownerOf (debugged 0 0 [⟨10, claimValue 3 10 0⟩]) 10).map (fun o => claimFeat o.1) = some 3 ∧ (getReg (debugged 4 0 []) R.DBG_CTRL).getLsbD 2 = true ∧
    (getReg up R.DBG_CTRL).getLsbD 2 = false ∧ fld (getReg (debugged 1 2 []) R.DBG_STATUS) 1 0 = 2 ∧ fld (getReg (debugged 1 1 []) R.DBG_STATUS) 1 0 = 1 ∧
    fld (getReg (debugged 1 3 []) R.DBG_STATUS) 1 0 = 3 ∧ fld (getReg up R.DBG_STATUS) 1 0 = 0 ∧ onDie dark = false ∧
    (getGpx (pinned 1 999 true) 0).takenAt = some 0 ∧ (pinned 1 999 true).clk.time < 0 + 1000 ∧ ¬ (pinned 1 1000 true).clk.time < 0 + 1000 ∧
    ownedBy (pinned 1 1000 true) 0 1 = true ∧ (pinned 1 1000 false).clk.aux = false ∧ ownedBy (pinned 2 1000 false) 0 1 = false ∧
    ownedBy (pinned 2 1000 false) 0 2 = true ∧ ownedBy (pinned 7 1000 false) 0 2 = false ∧ fld (getReg (pinned 2 1000 false) R.DBG_STATUS) 1 0 = 1 := by
  decide +kernel

/-- Replay of partition 0 is under way. -/
def replays : State := { debugged 0x10 4 [] with regs := tput (tput (tput (tput [] R.DBG_CTRL 0x10) R.DBG_STATUS 4) R.DBG_REC_PARTS 1) R.DBG_REC_SIZE 4096 }
def replaysWith (d : DbgSt) (t : Nat) : State := { replays with dbg := d, clk := { up.clk with time := t } }
def entryOf0 (typ fmt part : Nat) (body : List Byte) : List Byte := natLe 0 16 ++ natLe typ 1 ++ natLe fmt 1 ++ natLe part 1 ++ natLe 0 1 ++ natLe body.length 4 ++ natLe 0 8 ++ body
def asking (parts : W64) : State := { up with regs := tput up.regs R.DBG_REC_PARTS parts }

theorem wit_ReplayMode : mayWrite dark 0 R.DBG_CTRL = false ∧ fld (getReg replays R.DBG_STATUS) 3 2 = 1 ∧ fld (getReg (asking 1) R.DBG_STATUS) 3 2 ≠ 1 ∧
    (getReg (debugged 1 0 []) R.DBG_CTRL).getLsbD 0 = true ∧ (getReg (asking 1) R.DBG_CTRL).getLsbD 0 = false ∧ (getReg (asking 0x8000) R.DBG_REC_PARTS).getLsbD 15 = true ∧
    partIdle (asking 1) 0 = true ∧ partIdle busy 0 = false ∧ (getReg (asking 1) R.DBG_REC_PARTS) = 1 ∧ isLocked lockedUp 0 = true ∧ isLocked (asking 1) 0 = false ∧
    ownerOf (asking 1) 10 = none ∧ onDie replays = true ∧ onDie dark = false ∧ replays.dbg.waitData = [] ∧ { replays.dbg with waitData := [(0, [])] }.waitData ≠ [] ∧
    leAt (entryOf0 15 0 255 []) 16 1 = 15 ∧ leAt (entryOf0 6 0 0 []) 16 1 ≠ 15 ∧ leAt (entryOf0 8 0 15 []) 18 1 = 15 ∧ (getReg replays R.DBG_REC_PARTS).getLsbD 15 = false ∧
    (getReg replays R.DBG_REC_PARTS).getLsbD 0 = true ∧ (replayApply replays 6 0 0 0 [] []).isNone = true ∧
    (replayApply { replays with regs := tput replays.regs (R.COR_PROG_STATUS 0) 2 } 6 0 0 0 [] []).isNone = false ∧
    replayBad replays 8 1 0 [] [] = true ∧ replayBad replays 8 0 0 [] [] = false ∧ (replayApply replays 1 0 0 0 (natLe 0 32) []).isNone = true ∧
    (replayApply replays 8 0 0 0 (natLe 0 16) []).isSome = true ∧ ((0 + (entryOf0 8 0 0 (natLe 0 16)).length) % max 1 (getReg replays R.DBG_REC_SIZE).toNat = 48) ∧
    getReg replays R.DBG_REC_HEAD = getReg replays R.DBG_REC_TAIL ∧
    (replaysWith { replays.dbg with waitSince := some 0 } 2000001).dbg.waitSince = some 0 ∧ 0 + 2000000 < (replaysWith replays.dbg 2000001).clk.time ∧
    ¬ 0 + 2000000 < (replaysWith replays.dbg 2000000).clk.time := by
  decide +kernel

def traced (l : List (List Byte)) : State := { up with dbg := { up.dbg with trace := l } }
def pulses (e : Nat) : State := { up with gpx := [(1, { high := true, endAt := some e })], clk := { up.clk with time := 1000 } }

theorem wit_TraceAndPulse : (getReg (debugged 0 16 []) R.DBG_STATUS).getLsbD 4 = true ∧ (getReg up R.DBG_STATUS).getLsbD 4 = false ∧ mayWrite dark 0 R.DBG_CTRL = false ∧
    mayWrite up 0 R.DBG_CTRL = true ∧ (0x20 : W64).getLsbD 5 = true ∧ (0 : W64).getLsbD 5 = false ∧
    (getReg { lockedUp with regs := tput lockedUp.regs (R.DBG_TRACE_CORES 3) 0x8000000000000000 } (R.DBG_TRACE_CORES (255 / 64))).getLsbD (255 % 64) = true ∧
    partOfCore lockedUp 255 = some 0 ∧ isLocked lockedUp 0 = true ∧ (∀ p, p < 16 → isLocked up p = false) ∧
    (ownerOf (debugged 0 0 [⟨10, claimValue 3 10 0⟩]) 10).map (fun o => claimFeat o.1) = some 3 ∧ ownerOf up 10 = none ∧
    (ownerOf (debugged 0 0 [⟨10, claimValue 4 10 0⟩]) 10).map (fun o => claimFeat o.1) = some 4 ∧ (traced []).dbg.trace = [] ∧ (traced [[1]]).dbg.trace ≠ [] ∧
    (getGpx (pulses 1000) 1).high = true ∧ (getGpx (pulses 1000) 1).endAt = some 1000 ∧ 1000 ≤ (pulses 1000).clk.time ∧ ¬ 1001 ≤ (pulses 1001).clk.time := by
  decide +kernel

theorem wit_RegisterAccesses : regsUp dark = false ∧ regsUp up = true ∧ (getFn up 0).d3 = false ∧ (0xFFF8 % 8 = 0) ∧ (0xFFFC % 4 = 0) ∧ ¬ 0xFFFC % 8 = 0 ∧
    isMsix (0x1FFFFFC / 8 * 8) = false ∧ isMsix 0x2000000 = true ∧ fnSees up 1 R.STM_RECOVER = false ∧ fnSees up 1 R.STM_CMD = true ∧ fnSees up 1 0x1FF0000 = true ∧
    isCredit R.MOD_STATUS = false ∧ isCredit 0x7B1B8 = true ∧ (regAt R.MOD_STATUS).isSome = true ∧ (regAt 0xF8).isNone = true ∧ openBits up R.MOD_STATUS = 0 ∧
    (regAt R.STM_DB_STALE).isSome = true := by
  decide +kernel

theorem wit_RegisterWrites : (0xFFFC % 8 ≠ 0) ∧ R.MOD_STATUS ≠ R.MOD_RESET_CTRL ∧ onDie dark = false ∧ isMsix R.DBG_REC_SIZE = false ∧ mayWrite up 17 R.DBG_REC_SIZE = false ∧
    mayWrite up 0 R.DBG_REC_SIZE = true ∧ R.DBG_REC_SIZE % 8 = 0 ∧ (writeOwn up 0 R.DBG_REC_SIZE 1 0).isNone = true ∧ (regAt R.DBG_REC_SIZE).isSome = true ∧
    (writeOwn up 0 R.MOD_INT_MASK 1 0).isSome = true ∧ mayWrite up 0 R.MOD_INT_CAUSE = true ∧ mayWrite up 0 R.MOD_INT_MASK = true ∧ mayWrite up 0 R.CLK_TIME_SEED = true ∧
    mayWrite up 0 R.DBG_FLOG_TAIL = true ∧ fld (0xC501 : W64) 2 0 = 1 ∧ fld (0xC502 : W64) 2 0 = 2 ∧ fld (0xC505 : W64) 2 0 = 5 ∧ fnLive up 1 = true ∧ onDie up = true ∧
    (getFn up 1).d3 = false ∧ (111 < 112) ∧ (255 < 256) ∧ (0x1FFFFFFFF : W64).getLsbD 32 = true := by
  decide +kernel

def reported : State := { up with tun := { up.tun with busReport := [⟨1, 0, 2, 3, 0, 0, 5, 4⟩] } }
def loads (bus : Bool) : State := { up with regs := tput up.regs R.TUN_STATUS 1, tun := { up.tun with busLoad := bus } }

theorem wit_BusRegistersAndBuffers : busUp dark = false ∧ busUp up = true ∧ (0xFFF8 % 8 = 0) ∧ (0xFFF9 % 8 ≠ 0) ∧ busWritable R.DBG_QUAR_CTRL = true ∧ busWritable R.TUN_CTRL = false ∧
    tunBusy (loads true) = true ∧ (loads true).tun.busLoad = true ∧ (getFn { up with fns := [(17, { mbBusy := true })] } 17).mbBusy = true ∧ (List.replicate 240 (0 : Byte)).length ≤ 240 ∧
    240 < (List.replicate 241 (0 : Byte)).length ∧ 1048336 + 240 ≤ 1048576 ∧ 65536 < 65297 + 240 ∧ tunBusy up = false ∧ (getFn up 17).mbBusy = false ∧
    { up.sec with busRsp := List.replicate 16 0 }.busRsp.length < 1 + 16 ∧ 0 + 16 ≤ { up.sec with busRsp := List.replicate 16 0 }.busRsp.length ∧
    reported.tun.busReport[0]? = some ⟨1, 0, 2, 3, 0, 0, 5, 4⟩ ∧ reported.tun.busReport[1]? = none := by
  decide +kernel

theorem wit_BusCommands : busUp dark = false ∧ dark.phase ≠ .failed ∧ busUp up = true ∧ (1048576 ≤ 1048576) ∧ (65536 ≤ 65536) ∧ fwUp (phased .stopped) = false ∧ busUp (phased .stopped) = true ∧ fwUp up = true ∧
    tunBusy (loads false) = true ∧ tunBusy up = false ∧ replaying up (mbHdr (memRead up.sec.busReq 0 65536)).part = false ∧ (getFn { up with fns := [(17, { mbBusy := true })] } 17).mbBusy = true ∧
    (getFn up 17).mbBusy = false ∧ (sensorOf up 20).isSome = true ∧ (sensorOf up 21).isSome = false ∧ onDie dark = false ∧ onDie up = true ∧ up.flash.locks = [] ∧
    (∀ p, p < 16 → loadedProgs up p = []) ∧ lockedUp.flash.locks ≠ [] := by
  decide +kernel

theorem wit_VirtualFunctionsServeTheirPartitions : (16 : Fin 18) ≠ 0 ∧ (16 : Fin 18) ≠ 17 ∧ ¬ (16 - 1 < up.tun.cur.partCount) ∧ (1 - 1 < up.tun.cur.partCount ∧ coreMask up 0 ≠ 0) ∧
    (let s := { up with tun := { up.tun with cur := { tuning0 with partCount := 16, cores := [BitVec.allOnes 256] } } }
     15 < s.tun.cur.partCount ∧ ¬ coreMask s 15 ≠ 0) ∧ regsUp up = true ∧ (getFn up 16).d3 = false ∧ barOpen (hosting up) 16 = true ∧ fnOfVec 2047 = 16 := by
  decide +kernel

theorem wit_AStepRunsTheFrontCommand : up.pending = [] ∧ timeRuns up = true ∧ timeRuns dark = false := by decide +kernel

theorem wit_EveryStepKeepsTheLegalPart : ∃ t, LegalPart State.reset.part ∧ step State.reset = .next t :=
  ⟨_, ⟨Or.inl ⟨rfl, rfl⟩, fun c h => absurd h (by simp [State.reset, Part.first]), by simp [State.reset, Part.first], by decide⟩, rfl⟩

theorem wit_AFusedCoreStaysFused : ∃ t, step State.reset = .next t := ⟨_, rfl⟩

def long240 : LinkUnit := { unit0 21 4095 with data := List.replicate 240 0 }
/-- A port whose link is encrypted. -/
def secret : Port := { portOn with crypt := true, key := List.replicate 32 0 }

theorem wit_WordsReadBack : (pkt 0 0).wf = true ∧ (pkt 0 (2 ^ 36 - 256)).wf = true ∧ (headerParse (headerBits (pkt 1 0)) (pkt 1 0).data).isSome = true ∧
    (unit0 21 4095).wf = true ∧ { unit0 17 0 with mcast := true }.wf = true ∧ (ctrl0 none).wf = true ∧ (ctrl0 (some (23, 4095))).wf = true ∧
    secret.rxCtr = secret.txCtr ∧ long240.wf = true ∧ long240.data.length ≤ 240 ∧ spoilt.crc ≠ unitCrc spoilt.header spoilt.data ∧
    { spoilt with data := [] }.data.length ≠ bits { spoilt with data := [] }.header.toNat 7 0 + 1 ∧ (List.replicate 32 (0 : Byte)).length = 32 ∧
    (image0 4).length = 128 ∧ (image0 4)[65]? = some 0 ∧ (image0 4).drop 112 = List.replicate 16 0 := by
  refine ⟨?_, ?_, ?_, ?_, ?_, ?_, ?_, ?_, ?_, ?_, ?_, ?_, ?_, ?_, ?_, ?_⟩ <;> decide +kernel

theorem wit_WordsReadBack_secret : openUnit secret (wireUnit secret (unitHeader (unit0 16 0)) (unit0 16 0).data) = some (unit0 16 0).data := by decide +kernel

/-! ## Ill-formed commands are refused -/

theorem test_wf_tuning : (Instr.tuningLoad 0 []).wf = true ∧ (Instr.featureEnable 256 0 0).wf = false ∧ (Instr.featureEnable 0 11 0).wf = false ∧
    (Instr.featureEnable 0 0 16).wf = false ∧ (Instr.featureDisable 256 0).wf = false ∧ (Instr.featureDisable 0 11).wf = false ∧ (Instr.featureEnable 255 10 15).wf = true := by
  decide

theorem test_wf_arrays : (Instr.lds 0 0 (.queue 0) 0 .e2m1 ⟨2097152, 0, 0⟩ ⟨0, 0, 0⟩ 0 false).wf = false ∧ (Instr.lds 0 0 (.queue 0) 0 .e2m1 ⟨0, 0, 0⟩ ⟨2097152, 0, 0⟩ 0 false).wf = false ∧
    (Instr.bow 0 0 ⟨2097152, 0, 0⟩ 0).wf = false ∧ (Instr.mv 0 ⟨2097152, 0, 0⟩ 0 none).wf = false ∧ (Instr.bow 0 0 ⟨2097151, 0, 0⟩ 0).wf = true := by decide

theorem test_wf_registers : (Instr.readClear 0 0x4000000 64 0).wf = false ∧ (Instr.readClear 0 0 65 0).wf = false ∧ (Instr.registerWrite 0 0x4000000 64 0 0).wf = false ∧
    (Instr.registerWrite 0 0 65 0 0).wf = false ∧ (Instr.regRead 4294967296 0).wf = false ∧ (Instr.regWrite 4294967296 0 0).wf = false ∧
    (Instr.partTableWrite 0 0x4000000 0).wf = false ∧ (Instr.doorbell 0 1024 0 0 64).wf = false ∧ (Instr.doorbell 0 0 512 0 64).wf = false ∧
    (Instr.doorbell 0 0 0 0 65).wf = false ∧ (Instr.doorbell 0 1023 511 0 64).wf = true ∧ (Instr.bar2Read 0 68719476736 1 .ok).wf = false ∧
    (Instr.bar2Write 0 68719476736 [0] .ok).wf = false := by decide

theorem test_wf_packets : (pkt 0 0).wf = true ∧ { pkt 0 0 with addr := 2 ^ 36 }.wf = false ∧ { pkt 0 0 with tag := 1024 }.wf = false ∧ { pkt 0 0 with part := 16 }.wf = false ∧
    { pkt 0 0 with len := 256 }.wf = false ∧ { pkt 0 0 with typ := 16 }.wf = false ∧ { pkt 0 0 with srcEp := 8 }.wf = false ∧ { pkt 0 0 with srcRouter := 256 }.wf = false ∧
    { pkt 0 0 with dstEp := 8 }.wf = false ∧ { pkt 0 0 with dstRouter := 256 }.wf = false ∧ (pkt 0 225).wf = false ∧ (Instr.meshBadPacket (pkt 0 225)).wf = false := by
  decide

theorem test_wf_streams : (Instr.create 0 1048576 []).wf = false ∧ (Instr.destroy 0 1048576).wf = false ∧ (Instr.rearm 0 1048576).wf = false ∧ (Instr.query 0 1048576).wf = false ∧
    (Instr.evict 0 1048576).wf = false ∧ (Instr.descriptorPrefetch 1048576 []).wf = false ∧ (Instr.descriptorAccept 1048576 [] true).wf = false ∧
    (Instr.descriptorFinish 1048576 0 0 0 [] .ok).wf = false ∧ (Instr.contextLoad 1048576 []).wf = false ∧ (Instr.contextWritebackDone 1048576).wf = false ∧
    (Instr.journalWriteDone 1048576).wf = false ∧ (Instr.e2eAckSend 1048576).wf = false ∧ (Instr.fabE2eRetransmit 1048576).wf = false ∧
    (Instr.e2eAck ⟨0, true, none, 0⟩ 1048576 0 0).wf = false ∧ (Instr.e2eAck ⟨0, true, none, 65536⟩ 0 0 0).wf = false ∧ (Instr.evict 0 1048575).wf = true ∧ (Instr.msixMergeExpiry 2048).wf = false ∧ (Instr.msixUnmask 2048).wf = false := by
  decide

theorem test_wf_fabric : (Instr.portUp 0 6 0).wf = false ∧ (Instr.portUp 0 8 65536).wf = false ∧ (Instr.dataUnit 0 ⟨0, [], 0⟩ (0, 0)).wf = false ∧
    (Instr.mcastUnit 0 ⟨0, List.replicate 257 0, 0⟩ (0, 0)).wf = false ∧ (unit0 24 0).wf = false ∧ (unit0 0 4096).wf = false ∧ { unit0 0 0 with data := [] }.wf = false ∧
    (Instr.controlUnit 0 ⟨0, [], 0⟩ (0, 0)).wf = false ∧ (⟨[], [], none⟩ : CtrlUnit).wf = false ∧ (ctrl0 (some (24, 0))).wf = false ∧ (Instr.linkDown 0 65536 0 true).wf = false ∧ (Instr.linkUp 0 0 4 true).wf = false ∧
    (Instr.reserve none { adm0 with slots := 5 }).wf = false ∧ (Instr.grant none { adm0 with slots := 0 }).wf = false ∧ (Instr.refuse none { adm0 with src := 65536 }).wf = false ∧
    (Instr.release none { adm0 with dst := 65536 }).wf = false ∧ (Instr.reserve none adm0).wf = true := by decide +kernel

theorem test_wf_exchange : (Instr.g1Unit 0 ⟨0, [], 0⟩ (0, 0)).wf = false ∧ (Instr.reduceScatterUnit 0 ⟨0, [], 0⟩ (0, 0)).wf = false ∧
    (Instr.allGatherUnit 0 ⟨0, [], 0⟩ (0, 0)).wf = false ∧ (Instr.fingerprintUnit 0 0 [] 0 (0, 0)).wf = false ∧ (Instr.ready ⟨0, 0, 0⟩ 65536 (msg0 0 false)).wf = false ∧ (Instr.sealStep ⟨0, 0, 0⟩ 0 (2 ^ 64)).wf = false ∧
    (Instr.sealAck ⟨0, 0, 0⟩ ⟨0, (2 ^ 64)⟩).wf = false ∧ (Instr.abort ⟨0, 0, 0⟩ 0 ⟨0, 65536⟩).wf = false ∧ (Instr.decisionAck ⟨0, 65536, 0⟩ 0 0).wf = false ∧ (Instr.decisionQuery ⟨0, 0, 0⟩ 0 (some (2 ^ 64))).wf = false ∧ (Instr.decisionAnswer ⟨0, 0, 0⟩ 0 0 ⟨.sealed, (2 ^ 64), 0⟩).wf = false ∧
    (Instr.ready ⟨0, 0, 0⟩ 65535 (msg0 0 false)).wf = true := by decide

theorem test_wf_power : (Instr.zoneStretch 0 24 0).wf = false ∧ (Instr.zoneStretch 0 0 64).wf = false ∧ (Instr.supplyHigh 131072).wf = false ∧ (Instr.supplyThrottle 131072).wf = false ∧
    (Instr.supplyNormal 131072).wf = false ∧ (Instr.supplyStop 131072).wf = false ∧ (Instr.supplyRideThrough 131072).wf = false ∧ (Instr.holdupCharged 131072).wf = false ∧
    (Instr.powerOn 131072).wf = false ∧ (Instr.gateEval [] 0 0).wf = false ∧ (Instr.telemetrySample 0 0 0 []).wf = false ∧ (Instr.hostLinkChange 17 0 0).wf = false ∧
    (Instr.hostLinkChange 16 8 0).wf = false ∧ (Instr.hostLinkChange 16 0 3).wf = false ∧ (Instr.bufWrite 2 0 []).wf = false ∧ (Instr.tunLoad true 4294967296).wf = false ∧
    (Instr.tunReport 65536).wf = false ∧ (Instr.secGo 65536).wf = false ∧ (Instr.bufRead 0 241).wf = false ∧ (Instr.bufRead 0 240).wf = true := by decide

/-! ## Single steps and published vectors -/

/-- The state a command answers. -/
def after (i : Instr) (s : State) : State := match exec i s with | .next t => t | _ => s
def grs (op : SlotOp) (l : Tbl W64) : State := withCore (headCore .c op { core0 with gr := l })
def grAfter (i : Instr) (op : SlotOp) (l : Tbl W64) (n : Nat) : W64 := gr (getCore (after i (grs op l)) 0) n

/-- R169: arithmetic is modulo 2^64; GR0 reads as zero. -/
theorem test_add_wraps : grAfter (.add 0 1 2 (.reg 3)) (.add 1 2 (.reg 3)) [(2, 0xFFFFFFFFFFFFFFFF), (3, 2)] 1 = 1 := by decide +kernel
theorem test_sub_borrows : grAfter (.sub 0 1 2 (.imm 3)) (.sub 1 2 (.imm 3)) [(2, 1)] 1 = 0xFFFFFFFFFFFFFFFE := by decide +kernel
theorem test_movi_gr0 : grAfter (.movi 0 0 7) (.movi 0 7) [] 0 = 0 ∧ grAfter (.movi 0 31 7) (.movi 31 7) [] 31 = 7 := by decide +kernel
theorem test_shr_63 : grAfter (.shr 0 1 2 (.imm 63)) (.shr 1 2 (.imm 63)) [(2, 0x8000000000000000)] 1 = 1 := by decide +kernel
theorem test_logic : grAfter (.and 0 1 2 (.imm 6)) (.and 1 2 (.imm 6)) [(2, 12)] 1 = 4 ∧ grAfter (.or 0 1 2 (.imm 6)) (.or 1 2 (.imm 6)) [(2, 12)] 1 = 14 ∧
    grAfter (.xor 0 1 2 (.imm 6)) (.xor 1 2 (.imm 6)) [(2, 12)] 1 = 10 := by decide +kernel

/-- R220, R221: a packet's header by the manual's table, from bit 95 down; NET of READ_DATA is the response network. -/
theorem test_packet_header : headerBits ⟨true, 0x123456780, 0x155, 9, 31, 8, 3, 0xA5, 0, 0x3C, []⟩ =
    0#10 ++ 1#1 ++ 0x123456780#36 ++ 0x155#10 ++ 9#4 ++ 31#8 ++ 8#4 ++ 1#1 ++ 3#3 ++ 0xA5#8 ++ 0#3 ++ 0x3C#8 := by decide +kernel

/-- R247: a unit's header by the manual's table, from bit 79 down: VC, UTYPE, LAST, LSEQ, DST, DST_STREAM, ESEQ, LEN. -/
theorem test_unit_header : unitHeader ⟨17, true, true, 0xABC, 0x1234, 0x56789, 0xCDEF, []⟩ 240 =
    17#5 ++ 3#2 ++ 1#1 ++ 0xABC#12 ++ 0x1234#16 ++ 0x56789#20 ++ 0xCDEF#16 ++ 239#8 := by decide +kernel

/-- R232: a descriptor by its offsets. -/
theorem test_descriptor : descParse (natLe 0x1122334455667788 8 ++ natLe 0x99AABBCC 8 ++ natLe 4096 4 ++ natLe 5 2 ++ natLe 7 2 ++ natLe 0xFEED 8) =
    ⟨0x1122334455667788, 0x99AABBCC, 4096, 5, 7, 0xFEED⟩ := by decide +kernel

/-- R4, R439: MOD_IDENTITY of grade MFY2-256-12 over the management bus. -/
theorem test_identity : (after (.regRead 0 0) up).out.getLast? = some (.mgmt 0 [0x59, 1, 0, 1, 4, 0, 0, 0]) := by decide +kernel

/-- R440: a register that the bus may not write answers NOT_PERMITTED. -/
theorem test_bus_write : (after (.regWrite R.TUN_CTRL 1 0) up).out.getLast? = some (.mgmt 2 []) := by decide +kernel

/-- R340: below 40 V the gates close to 2 of 16. -/
theorem test_throttle : getGate (after (.supplyThrottle 39999) up) 15 = 2 ∧ getGate (after (.supplyThrottle 40000) up) 15 = 16 := by decide +kernel

/-- R324, R325: a code of 4 stretches by two cycles and alerts, one of 8 by one cycle. -/
theorem test_stretch : (getZone (after (.zoneStretch 3 0 4) up) 3).stretched = 2 ∧ (getZone (after (.zoneStretch 3 0 4) up) 3).alert = true ∧
    (getZone (after (.zoneStretch 3 0 8) up) 3).stretched = 1 ∧ (getZone (after (.zoneStretch 3 0 9) up) 3).stretched = 0 := by decide +kernel

/-- R338: a zone that loses lock runs at 425 MHz. -/
theorem test_lock_lost : (getZone (after (.zoneLockLost 15) (zoned { locked := true, applied := 850 })) 15).applied = 425 := by decide +kernel

/-- R399, R405: the list of cores takes 16. -/
theorem test_quarantine : (after (.quarantineAdd 0 0x1FF) up).flash.quarantine = [255] ∧ (after (.quarantineAdd 0 0x1FF) (flashed (List.range 16) 0)).flash.quarantine.length = 16 := by
  decide +kernel

/-- R194, R196: a write of the stack is read back, and its poison is cleared. -/
theorem test_stack : (after (.meshRead (pkt 0 64) .ok) (after (.meshWrite (pkt 1 64) .ok) up)).out.getLast? = some (.mesh (answerOf (pkt 0 64) 8 false (List.replicate 32 7))) := by
  decide +kernel

/-- R206: an unsigned addition of the shared region returns the old bytes. -/
theorem test_atom : (let s := after (.meshAtom ⟨false, windowBase shares 0, 0, 0, 3, 2, 0, 0, 16, 0, [5, 0, 0, 0]⟩ ⟨.add, .uint32⟩ .ok) shares
    cacheByte s (windowBase shares 0) = 5 ∧ s.out.getLast? = some (.mesh (answerOf ⟨false, windowBase shares 0, 0, 0, 3, 2, 0, 0, 16, 0, [5, 0, 0, 0]⟩ 10 false [0, 0, 0, 0]))) := by
  decide +kernel

/-- R238: a doorbell moves PRODUCER; one that names another generation is refused with its code. -/
theorem test_doorbell : (entryOf (after (.doorbell 0 0 0 0xFFFF00000003 64) (paged (withStream up str0 {}) 0)) 0).producer = 3 ∧
    fld (getReg (after (.doorbell 0 0 0 3 64) (paged (withStream up str0 {}) 0)) R.MOD_FAULT_SUM) 63 48 = 0x503 := by decide +kernel

/-- R13, R390: a written one clears its cause, unless its event comes in the same cycle. -/
theorem test_cause : getReg (after (.modIntCauseClear 0 4 0) { up with regs := tput up.regs R.MOD_INT_CAUSE 5 }) R.MOD_INT_CAUSE = 1 ∧
    getReg (after (.modIntCauseClear 0 4 4) { up with regs := tput up.regs R.MOD_INT_CAUSE 5 }) R.MOD_INT_CAUSE = 5 := by decide +kernel

/-- FIPS 180-4: SHA-384 of "abc". -/
theorem test_sha384 : beNat (sha384 (ascii "abc")) =
    0xcb00753f45a35e8bb5a03d699ac65007272c32ab0eded1631a8b605a43ff5bed8086072ba1e7cc2358baeca134c825a7 := by decide +kernel

/-- RFC 3720: CRC-32C of the digits 1 to 9. -/
theorem test_crc32c : crc32c (ascii "123456789") = 0xE3069283 := by decide +kernel

/-- AES-256 of a zero block under a zero key (NIST known answers). -/
theorem test_aes : aesBlock (aesKeys (List.replicate 32 0)) 0 = 0xdc95c078a2408989ad48a21492842087 := by decide +kernel

/-- RFC 5639: the base point is on brainpoolP384r1 and has the stated order. -/
theorem test_curve : ecOnCurve ecGx ecGy = true ∧ (ecMul (ecN - 1) ecG).z ≠ 0 ∧ (ecAdd (ecMul (ecN - 1) ecG) ecG).z = 0 := by decide +kernel

end Sys2Proof.Tests
end

section
/-! PROOFS. Accesses to BAR0 registers (R15, R16): the rows of the register table, what a read answers, what a read clears, and which
writes are discarded. -/

namespace Sys2Proof.Machine

/-! ## Offsets that the register table defines -/

theorem lessBy_eq_sub (a b : Nat) : lessBy a b = a - b := by
  rw [lessBy, Int.subNatNat_eq_coe]
  omega

/-- The list has a row of `count` registers, one every `stride` bytes from `base`. -/
def hasRow (rows : List RegRow) (base stride count : Nat) : Bool :=
  rows.any (fun r => r.base == base && r.stride == stride && r.count == count)

/-- A register that some row repeats at `off` is found. -/
theorem findRow_ne_none_of_hasRow {rows : List RegRow} {base stride count off : Nat} (hrow : hasRow rows base stride count = true)
    (hstride : stride ≠ 0) (hbase : base ≤ off) (hmod : (off - base) % stride = 0) (hcount : (off - base) / stride < count) :
    findRow rows off ≠ none := by
  induction rows with
  | nil => simp [hasRow] at hrow
  | cons r rows ih =>
    have hrow : (r.base = base ∧ r.stride = stride ∧ r.count = count) ∨ hasRow rows base stride count = true := by
      simpa [hasRow, and_assoc] using hrow
    unfold findRow
    rcases hrow with ⟨rfl, rfl, rfl⟩ | hrow
    · simp [hstride, hbase, hmod, hcount, instNo, lessBy_eq_sub]
    · have := ih hrow
      split
      · split <;> simp [this]
      · split <;> simp [this]

theorem regAt_eq_findRow_blockRows {off : Nat} (h : off < 0x1000000) : regAt off = findRow (blockRows off) off := by
  unfold regAt
  rw [if_neg (by simp; omega)]

/-- The block that holds `off` has a row that repeats there, so `off` is defined. -/
theorem regAt_ne_none_of_hasRow {base stride count off : Nat} (h : off < 0x1000000)
    (hrow : hasRow (blockRows off) base stride count = true) (hstride : stride ≠ 0) (hbase : base ≤ off)
    (hmod : (off - base) % stride = 0) (hcount : (off - base) / stride < count) : regAt off ≠ none := by
  rw [regAt_eq_findRow_blockRows h]
  exact findRow_ne_none_of_hasRow hrow hstride hbase hmod hcount

/-- An undefined offset is none of the registers that are defined. -/
theorem ne_of_regAt_none {off reg : Nat} (h : regAt off = none) (hreg : (regAt reg).isSome = true) : off ≠ reg := by
  rintro rfl
  simp [h] at hreg

/-! ## Reads -/

/-- Registers outside a function's view read as zero (R384). -/
theorem readReg_of_not_sees {s : State} {fn off : Nat} (hx : isMsix off = false) (hsee : fnSees s fn off = false) :
    readReg s fn off = (0, s) := by
  simp [readReg, hx, hsee]

/-- Where no register is defined a read finds zero (R16). -/
theorem readReg_of_regAt_none {s : State} {fn off : Nat} (hx : isMsix off = false) (hc : isCredit off = false) (hreg : regAt off = none) :
    readReg s fn off = (0, s) := by
  simp [readReg, hx, hc, hreg]

/-- A defined register with no open bits answers what it shows under the mask of its fields (R12, R14). -/
theorem readReg_of_regAt_some {s : State} {fn off : Nat} {x : RegRow × Nat} (hx : isMsix off = false) (hsee : fnSees s fn off = true)
    (hc : isCredit off = false) (hreg : regAt off = some x) (hopen : openBits s off = 0) :
    readReg s fn off = ((viewOf s fn off).getD (getReg s (regKey s fn off)) &&& x.1.readMask, s) := by
  simp [readReg, hx, hsee, hc, hreg, hopen]

@[simp] theorem length_natLe (v n : Nat) : (natLe v n).length = n := by
  induction n generalizing v with
  | zero => rfl
  | succ n ih => simp [natLe, ih]

@[simp] theorem natLe_zero (n : Nat) : natLe 0 n = List.replicate n 0 := by
  induction n with
  | zero => rfl
  | succ n ih => simp [natLe, ih, List.replicate_succ]

/-! ## Clearing what a read reached -/

theorem clearRead_of_regAt_none {s : State} {fn off : Nat} (lo hi : Nat) (ev : W64) (hreg : regAt off = none) :
    clearRead s fn off lo hi ev = s := by
  simp [clearRead, hreg]

theorem clearRead_of_not_sees {s : State} {fn off : Nat} (lo hi : Nat) (ev : W64) (hsee : fnSees s fn off = false) :
    clearRead s fn off lo hi ev = s := by
  unfold clearRead
  split <;> simp [hsee]

/-- The word that clearing the fields of mask `m` leaves: an event of the same cycle leaves its contribution, else the reset value
stands (R13). -/
def clearedWord (reset ev m w : W64) : W64 := (w &&& ~~~m) ||| ((if ev &&& m = 0 then reset else ev) &&& m)

/-- A read clears nothing, or the fields that it reaches of its own register. -/
theorem clearRead_cases (s : State) (fn off lo hi : Nat) (ev : W64) :
    clearRead s fn off lo hi ev = s ∨
    ∃ m, clearRead s fn off lo hi ev = modReg s (regKey s fn off) (clearedWord (regReset (regKey s fn off)) ev m) := by
  unfold clearRead
  split
  · exact .inl rfl
  · next r _ =>
    dsimp only
    split
    · exact .inl rfl
    · exact .inr ⟨rcHit r.1 lo hi, rfl⟩

/-- A read clears fields of its own register alone. -/
theorem onlyReg_clearRead (s : State) (fn off lo hi : Nat) (ev : W64) : OnlyReg s (clearRead s fn off lo hi ev) (regKey s fn off) := by
  rcases clearRead_cases s fn off lo hi ev with h | ⟨m, h⟩ <;> rw [h]
  · exact ⟨fun _ _ => rfl, rfl⟩
  · exact ⟨fun _ hk => getReg_modReg_ne s _ hk, rfl⟩

theorem clearedWord_zero (reset ev w : W64) : clearedWord reset ev 0 w = w := by
  change (w &&& BitVec.allOnes 64) ||| ((if ev &&& 0 = 0 then reset else ev) &&& 0#64) = w
  rw [BitVec.and_allOnes, BitVec.and_zero, BitVec.or_zero]

/-- The register after a read: the fields that the read reaches whole are cleared. -/
theorem getReg_clearRead {s : State} {fn off : Nat} {x : RegRow × Nat} (lo hi : Nat) (ev : W64) (hreg : regAt off = some x)
    (hsee : fnSees s fn off = true) :
    getReg (clearRead s fn off lo hi ev) (regKey s fn off) =
      clearedWord (regReset (regKey s fn off)) ev (rcHit x.1 lo hi) (getReg s (regKey s fn off)) := by
  unfold clearRead
  rw [hreg]
  dsimp only
  by_cases hm : rcHit x.1 lo hi = 0
  · rw [if_pos (by simp [hm]), hm, clearedWord_zero]
  · rw [if_neg (by simpa [hsee] using hm), getReg_modReg_same]
    rfl

theorem clearedWord_and_not (reset ev m w : W64) : clearedWord reset ev m w &&& ~~~m = w &&& ~~~m := by
  unfold clearedWord
  ext i
  simp only [BitVec.getElem_and, BitVec.getElem_or, BitVec.getElem_not]
  cases m[i] <;> simp

theorem clearedWord_and (reset ev m w : W64) : clearedWord reset ev m w &&& m = (if ev &&& m = 0 then reset else ev) &&& m := by
  unfold clearedWord
  ext i
  simp only [BitVec.getElem_and, BitVec.getElem_or, BitVec.getElem_not]
  cases m[i] <;> simp

/-- With no event in the cleared fields the reset value stands there. -/
theorem clearedWord_and_of_no_event (reset w : W64) {ev m : W64} (h : ev &&& m = 0) : clearedWord reset ev m w &&& m = reset &&& m := by
  rw [clearedWord_and, if_pos h]

/-- What events of the same cycle contribute stands in the cleared fields (R13). -/
theorem clearedWord_and_of_event (reset w : W64) {ev m : W64} (h : ev &&& m ≠ 0) : clearedWord reset ev m w &&& m = ev &&& m := by
  rw [clearedWord_and, if_neg h]

/-! ## READ_CLEAR -/

theorem exec_readClear_of_not_answers {s : State} {f : Fin 18} (off w : Nat) (ev : W64) 
    (h : ¬ (regsUp s = true ∧ (getFn s f).d3 = false)) :
    exec (.readClear f off w ev) s = .next s := by
  rw [exec_readClear]
  unfold execReadClear
  refine if_pos ?_
  cases hup : regsUp s with
  | false => rfl
  | true => exact eq_true_of_ne_false (fun hd3 => h ⟨hup, hd3⟩)

theorem exec_readClear_of_answers {s : State} {f : Fin 18} (off w : Nat) (ev : W64) 
    (h : regsUp s = true ∧ (getFn s f).d3 = false) :
    exec (.readClear f off w ev) s = .next (emit (readAny s f off w ev).2 (.bar 0 (readAny s f off w ev).1)) := by
  obtain ⟨hup, hd3⟩ := h
  rw [exec_readClear]
  simp [execReadClear, hup, hd3]

/-- Any other width or alignment reads zeros and has no other effect (R15). -/
theorem readAny_of_not_aligned (s : State) (fn : Nat) {off w : Nat} (ev : W64) (h : ¬ ((w = 64 ∧ off % 8 = 0) ∨ (w = 32 ∧ off % 4 = 0))) :
    readAny s fn off w ev = (List.replicate (w / 8) 0, s) := by
  unfold readAny
  exact if_neg (by simpa using h)

theorem readAny_64 (s : State) (fn : Nat) {off : Nat} (ev : W64) (h : off % 8 = 0) :
    readAny s fn off 64 ev =
      (natLe (readReg s fn (off / 8 * 8)).1.toNat 8, clearRead (readReg s fn (off / 8 * 8)).2 fn (off / 8 * 8) 0 63 ev) := by
  simp [readAny, h, List.take_of_length_le]

theorem readAny_32 (s : State) (fn : Nat) {off : Nat} (ev : W64) (h : off % 4 = 0) :
    readAny s fn off 32 ev =
      (((natLe (readReg s fn (off / 8 * 8)).1.toNat 8).drop (off % 8)).take 4,
        clearRead (readReg s fn (off / 8 * 8)).2 fn (off / 8 * 8) (off % 8 * 8) (off % 8 * 8 + 31) ev) := by
  simp [readAny, h]

/-- Where no register is defined an aligned read answers zeros and has no other effect (R16). -/
theorem readAny_of_regAt_none {s : State} {fn off w : Nat} (ev : W64) (hx : isMsix (off / 8 * 8) = false)
    (hc : isCredit (off / 8 * 8) = false) (hreg : regAt (off / 8 * 8) = none) (hfits : (w = 64 ∧ off % 8 = 0) ∨ (w = 32 ∧ off % 4 = 0)) :
    readAny s fn off w ev = (List.replicate (w / 8) 0, s) := by
  have hread : readReg s fn (off / 8 * 8) = (0, s) := readReg_of_regAt_none hx hc hreg
  rcases hfits with ⟨rfl, h⟩ | ⟨rfl, h⟩
  · simp [readAny_64 s fn ev h, hread, clearRead_of_regAt_none _ _ _ hreg]
  · have hhalf : off % 8 = 0 ∨ off % 8 = 4 := by omega
    rcases hhalf with hhalf | hhalf <;> simp [readAny_32 s fn ev h, hread, clearRead_of_regAt_none _ _ _ hreg, hhalf]

/-! ## Registers whose write is a command of its own are defined

Block by block: at an aligned offset where no register is defined, no such write starts. -/

theorem writeMod_of_regAt_none (s : State) (fn : Fin 18) {off : Nat} (v ev : W64) (h : regAt off = none) : writeMod s fn off v ev = none := by
  unfold writeMod
  rw [if_neg (ne_of_regAt_none h (by decide)), if_neg (ne_of_regAt_none h (by decide))]

theorem writeClk_of_regAt_none (s : State) (fn : Fin 18) {off : Nat} (v : W64) (hb : off / 0x10000 = 2) (h : regAt off = none) :
    writeClk s fn off v = none := by
  unfold writeClk
  rw [if_neg (ne_of_regAt_none h (by decide)), if_neg]
  simp only [Bool.and_eq_true, decide_eq_true_eq]
  rintro ⟨⟨hlo, hhi⟩, hmod⟩
  have hrow : hasRow (blockRows off) 0x21028 0x40 16 = true := by simp only [blockRows, hb]; decide
  exact regAt_ne_none_of_hasRow (by omega) hrow (by decide) (by omega) (by omega) (by omega) h

theorem writePwr_of_regAt_none (s : State) (fn : Fin 18) {off : Nat} (v : W64) (h : regAt off = none) : writePwr s fn off v = none := by
  unfold writePwr
  rw [if_neg (ne_of_regAt_none h (by decide)), if_neg (ne_of_regAt_none h (by decide))]

theorem writeStm_of_regAt_none (s : State) (fn : Fin 18) {off : Nat} (v : W64) (hb : off / 0x10000 = 5) (h8 : off % 8 = 0)
    (h : regAt off = none) : writeStm s fn off v = none := by
  unfold writeStm
  rw [if_neg (ne_of_regAt_none h (by decide)), if_neg (ne_of_regAt_none h (by decide)), if_neg]
  simp only [Bool.and_eq_true, decide_eq_true_eq]
  rintro ⟨hlo, hhi⟩
  have htable : hasRow (blockRows off) 0x50100 0x10 16 = true := by simp only [blockRows, hb]; decide
  have hrange : hasRow (blockRows off) 0x50108 0x10 16 = true := by simp only [blockRows, hb]; decide
  by_cases h16 : off % 16 = 0
  · exact regAt_ne_none_of_hasRow (by omega) htable (by decide) (by omega) (by omega) (by omega) h
  · exact regAt_ne_none_of_hasRow (by omega) hrange (by decide) (by omega) (by omega) (by omega) h

theorem writeGrx_of_regAt_none (s : State) (fn : Fin 18) {off : Nat} (v : W64) (hb : off / 0x10000 = 6) (h : regAt off = none) :
    writeGrx s fn off v = none := by
  unfold writeGrx
  rw [if_neg]
  simp only [Bool.and_eq_true, decide_eq_true_eq]
  rintro ⟨⟨hlo, hhi⟩, hmod⟩
  have hrow : hasRow (blockRows off) 0x60100 0x20 16 = true := by simp only [blockRows, hb]; decide
  exact regAt_ne_none_of_hasRow (by omega) hrow (by decide) (by omega) (by omega) (by omega) h

theorem writeFab_of_regAt_none (s : State) (fn : Fin 18) {off : Nat} (v : W64) (hb : off / 0x10000 = 7) (h : regAt off = none) :
    writeFab s fn off v = none := by
  unfold writeFab
  rw [if_neg, if_neg (ne_of_regAt_none h (by decide))]
  simp only [Bool.and_eq_true, decide_eq_true_eq]
  rintro ⟨hhi, hmod⟩
  have hrow : hasRow (blockRows off) 0x70000 0x1000 12 = true := by simp only [blockRows, hb]; decide
  exact regAt_ne_none_of_hasRow (by omega) hrow (by decide) (by omega) (by omega) (by omega) h

theorem writeStk_of_regAt_none (s : State) (fn : Fin 18) {off : Nat} (v : W64) (h : regAt off = none) : writeStk s fn off v = none := by
  unfold writeStk
  rw [if_neg (ne_of_regAt_none h (by decide))]

theorem writeDbg_of_regAt_none (s : State) (fn : Fin 18) {off : Nat} (v : W64) (h : regAt off = none) : writeDbg s fn off v = none := by
  have hring : ¬ ((decide (off = R.DBG_FLOG_ADDR) || decide (off = R.DBG_FLOG_SIZE)) = true) := by
    simp [ne_of_regAt_none h (reg := R.DBG_FLOG_ADDR) (by decide), ne_of_regAt_none h (reg := R.DBG_FLOG_SIZE) (by decide)]
  unfold writeDbg
  rw [if_neg (ne_of_regAt_none h (by decide)), if_neg (ne_of_regAt_none h (by decide)), if_neg hring, if_neg (ne_of_regAt_none h (by decide))]

theorem writeStr_of_regAt_none (s : State) (fn : Fin 18) {off : Nat} (v ev : W64) (hb : off / 0x10000 = 10) (h : regAt off = none) :
    writeStr s fn off v ev = none := by
  unfold writeStr
  rw [if_neg]
  simp only [Bool.and_eq_true, decide_eq_true_eq]
  rintro ⟨⟨hlo, hhi⟩, hmod⟩
  have hrow : hasRow (blockRows off) 0xA1020 0x40 128 = true := by simp only [blockRows, hb]; decide
  exact regAt_ne_none_of_hasRow (by omega) hrow (by decide) (by omega) (by omega) (by omega) h

/-- In a core window the write is plain, or it is discarded because the core is fused or no partition holds it. -/
theorem writeCor_of_regAt_none (s : State) (fn : Fin 18) {off : Nat} (v : W64) (hlo : 0x1000000 ≤ off) (hhi : off < 0x2000000)
    (h : regAt off = none) : writeCor s fn off v = none ∨ writeCor s fn off v = some s := by
  have hctrl : off % 0x10000 ≠ 0x100 := by
    intro hoff
    have hdef : findRow regRowsCor 0x100 ≠ none := by decide
    exact hdef (by simpa [regAt, hlo, hhi, hoff] using h)
  unfold writeCor
  dsimp only
  rw [if_neg hctrl]
  split
  · exact .inr rfl
  · exact .inl rfl

/-- At an aligned offset where no register is defined, no write is a command of its own. -/
theorem writeOwn_of_regAt_none (s : State) (fn : Fin 18) {off : Nat} (v ev : W64) (h8 : off % 8 = 0) (h : regAt off = none) :
    writeOwn s fn off v ev = none ∨ writeOwn s fn off v ev = some s := by
  unfold writeOwn
  split
  · next hwin =>
    simp only [Bool.and_eq_true, decide_eq_true_eq] at hwin
    obtain ⟨hlo, hhi⟩ := hwin
    exact writeCor_of_regAt_none s fn v hlo hhi h
  · left
    split
    · exact writeMod_of_regAt_none s fn v ev h
    · next hb => exact writeClk_of_regAt_none s fn v hb h
    · exact writePwr_of_regAt_none s fn v h
    · next hb => exact writeStm_of_regAt_none s fn v hb h8 h
    · next hb => exact writeGrx_of_regAt_none s fn v hb h
    · next hb => exact writeFab_of_regAt_none s fn v hb h
    · exact writeStk_of_regAt_none s fn v h
    · exact writeDbg_of_regAt_none s fn v h
    · next hb => exact writeStr_of_regAt_none s fn v ev hb h
    · rfl

theorem writePlain_of_regAt_none (s : State) (fn : Nat) {off : Nat} (v ev : W64) (h : regAt off = none) : writePlain s fn off v ev = s := by
  simp [writePlain, h]

/-- Where no register is defined a write is discarded (R16). -/
theorem writeReg_of_regAt_none (s : State) (fn : Fin 18) {off : Nat} (v ev : W64) (h8 : off % 8 = 0) (hx : isMsix off = false)
    (h : regAt off = none) : writeReg s fn off v ev = s := by
  unfold writeReg
  rw [if_neg (ne_of_regAt_none h (by decide)), hx, if_neg Bool.false_ne_true]
  rcases writeOwn_of_regAt_none s fn v ev h8 h with hown | hown <;> simp [hown, writePlain_of_regAt_none s fn v ev h]

/-! ## REGISTER_WRITE -/

/-- Any write but a full, aligned one is discarded (R15). -/
theorem exec_registerWrite_of_not_full (s : State) (f : Fin 18) {off w : Nat} (v ev : W64) (h : w ≠ 64 ∨ off % 8 ≠ 0) :
    exec (.registerWrite f off w v ev) s = .next s := by
  rw [exec_registerWrite]
  unfold execRegisterWrite
  exact if_pos (by simpa using h)

theorem exec_registerWrite_of_regAt_none (s : State) (f : Fin 18) {off : Nat} (v ev : W64) (h8 : off % 8 = 0) (hx : isMsix off = false)
    (h : regAt off = none) : exec (.registerWrite f off 64 v ev) s = .next s := by
  rw [exec_registerWrite]
  simp [execRegisterWrite, h8, writeReg_of_regAt_none s f v ev h8 hx h]

/-- Settles O50: READ_CLEAR by its widths, what it clears, and the writes that are discarded. -/
theorem registerAccesses : Obligations.RegisterAccesses := by
  intro s f off w ev up fits base r
  refine ⟨fun hup => exec_readClear_of_not_answers off w ev hup, fun hup hfits => ?unaligned, ?read64, ?read32, fun hx hsee => ?unseen,
    fun v hw => exec_registerWrite_of_not_full s f v ev hw, fun hx hc hreg => ⟨fun hup hfits => ?undefinedRead, fun v h8 => ?undefinedWrite⟩,
    fun x hx hsee hc hreg hopen => readReg_of_regAt_some hx hsee hc hreg hopen, fun lo hi => ?clears⟩
  case unaligned =>
    exact ⟨_, exec_readClear_of_answers off w ev hup, by rw [readAny_of_not_aligned s f ev hfits]; rfl⟩
  case read64 =>
    rintro hup rfl h8
    exact ⟨_, exec_readClear_of_answers off 64 ev hup, _, rfl, by rw [readAny_64 s f ev h8]; rfl⟩
  case read32 =>
    rintro hup rfl h4
    exact ⟨_, exec_readClear_of_answers off 32 ev hup, _, rfl, by rw [readAny_32 s f ev h4]; rfl⟩
  case unseen =>
    exact ⟨readReg_of_not_sees hx hsee, clearRead_of_not_sees 0 63 ev hsee⟩
  case undefinedRead =>
    exact ⟨_, exec_readClear_of_answers off w ev hup, by rw [readAny_of_regAt_none ev hx hc hreg hfits]; rfl⟩
  case undefinedWrite =>
    have hbase : base = off := by omega
    rw [hbase] at hx hreg
    exact exec_registerWrite_of_regAt_none s f v ev h8 hx hreg
  case clears =>
    obtain ⟨hother, hframe⟩ := onlyReg_clearRead s f base lo hi ev
    refine ⟨hother, hframe, fun x hreg hsee => ?_⟩
    dsimp only
    rw [getReg_clearRead lo hi ev hreg hsee]
    exact ⟨clearedWord_and_not _ _ _ _, clearedWord_and_of_no_event _ _, clearedWord_and_of_event _ _⟩

end Sys2Proof.Machine
end

section
/-! PROOFS. FEATURE_ENABLE and FEATURE_DISABLE (R49, R50, R435): what taking a resource, dropping it and stopping a feature change. -/

namespace Sys2Proof.Machine

/-! ## Frames -/

/-- `t` is `s` but for the run-time claims, the pins and the wires. -/
def OnlyClaims (s t : State) : Prop :=
  t = { s with tun := { s.tun with runtime := t.tun.runtime }, gpx := t.gpx, out := t.out }

theorem OnlyClaims.trans {s t r : State} (h : OnlyClaims s t) (h' : OnlyClaims t r) : OnlyClaims s r := by
  unfold OnlyClaims at *
  rw [h', h]

/-- `t` is `s` but for what the end of a feature may change: registers, programs, logs, the record ring and what the host is sent. -/
def OnlyFeature (s t : State) : Prop :=
  t = { s with regs := t.regs, parts := t.parts, flog := t.flog, flash := t.flash, msix := t.msix, dbg := t.dbg, host := t.host, out := t.out }

theorem OnlyFeature.trans {s t r : State} (h : OnlyFeature s t) (h' : OnlyFeature t r) : OnlyFeature s r := by
  unfold OnlyFeature at *
  rw [h', h]

theorem OnlyLog.onlyFeature {s t : State} (h : OnlyLog s t) : OnlyFeature s t := by
  unfold OnlyFeature
  rw [h.2]

theorem onlyFeature_setRegFld (s : State) (k hi lo v : Nat) : OnlyFeature s (setRegFld s k hi lo v) := rfl

theorem onlyFeature_hostWrite (s : State) (fn addr : Nat) (bs : List Byte) : OnlyFeature s (hostWrite s fn addr bs) := by
  unfold hostWrite hostEmit
  split <;> rfl

/-! ## Taking and dropping a resource -/

/-- A resource is unowned when neither Tuning nor a feature at run time claims it. -/
theorem ownerOf_eq_none_iff {s : State} {r : Nat} :
    ownerOf s r = none ↔ s.tun.cur.own.find? (fun v => v % 256 = r) = none ∧ s.tun.runtime.find? (fun c => c.res = r) = none := by
  unfold ownerOf
  split <;> simp_all

/-- A claim appended for an unowned resource makes the feature its owner, by run time (source 2). -/
theorem ownerOf_of_claim_appended {s t : State} {r v : Nat} (hfree : ownerOf s r = none)
    (ht : t.tun = { s.tun with runtime := s.tun.runtime ++ [⟨r, v⟩] }) : ownerOf t r = some (v, 2) := by
  obtain ⟨hown, hrun⟩ := ownerOf_eq_none_iff.mp hfree
  simp [ownerOf, ht, hown, List.find?_append, hrun]

@[simp] theorem throttlePin_tun (s : State) (on : Bool) : (throttlePin s on).tun = s.tun := by
  unfold throttlePin
  split <;> rfl

@[simp] theorem getGpx_emit (s : State) (o : Out) (i : Nat) : getGpx (emit s o) i = getGpx s i := rfl

theorem getGpx_throttlePin_ne (s : State) (on : Bool) {i : Nat} (h : i ≠ 1) : getGpx (throttlePin s on) i = getGpx s i := by
  unfold throttlePin
  split
  · rw [getGpx_emit, getGpx_modGpx_ne s _ h]
  · rfl

theorem onlyClaims_throttlePin (s : State) (on : Bool) : OnlyClaims s (throttlePin s on) := by
  unfold throttlePin
  split <;> rfl

theorem takeRes_tun (s : State) (r v : Nat) : (takeRes s r v).tun = { s.tun with runtime := s.tun.runtime ++ [⟨r, v⟩] } := by
  unfold takeRes
  dsimp only
  split
  · rw [throttlePin_tun, modGpx_tun]
  · rfl

theorem getGpx_takeRes_ne (s : State) {r i : Nat} (v : Nat) (hr : i ≠ r) (h1 : i ≠ 1) : getGpx (takeRes s r v) i = getGpx s i := by
  unfold takeRes
  dsimp only
  split
  · rw [getGpx_throttlePin_ne _ _ h1, getGpx_modGpx_ne _ _ hr]
    rfl
  · rfl

theorem onlyClaims_takeRes (s : State) (r v : Nat) : OnlyClaims s (takeRes s r v) := by
  unfold takeRes
  dsimp only
  split
  · refine OnlyClaims.trans ?_ (onlyClaims_throttlePin _ _)
    rfl
  · rfl

theorem dropRes_tun (s : State) (r : Nat) : (dropRes s r).tun = { s.tun with runtime := s.tun.runtime.filter (fun c => c.res != r) } := by
  unfold dropRes
  dsimp only
  split <;> rfl

theorem onlyClaims_dropRes (s : State) (r : Nat) : OnlyClaims s (dropRes s r) := by
  unfold dropRes
  dsimp only
  split <;> rfl

/-! ## Stopping a feature -/

/-- Every bit of a field that is set to zero reads as zero. -/
theorem getLsbD_setFld_zero (w : W64) {hi lo i : Nat} (hlo : lo ≤ i) (hhi : i ≤ hi) (h64 : i < 64) : (setFld w hi lo 0).getLsbD i = false := by
  have hmask : (fmask hi lo).getLsbD i = true := by
    simp only [fmask, BitVec.getLsbD_ofNat, Nat.testBit_shiftLeft, Nat.testBit_two_pow_sub_one]
    simp [h64, hlo]
    omega
  simp [setFld, hmask]

theorem getLsbD_getReg_setRegFld_zero (s : State) (k : Nat) {hi lo i : Nat} (hlo : lo ≤ i) (hhi : i ≤ hi) (h64 : i < 64) :
    (getReg (setRegFld s k hi lo 0) k).getLsbD i = false := by
  rw [setRegFld, getReg_modReg_same]
  exact getLsbD_setFld_zero _ hlo hhi h64

theorem onlyFeature_recPut (s : State) (bs : List Byte) : OnlyFeature s (recPut s bs) := by
  unfold recPut
  dsimp only
  split
  · exact ((onlyFeature_hostWrite s _ _ _).trans (onlyFeature_hostWrite _ _ _ _)).trans rfl
  · exact (onlyFeature_hostWrite s _ _ _).trans rfl

theorem onlyFeature_recStop (s : State) {code : Nat} (h : code < 0x3000) : OnlyFeature s (recStop s code) := by
  have hlog (u : State) : OnlyFeature u (log (setRegFld u R.DBG_STATUS 1 0 3) { code := code }) :=
    (onlyFeature_setRegFld u _ _ _ _).trans (log_spec _ { code := code } h).2.2.onlyFeature
  unfold recStop
  dsimp only
  split
  · exact (onlyFeature_recPut s _).trans (hlog _)
  · exact hlog s

/-- Whatever the feature, its end touches no claim, no pin and no core. -/
theorem onlyFeature_stopFeature (s : State) (f : Nat) : OnlyFeature s (stopFeature s f) := by
  unfold stopFeature
  dsimp only
  split
  · split
    · exact (onlyFeature_setRegFld s _ _ _ _).trans (onlyFeature_recStop _ (by decide))
    · rfl
  · split
    · rfl
    · split
      · rfl
      · split <;> rfl

theorem stopFeature_tun (s : State) (f : Nat) : (stopFeature s f).tun = s.tun := by
  rw [onlyFeature_stopFeature s f]

/-- The end of CORE_TRACE turns the trace off. -/
theorem dbgStatus_stopFeature_trace (s : State) : (getReg (stopFeature s 4) R.DBG_STATUS).getLsbD 4 = false :=
  getLsbD_getReg_setRegFld_zero _ _ (Nat.le_refl _) (Nat.le_refl _) (by decide)

/-- The end of TELEMETRY_SAMPLE turns the samples off. -/
theorem telemCtrl_stopFeature_telemetry (s : State) : (getReg (stopFeature s 8) R.PWR_TELEM_CTRL).getLsbD 0 = false :=
  getLsbD_getReg_setRegFld_zero _ _ (Nat.le_refl _) (Nat.le_refl _) (by decide)

/-! ## FEATURE_ENABLE -/

/-- The firmware does not serve, R49 does not allow the pair, or the partition does not exist: nothing happens. -/
theorem exec_featureEnable_of_not_served {s : State} {f res part : Nat}
    (h : fwUp s = false ∨ featCan f res = false ∨ featPart f = true ∧ partCount s ≤ part) :
    exec (.featureEnable f res part) s = .next s := by
  rw [exec_featureEnable, execFeatureEnable, if_pos]
  simpa [or_assoc] using h

/-- The firmware serves the request: R49 allows the pair, and the partition it names exists. -/
structure FeatureServed (s : State) (f res part : Nat) : Prop where
  up : fwUp s = true
  can : featCan f res = true
  part : featPart f = true → part < partCount s

theorem FeatureServed.guard_false {s : State} {f res part : Nat} (h : FeatureServed s f res part) :
    ¬ (!fwUp s || !featCan f res || (featPart f && partCount s ≤ part)) = true := by
  simpa [h.up, h.can] using h.part

theorem exec_featureEnable_of_same_owner {s : State} {f res part : Nat} {o : Nat × Nat} (h : FeatureServed s f res part)
    (ho : ownerOf s res = some o) (hsame : claimFeat o.1 = f) : exec (.featureEnable f res part) s = .next s := by
  rw [exec_featureEnable, execFeatureEnable, if_neg h.guard_false, ho]
  exact if_pos hsame

theorem exec_featureEnable_of_other_owner {s : State} {f res part : Nat} {o : Nat × Nat} (h : FeatureServed s f res part)
    (ho : ownerOf s res = some o) (hother : claimFeat o.1 ≠ f) :
    exec (.featureEnable f res part) s = .next (log s { code := 0x107, loc := res, payload := o.1 }) := by
  rw [exec_featureEnable, execFeatureEnable, if_neg h.guard_false, ho]
  exact if_neg hother

theorem exec_featureEnable_of_unowned {s : State} {f res part : Nat} (h : FeatureServed s f res part) (hfree : ownerOf s res = none) :
    exec (.featureEnable f res part) s = .next (takeRes s res (claimValue f res part)) := by
  rw [exec_featureEnable, execFeatureEnable, if_neg h.guard_false, hfree]

/-! ## FEATURE_DISABLE -/

/-- The feature holds the resource by a run-time claim. -/
def HoldsRuntime (s : State) (f res : Nat) : Prop := ∃ c ∈ s.tun.runtime, c.res = res ∧ claimFeat c.value = f

theorem any_runtime_iff_holdsRuntime (s : State) (f res : Nat) :
    s.tun.runtime.any (fun c => c.res = res && claimFeat c.value = f) = true ↔ HoldsRuntime s f res := by
  simp [HoldsRuntime]

theorem exec_featureDisable_of_not_held {s : State} {f res : Nat} (h : fwUp s = false ∨ ¬ HoldsRuntime s f res) :
    exec (.featureDisable f res) s = .next s := by
  rw [exec_featureDisable, execFeatureDisable, if_neg]
  rw [Bool.and_eq_true, any_runtime_iff_holdsRuntime]
  rintro ⟨hup, hheld⟩
  rcases h with hdown | hnot
  · simp [hdown] at hup
  · exact hnot hheld

theorem exec_featureDisable_of_held {s : State} {f res : Nat} (hup : fwUp s = true) (hheld : HoldsRuntime s f res) :
    exec (.featureDisable f res) s = .next (stopFeature (dropRes s res) f) := by
  rw [exec_featureDisable, execFeatureDisable, if_pos]
  rw [Bool.and_eq_true, any_runtime_iff_holdsRuntime]
  exact ⟨hup, hheld⟩

/-- Settles O19: a served request takes an unowned resource by appending its claim, and the release filters it out again. -/
theorem featuresClaim : Obligations.FeaturesClaim := by
  intro s f res part
  refine ⟨exec_featureEnable_of_not_served, fun hup hcan hpart => ?enable, exec_featureDisable_of_not_held, fun hup hheld => ?disable⟩
  case enable =>
    have hserved : FeatureServed s f res part := ⟨hup, hcan, hpart⟩
    refine ⟨fun o ho hsame => exec_featureEnable_of_same_owner hserved ho hsame,
      fun o ho hother => exec_featureEnable_of_other_owner hserved ho hother, fun hfree => ?free⟩
    case free =>
      have htun := takeRes_tun s res (claimValue f res part)
      refine ⟨_, exec_featureEnable_of_unowned hserved hfree, ownerOf_of_claim_appended hfree htun, by rw [htun], by rw [htun],
        fun i hr h1 => getGpx_takeRes_ne s _ hr h1, ?_⟩
      rw [onlyClaims_takeRes s res (claimValue f res part)]
  case disable =>
    refine ⟨_, exec_featureDisable_of_held hup hheld, (stopFeature_tun _ f).trans (dropRes_tun s res), ?_, ?_, ?_⟩
    · rintro rfl
      exact dbgStatus_stopFeature_trace _
    · rintro rfl
      exact telemCtrl_stopFeature_telemetry _
    · rw [onlyFeature_stopFeature (dropRes s res) f, onlyClaims_dropRes s res]

end Sys2Proof.Machine
end

section
/-! PROOFS. SLOT_END (R165, R175, R183): the order of its checks, and what the end of a core leaves of the state. -/

namespace Sys2Proof.Machine

/-! ## A trace event -/

/-- `t` is `s` but for the debug state, the only place of the trace (R410). -/
def OnlyDebug (s t : State) : Prop := t = { s with dbg := t.dbg }

theorem onlyDebug_traceEv (s : State) (c ev detail : Nat) : OnlyDebug s (traceEv s c ev detail) := by
  unfold traceEv
  by_cases hoff : (!(getReg s R.DBG_STATUS).getLsbD 4 || !(getReg s (R.DBG_TRACE_CORES (c / 64))).getLsbD (c % 64)) = true
  · rw [if_pos hoff]
    rfl
  · rw [if_neg hoff]
    cases partOfCore s c with
    | none => rfl
    | some p => cases hlocked : isLocked s p <;> simp only [hlocked] <;> rfl

@[simp] theorem getCore_traceEv (s : State) (c ev detail i : Nat) : getCore (traceEv s c ev detail) i = getCore s i := by
  rw [onlyDebug_traceEv s c ev detail]
  rfl

@[simp] theorem partOfCore_traceEv (s : State) (c ev detail i : Nat) : partOfCore (traceEv s c ev detail) i = partOfCore s i := by
  rw [onlyDebug_traceEv s c ev detail]
  rfl

@[simp] theorem partOfCore_modCore (s : State) (c : Nat) (f : Core → Core) (i : Nat) : partOfCore (modCore s c f) i = partOfCore s i := rfl

/-! ## The state after a core has ended -/

/-- The core has ended and is idle, and the trace says so. -/
def endCoreNow (s : State) (c : Nat) : State := traceEv (modCore s c (fun k => { k with ended := true, run := .idle })) c 5 0

@[simp] theorem getCore_endCoreNow_same (s : State) (c : Nat) : getCore (endCoreNow s c) c = { getCore s c with ended := true, run := .idle } := by
  rw [endCoreNow, getCore_traceEv, getCore_modCore_same]

theorem getCore_endCoreNow_ne (s : State) {c i : Nat} (h : i ≠ c) : getCore (endCoreNow s c) i = getCore s i := by
  rw [endCoreNow, getCore_traceEv, getCore_modCore_ne s _ h]

theorem endCoreNow_frame (s : State) (c : Nat) : endCoreNow s c = { s with cores := (endCoreNow s c).cores, dbg := (endCoreNow s c).dbg } := by
  rw [endCoreNow, onlyDebug_traceEv]
  rfl

@[simp] theorem partOfCore_endCoreNow (s : State) (c i : Nat) : partOfCore (endCoreNow s c) i = partOfCore s i := by
  rw [endCoreNow, partOfCore_traceEv, partOfCore_modCore]

/-- The round of the unit that core `c` runs for may be over (R183); a core without a partition or a unit ends no round. -/
def endUnitRound (v : State) (c : Nat) : State :=
  match partOfCore v c with
  | some p => (match unitOfCore v p c with | some u => roundOver v p u | none => v)
  | none => v

theorem endUnitRound_of_no_part {v : State} {c : Nat} (hp : partOfCore v c = none) : endUnitRound v c = v := by
  simp only [endUnitRound, hp]

theorem endUnitRound_of_no_unit {v : State} {c p : Nat} (hp : partOfCore v c = some p) (hu : unitOfCore v p c = none) :
    endUnitRound v c = v := by
  simp only [endUnitRound, hp, hu]

theorem endUnitRound_of_unit {v : State} {c p u : Nat} (hp : partOfCore v c = some p) (hu : unitOfCore v p c = some u) :
    endUnitRound v c = roundOver v p u := by
  simp only [endUnitRound, hp, hu]

/-! ## The checks of END, in their order -/

/-- The core runs, its bundle with END has issued, and it has not ended. -/
def EndIssued (s : State) (c : Nat) : Prop := coreRuns s c = true ∧ (getCore s c).ending = true ∧ (getCore s c).ended = false

/-- No unit queue of the core holds an instruction. -/
def UnitsDrained (k : Core) : Prop := ∀ e ∈ k.uq, e.2 = []

theorem endGuard_eq_false_iff (s : State) (c : Nat) :
    (!coreRuns s c || !(getCore s c).ending || (getCore s c).ended) = false ↔ EndIssued s c := by
  simp only [EndIssued, Bool.or_eq_false_iff, Bool.not_eq_false', and_assoc]

theorem uqGuard_eq_false_iff (k : Core) : k.uq.any (fun e => !e.2.isEmpty) = false ↔ UnitsDrained k := by
  simp only [UnitsDrained, List.any_eq_false, Bool.not_eq_true', Bool.not_eq_false, List.isEmpty_iff]

theorem exec_slotEnd_of_not_issued {s : State} {c : Fin 256} (h : ¬ EndIssued s c) : exec (.slotEnd c) s = .next s := by
  rw [exec_slotEnd, execSlotEnd, if_pos (eq_true_of_ne_false (mt (endGuard_eq_false_iff s c).mp h))]

/-- Once END has issued, the first check left is that of the unit queues. -/
theorem exec_slotEnd_of_undrained {s : State} {c : Fin 256} (h : EndIssued s c) (hd : ¬ UnitsDrained (getCore s c)) :
    exec (.slotEnd c) s = .next (hold s c 1) := by
  rw [exec_slotEnd, execSlotEnd, if_neg (Bool.eq_false_iff.mp ((endGuard_eq_false_iff s c).mpr h)),
    if_pos (eq_true_of_ne_false (mt (uqGuard_eq_false_iff _).mp hd))]

/-- With END issued and the unit queues drained, END looks at the request queues first, and at the operations under way after that (R175). -/
theorem exec_slotEnd_of_drained {s : State} {c : Fin 256} (h : EndIssued s c) (hd : UnitsDrained (getCore s c)) :
    exec (.slotEnd c) s =
      if !queuesEmpty (getCore s c) then .next (coreFaultB s c .c (((getCore s c).pc + 4095) % 4096) 0xA06 none)
      else if coreAsync s c then .next (hold s c 1)
      else .next (endUnitRound (endCoreNow s c) c) := by
  rw [exec_slotEnd, execSlotEnd, if_neg (Bool.eq_false_iff.mp ((endGuard_eq_false_iff s c).mpr h)),
    if_neg (Bool.eq_false_iff.mp ((uqGuard_eq_false_iff _).mpr hd))]
  rfl

/-- Settles O20: the four checks of END in their order, and, when all are passed, the state after the end of the core, with its unit's round. -/
theorem programsEnd : Obligations.ProgramsEnd := by
  intro s c
  refine ⟨exec_slotEnd_of_not_issued, exec_slotEnd_of_undrained, fun hend hdrained hq => ?requests, fun hend hdrained hq ha => ?async,
    fun hend hdrained hq ha => ?ends⟩
  case requests => simp only [exec_slotEnd_of_drained hend hdrained, hq, Bool.not_false, if_true]
  case async => simp only [exec_slotEnd_of_drained hend hdrained, hq, ha, Bool.not_true, Bool.false_eq_true, if_false, if_true]
  case ends =>
    have hexec : exec (.slotEnd c) s = .next (endUnitRound (endCoreNow s c) c) := by
      simp only [exec_slotEnd_of_drained hend hdrained, hq, ha, Bool.not_true, Bool.false_eq_true, if_false]
    have hpart : partOfCore (endCoreNow s c) c = partOfCore s c := partOfCore_endCoreNow s c c
    refine ⟨endCoreNow s c, getCore_endCoreNow_same s c, fun i hi => getCore_endCoreNow_ne s hi, endCoreNow_frame s c,
      fun hp => ?_, fun p hp hu => ?_, fun p u hp hu => ?_⟩
    · rw [hexec, endUnitRound_of_no_part (hpart.trans hp)]
    · rw [hexec, endUnitRound_of_no_unit (hpart.trans hp) hu]
    · rw [hexec, endUnitRound_of_unit (hpart.trans hp) hu]

end Sys2Proof.Machine
end

section
/-! PROOFS. The virtual functions (R384): which partition VF i serves, and that one whose partition does not serve reads zeros, discards
writes and raises no vector. -/

namespace Sys2Proof.Machine

/-! ## Functions that serve -/

/-- A partition serves when it exists and holds cores (R46, R384). -/
theorem partLive_iff (s : State) (p : Nat) : partLive s p = true ↔ p < s.tun.cur.partCount ∧ coreMask s p ≠ 0 := by
  rw [partLive, Bool.and_eq_true, decide_eq_true_eq, bne_iff_ne]
  rfl

/-- VF 1 to VF 16 serve as their partitions do. -/
theorem fnLive_eq_partLive (s : State) {fn : Nat} (hpf : fn ≠ 0) (hvf : fn ≤ 16) : fnLive s fn = partLive s (fn - 1) := by
  simp [fnLive, hpf, hvf]

/-- The physical function always serves. -/
theorem ne_zero_of_not_fnLive {s : State} {fn : Nat} (hdead : fnLive s fn = false) : fn ≠ 0 := by
  rintro rfl
  simp [fnLive] at hdead

theorem barPart_of_ne_zero (s : State) {fn : Nat} (hpf : fn ≠ 0) : barPart s fn = fn - 1 := if_neg hpf

/-- A function that does not serve sees no register; the management bus is none of the functions of R384. -/
theorem fnSees_of_not_fnLive {s : State} {fn : Nat} (off : Nat) (hbus : fn ≠ 17) (hdead : fnLive s fn = false) : fnSees s fn off = false := by
  simp [fnSees, hbus, hdead, ne_zero_of_not_fnLive hdead]

theorem mayWrite_of_not_fnLive {s : State} {fn : Nat} (off : Nat) (hbus : fn ≠ 17) (hdead : fnLive s fn = false) :
    mayWrite s fn off = false := by
  simp [mayWrite, hbus, fnSees_of_not_fnLive off hbus hdead]

/-! ## BAR0: reads -/

theorem readReg_of_not_fnLive {s : State} {fn : Nat} (off : Nat) (hbus : fn ≠ 17) (hdead : fnLive s fn = false) :
    readReg s fn off = (0, s) := by
  cases hx : isMsix off with
  | true => simp [readReg, hx, hdead, hbus]
  | false => exact readReg_of_not_sees hx (fnSees_of_not_fnLive off hbus hdead)

/-- A register that reads zero, and that no read clears, gives zeros at every width and alignment (R15). -/
theorem readAny_of_readReg_zero {s : State} {fn off : Nat} (w : Nat) (ev : W64) (hread : readReg s fn (off / 8 * 8) = (0, s))
    (hclear : ∀ lo hi, clearRead s fn (off / 8 * 8) lo hi ev = s) : readAny s fn off w ev = (List.replicate (w / 8) 0, s) := by
  by_cases hfits : (w = 64 ∧ off % 8 = 0) ∨ (w = 32 ∧ off % 4 = 0)
  · rcases hfits with ⟨rfl, h8⟩ | ⟨rfl, h4⟩
    · simp [readAny_64 s fn ev h8, hread, hclear]
    · have hhalf : off % 8 = 0 ∨ off % 8 = 4 := by omega
      rcases hhalf with hhalf | hhalf <;> simp [readAny_32 s fn ev h4, hread, hclear, hhalf]
  · exact readAny_of_not_aligned s fn ev hfits

theorem readAny_of_not_fnLive {s : State} {fn : Nat} (off w : Nat) (ev : W64) (hbus : fn ≠ 17) (hdead : fnLive s fn = false) :
    readAny s fn off w ev = (List.replicate (w / 8) 0, s) :=
  readAny_of_readReg_zero w ev (readReg_of_not_fnLive _ hbus hdead)
    (fun lo hi => clearRead_of_not_sees lo hi ev (fnSees_of_not_fnLive _ hbus hdead))

/-! ## BAR0: writes

MOD_RESET_CTRL has checks of its own, SCOPE by SCOPE, since a write of it is taken in states where no other register is written. -/

/-- Of the functions, only the physical one resets the module. -/
theorem scopeTaken_of_vf (s : State) {fn : Nat} (v : W64) (scope : Nat) (hpf : fn ≠ 0) (hbus : fn ≠ 17) :
    scopeTaken s fn v scope = false := by
  simp [scopeTaken, mayReset, hpf, hbus]

theorem smallReset_of_not_fnLive {s : State} {fn : Nat} (v : W64) (scope : Nat) (hbus : fn ≠ 17) (hdead : fnLive s fn = false) :
    smallReset s fn v scope = false := by
  simp [smallReset, mayWrite_of_not_fnLive _ hbus hdead]

theorem writeReset_of_not_fnLive {s : State} {f : Fin 18} (v : W64) (hbus : f.val ≠ 17) (hdead : fnLive s f = false) :
    writeReset s f v = s := by
  have hscope (scope : Nat) : scopeTaken s f v scope = false := scopeTaken_of_vf s v scope (ne_zero_of_not_fnLive hdead) hbus
  have hsmall (scope : Nat) : smallReset s f v scope = false := smallReset_of_not_fnLive v scope hbus hdead
  unfold writeReset
  split
  case h_1 => simp [execWarmReset, hscope, outState]
  case h_2 => simp [execColdReset, hscope, outState]
  case h_3 => simp [execCoreReset, hsmall, outState]
  case h_4 => simp [execPortReset, hsmall, outState]
  case h_5 => simp [execShutdown, hscope, outState]
  case h_6 => rfl

theorem writeMsix_of_not_fnLive {s : State} {fn : Nat} (off : Nat) (v : W64) (hdead : fnLive s fn = false) : writeMsix s fn off v = s := by
  simp [writeMsix, hdead]

theorem writeReg_of_not_fnLive {s : State} {f : Fin 18} (off : Nat) (v ev : W64) (hbus : f.val ≠ 17) (hdead : fnLive s f = false) :
    writeReg s f off v ev = s := by
  simp [writeReg, writeReset_of_not_fnLive v hbus hdead, writeMsix_of_not_fnLive off v hdead, mayWrite_of_not_fnLive off hbus hdead]

/-! ## The commands of a function that does not serve -/

theorem exec_readClear_of_not_fnLive {s : State} {f : Fin 18} (off w : Nat) (ev : W64) (hup : regsUp s = true ∧ (getFn s f).d3 = false)
    (hbus : f.val ≠ 17) (hdead : fnLive s f = false) :
    exec (.readClear f off w ev) s = .next (emit s (.bar 0 (List.replicate (w / 8) 0))) := by
  rw [exec_readClear_of_answers off w ev hup, readAny_of_not_fnLive off w ev hbus hdead]

theorem exec_registerWrite_of_not_fnLive {s : State} {f : Fin 18} (off w : Nat) (v ev : W64) (hbus : f.val ≠ 17) (hdead : fnLive s f = false) :
    exec (.registerWrite f off w v ev) s = .next s := by
  simp [execRegisterWrite, writeReg_of_not_fnLive off v ev hbus hdead]

theorem barShows_of_not_fnLive {s : State} {fn : Nat} (off len : Nat) (hdead : fnLive s fn = false) : barShows s fn off len = false := by
  simp [barShows, hdead]

theorem exec_bar2Read_of_not_shows {s : State} {f : Fin 18} {off n : Nat} (ecc : Ecc) (hopen : barOpen s f = true)
    (hshows : barShows s f off n = false) : exec (.bar2Read f off n ecc) s = .next (emit s (.bar 0 (List.replicate n 0))) := by
  simp [execBar2Read, hopen, hshows]

theorem exec_bar2Write_of_not_shows {s : State} {f : Fin 18} {off : Nat} {d : List Byte} (ecc : Ecc)
    (hshows : barShows s f off d.length = false) : exec (.bar2Write f off d ecc) s = .next s := by
  simp [execBar2Write, hshows]

theorem raiseVec_of_not_fnLive {s : State} {v : Nat} (hdead : fnLive s (fnOfVec v) = false) : raiseVec s v = s := by
  simp [raiseVec, hdead]

theorem exec_msixUnmask_of_not_fnLive {s : State} {v : Nat} (hdead : fnLive s (fnOfVec v) = false) : exec (.msixUnmask v) s = .next s := by
  simp [execMsixUnmask, hdead]

/-- Settles O54: a VF serves as its partition does, and one that does not serve sees no register, shows no byte and owns no vector. -/
theorem virtualFunctionsServeTheirPartitions : Obligations.VirtualFunctionsServeTheirPartitions := by
  intro s f hpf hbus
  have hpf : f.val ≠ 0 := Fin.val_ne_of_ne hpf
  have hbus : f.val ≠ 17 := Fin.val_ne_of_ne hbus
  have hlive : fnLive s f = true ↔ f.val - 1 < s.tun.cur.partCount ∧ coreMask s (f.val - 1) ≠ 0 := by
    rw [fnLive_eq_partLive s hpf (by omega), partLive_iff]
  refine ⟨barPart_of_ne_zero s hpf, hlive, fun hnone => ?_⟩
  have hdead : fnLive s f = false := eq_false_of_ne_true (mt hlive.mp hnone)
  refine ⟨fun off w ev hup hd3 => ⟨_, exec_readClear_of_not_fnLive off w ev ⟨hup, hd3⟩ hbus hdead, rfl⟩,
    fun off n ecc hopen => ⟨_, exec_bar2Read_of_not_shows ecc hopen (barShows_of_not_fnLive off n hdead), rfl⟩,
    fun off w v ev => exec_registerWrite_of_not_fnLive off w v ev hbus hdead,
    fun off d ecc => exec_bar2Write_of_not_shows ecc (barShows_of_not_fnLive off d.length hdead),
    fun v hv => ?vectors⟩
  case vectors =>
    have hdead : fnLive s (fnOfVec v) = false := by rw [hv, hdead]
    exact ⟨raiseVec_of_not_fnLive hdead, exec_msixUnmask_of_not_fnLive hdead⟩

end Sys2Proof.Machine
end
